-- ==== Sys2Proof/Word.lean ====
section
/-! DEFINITION. The plain words of the model: bytes, 32- and 64-bit words, engines, tiers, dispositions
and the named cause codes of R325. -/

namespace Sys2Proof

abbrev Byte := BitVec 8
abbrev Word32 := BitVec 32
abbrev Word64 := BitVec 64

/-- The four engines of a tile; ENG of R326 numbers them 0 to 3 in this order. -/
inductive Engine where
  | lde | mxe | vxe | ste
  deriving DecidableEq, Repr, Inhabited

def Engine.num : Engine → Nat
  | .lde => 0 | .mxe => 1 | .vxe => 2 | .ste => 3

def Engine.all : List Engine := [.lde, .mxe, .vxe, .ste]

/-- Names one chain sequencer: an engine of one context slot of one tile (R9, R11). -/
structure EngRef where
  tile : Nat
  slot : Nat
  eng  : Engine
  deriving DecidableEq, Repr, Inhabited

/-- The four tiers of device memory, in the order of the TIER field (R268). -/
inductive Tier where
  | hbm | lpddr | cxl | host
  deriving DecidableEq, Repr, Inhabited

def Tier.num : Tier → Nat
  | .hbm => 0 | .lpddr => 1 | .cxl => 2 | .host => 3

def Tier.ofNum : Nat → Tier
  | 0 => .hbm | 1 => .lpddr | 2 => .cxl | _ => .host

/-- The dispositions of R324, numbered as DISP. -/
inductive Disp where
  | park | halt | stop | note
  deriving DecidableEq, Repr, Inhabited

def Disp.num : Disp → Nat
  | .park => 0 | .halt => 1 | .stop => 2 | .note => 3

/-- The assigned cause codes of R325. -/
inductive Cause where
  | illegalClass | illegalOpcode | reservedField | wrongEngine | badFormat | backwardBrc
  | misalignedBlock | spaceNotPermitted | misalignedWindow | shapeMismatch | windowGeometry
  | trap (n : Nat)
  | breakpoint | singleStep
  | notPresent | permission | pasidInvalid | handleInvalid | handleExtent | remoteWindow
  | peerUnreachable | tableMalformed
  | migrationAbort (reason : Nat)
  | pinnedConflict
  | race | footprint | guard | regionOverlap | ringMisuse | bindingConflict
  | runOverflow | lengthMismatch | formatTag | badScale | scoreboardHazard | badTolerance | badMetadata
  | semOverflow | semInvalid | barrierReinit | danglingStream | rendezvousMisuse
  | budget | watchdog | supervisorCall | spawnRefused | cancelled | parkedBySupervisor
  | successorInvalid | dependenceUnderflow
  | poison | tilePoolError | registerParity | link | weightError
  | queueTerminated | malformedPacket | residencyCheck | completionFailed
  deriving DecidableEq, Repr, Inhabited

/-- The 10-bit code of R325. -/
def Cause.code : Cause → Nat
  | .illegalClass => 0x001 | .illegalOpcode => 0x002 | .reservedField => 0x003 | .wrongEngine => 0x004
  | .badFormat => 0x005 | .backwardBrc => 0x006 | .misalignedBlock => 0x007 | .spaceNotPermitted => 0x008
  | .misalignedWindow => 0x009 | .shapeMismatch => 0x00A | .windowGeometry => 0x00B
  | .trap n => 0x040 + n % 64
  | .breakpoint => 0x080 | .singleStep => 0x081
  | .notPresent => 0x100 | .permission => 0x101 | .pasidInvalid => 0x102 | .handleInvalid => 0x103
  | .handleExtent => 0x104 | .remoteWindow => 0x105 | .peerUnreachable => 0x106 | .tableMalformed => 0x107
  | .migrationAbort r => 0x180 + r % 8
  | .pinnedConflict => 0x190
  | .race => 0x200 | .footprint => 0x201 | .guard => 0x202 | .regionOverlap => 0x203 | .ringMisuse => 0x204
  | .bindingConflict => 0x205
  | .runOverflow => 0x240 | .lengthMismatch => 0x241 | .formatTag => 0x242 | .badScale => 0x243
  | .scoreboardHazard => 0x244 | .badTolerance => 0x245 | .badMetadata => 0x246
  | .semOverflow => 0x280 | .semInvalid => 0x281 | .barrierReinit => 0x282 | .danglingStream => 0x283
  | .rendezvousMisuse => 0x284
  | .budget => 0x2C0 | .watchdog => 0x2C1 | .supervisorCall => 0x2C2 | .spawnRefused => 0x2C3
  | .cancelled => 0x2C4 | .parkedBySupervisor => 0x2C5 | .successorInvalid => 0x2C6
  | .dependenceUnderflow => 0x2C7
  | .poison => 0x300 | .tilePoolError => 0x301 | .registerParity => 0x302 | .link => 0x303
  | .weightError => 0x304
  | .queueTerminated => 0x340 | .malformedPacket => 0x341 | .residencyCheck => 0x342
  | .completionFailed => 0x343

/-- Where an access goes once translated: a tier's frame store (R10), a shared pool (R110), a queue's
launch register page in the module's own BAR0 (R346), or another module's peer window (R356). -/
inductive Place where
  | tier (t : Tier)
  | clusterPool
  | diePool
  | launchPage
  | peer
  deriving DecidableEq, Repr, Inhabited

end Sys2Proof
end

