-- ==== Sys2Proof/Machine/Bits.lean ====
section
/-! DEFINITION. Bit-field, sign-extension and byte-order helpers (R1), and the layouts that the codec is
written with: a word is a list of (width, value) fields, low bits first. -/

namespace Sys2Proof

/-- Bits [lo+w-1:lo] of x, unsigned. -/
def bits (x lo w : Nat) : Nat := x / 2 ^ lo % 2 ^ w

/-- A word with w bits from bit lo replaced. -/
def putField (e lo w v : Nat) : Nat := e - bits e lo w * 2 ^ lo + v % 2 ^ w * 2 ^ lo

/-- Bit i of x as a Bool. -/
def bitAt (x i : Nat) : Bool := x / 2 ^ i % 2 == 1

/-- The two's-complement value of the low w bits of x. -/
def signed (w x : Nat) : Int :=
  let y := x % 2 ^ w
  if y < 2 ^ (w - 1) then (y : Int) else (y : Int) - (2 ^ w : Nat)

/-- The low w bits of an integer in two's complement. -/
def wrapTo (w : Nat) (z : Int) : Nat := (z % ((2 ^ w : Nat) : Int)).toNat

/-- Splits a word into fields of the given widths, low bits first. -/
def fieldsOf : List Nat → Nat → List Nat
  | [], _ => []
  | w :: ws, x => x % 2 ^ w :: fieldsOf ws (x / 2 ^ w)

/-- Packs (width, value) fields into a word, low bits first. -/
def wordOf : List (Nat × Nat) → Nat
  | [] => 0
  | (w, v) :: fs => v % 2 ^ w + 2 ^ w * wordOf fs

/-- The number whose little-endian bytes are given (R1). -/
def natOfBytes : List Byte → Nat
  | [] => 0
  | b :: bs => b.toNat + 256 * natOfBytes bs

/-- The n little-endian bytes of x (R1). -/
def bytesOfNat : Nat → Nat → List Byte
  | 0, _ => []
  | n + 1, x => BitVec.ofNat 8 x :: bytesOfNat n (x / 256)

/-- x rounded up to a multiple of m. -/
def roundUp (x m : Nat) : Nat := (x + m - 1) / m * m

/-- 0, 1, ..., n-1. -/
def upto (n : Nat) : List Nat := List.range n

/-- Bool as 0 or 1. -/
def ofBool (b : Bool) : Nat := if b then 1 else 0

/-- Bitwise operations on w-bit numbers. -/
def andN (a b : Nat) : Nat := a &&& b
def orN (a b : Nat) : Nat := a ||| b
def xorN (a b : Nat) : Nat := a ^^^ b

/-- The 64-bit mixing function of R134, used by walks and by dropout. -/
def mix (x : Nat) : Nat :=
  let x1 := x ^^^ (x / 2 ^ 32)
  let x2 := x1 * 0xD6E8FEB86659FD93 % 2 ^ 64
  let x3 := x2 ^^^ (x2 / 2 ^ 29)
  let x4 := x3 * 0xA5CB9243B8E41F27 % 2 ^ 64
  x4 ^^^ (x4 / 2 ^ 32)

/-- Number of one bits among the low w bits. -/
def popCount : Nat → Nat → Nat
  | 0, _ => 0
  | w + 1, x => x % 2 + popCount w (x / 2)

/-- Number of bits needed to write x: 0 for 0 (b of R218). -/
def bitLength : Nat → Nat → Nat
  | 0, _ => 0
  | f + 1, x => if x = 0 then 0 else 1 + bitLength f (x / 2)

end Sys2Proof
end

