-- ==== Sys2Proof/Machine/Float.lean ====
section
/-! DEFINITION. The number formats of R62 to R72 and the arithmetic on them: every operation computes the
exact value and rounds it once (R7, R64 to R66). Codes are unsigned numbers as a run value holds them. -/

namespace Sys2Proof

/-- Shape of a floating-point format (R63): exponent and fraction widths. -/
structure FFmt where
  eb : Nat
  fb : Nat
  deriving DecidableEq, Repr, Inhabited

def fp32 : FFmt := { eb := 8, fb := 23 }
def bf16 : FFmt := { eb := 8, fb := 7 }
def fp16 : FFmt := { eb := 5, fb := 10 }

/-- The floating-point shape of a format code, if it is one (R24, R63). -/
def floatOf : Nat → Option FFmt
  | 1 => some fp32 | 2 => some bf16 | 3 => some fp16 | _ => none

/-- Width of a format's run value in bits (R62). -/
def fmtWidth : Nat → Nat
  | 2 => 16 | 3 => 16 | 5 => 16 | 6 => 8 | 7 => 4 | 9 => 6 | 10 => 1 | _ => 32

/-- Width of an element in memory in bits (R33, R62): BOOL takes a byte. -/
def memWidth (f : Nat) : Nat := if f = 10 then 8 else fmtWidth f

/-- Rounding modes of R65 by their RM codes. -/
abbrev rmRNE : Nat := 0
abbrev rmRTZ : Nat := 1
abbrev rmRDN : Nat := 2
abbrev rmRUP : Nat := 3
abbrev rmRNA : Nat := 4

/-- An exact value: a NaN, a signed infinity, or (-1)^neg * m * 2^e with a signed zero at m = 0. -/
inductive FVal where
  | nan
  | inf (neg : Bool)
  | fin (neg : Bool) (m : Nat) (e : Int)
  deriving DecidableEq, Repr, Inhabited

def FFmt.expMax (f : FFmt) : Nat := 2 ^ f.eb - 1
def FFmt.bias (f : FFmt) : Nat := 2 ^ (f.eb - 1) - 1
/-- Exponent of the last place of a subnormal. -/
def FFmt.emin (f : FFmt) : Int := 1 - (f.bias : Int) - f.fb
def FFmt.width (f : FFmt) : Nat := f.eb + f.fb + 1
def FFmt.signBit (f : FFmt) : Nat := 2 ^ (f.eb + f.fb)
def FFmt.infCode (f : FFmt) : Nat := f.expMax * 2 ^ f.fb
/-- The canonical quiet NaN (R64). -/
def FFmt.nanCode (f : FFmt) : Nat := if f.fb = 23 then 0x7FC00000 else 0x7FC0
/-- The largest finite magnitude (R66). -/
def FFmt.maxCode (f : FFmt) : Nat := f.infCode - 1

def FFmt.withSign (f : FFmt) (neg : Bool) (mag : Nat) : Nat := if neg then f.signBit + mag else mag

/-- The exact value of a code (R63). -/
def FFmt.value (f : FFmt) (x : Nat) : FVal :=
  let neg := bits x (f.eb + f.fb) 1 == 1
  let ex := bits x f.fb f.eb
  let fr := bits x 0 f.fb
  if ex = f.expMax then (if fr = 0 then .inf neg else .nan)
  else if ex = 0 then .fin neg fr f.emin
  else .fin neg (2 ^ f.fb + fr) (f.emin + ((ex : Int) - 1))

/-- Number of bits of m. -/
def bitLen (m : Nat) : Nat := if m = 0 then 0 else Nat.log2 m + 1

/-- Does the mode move a value with kept part q away from zero? rem and half are the discarded part and half
a unit of the kept grid; sticky says that the true value lies strictly above what rem shows. -/
def roundsUp (rm : Nat) (neg : Bool) (q rem half : Nat) (sticky : Bool) : Bool :=
  match rm with
  | 0 => decide (half < rem) || (rem == half && (sticky || q % 2 == 1))
  | 1 => false
  | 2 => neg && (rem != 0 || sticky)
  | 3 => !neg && (rem != 0 || sticky)
  | _ => decide (half ≤ rem)

/-- What a finite overflow gives (R65, R66). -/
def FFmt.overflow (f : FFmt) (rm : Nat) (sat neg : Bool) : Nat :=
  let toInf := match rm with
    | 0 => true | 1 => false | 2 => neg | 3 => !neg | _ => true
  f.withSign neg (if toInf && !sat then f.infCode else f.maxCode)

/-- Rounds the magnitude m * 2^e (a little more when sticky) once into f (R65). The caller keeps m wide
enough that a sticky value never needs a left shift. -/
def FFmt.round (f : FFmt) (rm : Nat) (sat neg : Bool) (m : Nat) (e : Int) (sticky : Bool) : Nat :=
  let q := if m = 0 then f.emin else max f.emin (e + bitLen m - (f.fb + 1 : Nat))
  let sh := q - e
  let (kept, up) :=
    if sh ≤ 0 then (m * 2 ^ (-sh).toNat, false)
    else
      let k := sh.toNat
      let kept := m / 2 ^ k
      (kept, roundsUp rm neg kept (m % 2 ^ k) (2 ^ (k - 1)) sticky)
  let code := (q - f.emin).toNat * 2 ^ f.fb + kept + ofBool up
  if f.infCode ≤ code then f.overflow rm sat neg else f.withSign neg code

/-- fl(x): one rounding of an exact value (R7, R64). -/
def FFmt.fl (f : FFmt) (rm : Nat) (sat : Bool) : FVal → Nat
  | .nan => f.nanCode
  | .inf neg => f.withSign neg f.infCode
  | .fin neg m e => f.round rm sat neg m e false

/-- The integer m * 2^(e - lo) with its sign, for lo at most e. -/
def scaledInt (neg : Bool) (m : Nat) (e lo : Int) : Int :=
  let z : Int := ((m * 2 ^ (e - lo).toNat : Nat) : Int)
  if neg then -z else z

/-- Exact sum. The sign of an exact zero sum follows R64. -/
def FVal.add (rm : Nat) : FVal → FVal → FVal
  | .nan, _ => .nan
  | _, .nan => .nan
  | .inf s, .inf t => if s = t then .inf s else .nan
  | .inf s, .fin _ _ _ => .inf s
  | .fin _ _ _, .inf t => .inf t
  | .fin s m e, .fin t n g =>
    let lo := min e g
    let z := scaledInt s m e lo + scaledInt t n g lo
    if z = 0 then
      (if s = t then .fin s 0 lo else .fin (rm == 2) 0 lo)
    else .fin (decide (z < 0)) z.natAbs lo

def FVal.neg : FVal → FVal
  | .nan => .nan
  | .inf s => .inf (!s)
  | .fin s m e => .fin (!s) m e

/-- Exact product. -/
def FVal.mul : FVal → FVal → FVal
  | .nan, _ => .nan
  | _, .nan => .nan
  | .inf s, .inf t => .inf (s != t)
  | .inf s, .fin t m _ => if m = 0 then .nan else .inf (s != t)
  | .fin s m _, .inf t => if m = 0 then .nan else .inf (s != t)
  | .fin s m e, .fin t n g => .fin (s != t) (m * n) (e + g)

/-- a * 2^n exactly. -/
def FVal.scale (n : Int) : FVal → FVal
  | .fin s m e => .fin s m (e + n)
  | v => v

/-- An integer as an exact value. -/
def FVal.ofInt (z : Int) : FVal := .fin (decide (z < 0)) z.natAbs 0

/-- Correctly rounded quotient (R204). -/
def FFmt.div (f : FFmt) (rm : Nat) (sat : Bool) : FVal → FVal → Nat
  | .nan, _ => f.nanCode
  | _, .nan => f.nanCode
  | .inf _, .inf _ => f.nanCode
  | .inf s, .fin t _ _ => f.withSign (s != t) f.infCode
  | .fin s _ _, .inf t => f.withSign (s != t) 0
  | .fin s m e, .fin t n g =>
    let neg := s != t
    if n = 0 then (if m = 0 then f.nanCode else f.withSign neg f.infCode)
    else if m = 0 then f.withSign neg 0
    else
      let k := 32 + bitLen n
      let q := m * 2 ^ k / n
      f.round rm sat neg q (e - g - k) (m * 2 ^ k % n != 0)

/-- Integer square root, one binary digit a step from 2^(k-1) down. -/
def isqrtFrom : Nat → Nat → Nat → Nat
  | 0, _, r => r
  | k + 1, n, r => if (r + 2 ^ k) * (r + 2 ^ k) ≤ n then isqrtFrom k n (r + 2 ^ k) else isqrtFrom k n r

def isqrt (n : Nat) : Nat := isqrtFrom (bitLen n / 2 + 1) n 0

/-- Correctly rounded square root (R204). -/
def FFmt.sqrt (f : FFmt) (rm : Nat) : FVal → Nat
  | .nan => f.nanCode
  | .inf s => if s then f.nanCode else f.infCode
  | .fin s m e =>
    if m = 0 then f.withSign s 0
    else if s then f.nanCode
    else
      let k : Nat := if (e % 2 = 0) then 64 else 65
      let n := m * 2 ^ k
      let r := isqrt n
      f.round rm false false r ((e - (k : Int)) / 2) (r * r != n)

/-- Rounds m * 2^e with its sign to an integer under rm (R65). -/
def roundInt (rm : Nat) (neg : Bool) (m : Nat) (e : Int) : Int :=
  let mag : Nat :=
    if 0 ≤ e then m * 2 ^ e.toNat
    else
      let k := (-e).toNat
      let q := m / 2 ^ k
      q + ofBool (roundsUp rm neg q (m % 2 ^ k) (2 ^ (k - 1)) false)
  if neg then -(mag : Int) else (mag : Int)

/-- Numeric comparison of two non-NaN values, -0 equal to +0. -/
def FVal.lt : FVal → FVal → Bool
  | .nan, _ => false
  | _, .nan => false
  | .inf s, .inf t => s && !t
  | .inf s, .fin _ _ _ => s
  | .fin _ _ _, .inf t => !t
  | .fin s m e, .fin t n g =>
    let lo := min e g
    decide (scaledInt s m e lo < scaledInt t n g lo)

def FVal.isNan : FVal → Bool
  | .nan => true | _ => false

def FVal.isNeg : FVal → Bool
  | .nan => false | .inf s => s | .fin s _ _ => s

def FVal.eqNum (x y : FVal) : Bool := !x.isNan && !y.isNan && !(FVal.lt x y) && !(FVal.lt y x)

/-- The order of minimumNumber and maximumNumber: numeric, with -0 below +0 (R205). -/
def FVal.below (x y : FVal) : Bool := FVal.lt x y || (FVal.eqNum x y && x.isNeg && !y.isNeg)

/-- minimumNumber of two codes (R205). -/
def FFmt.minNum (f : FFmt) (a b : Nat) : Nat :=
  let x := f.value a
  let y := f.value b
  if x.isNan then (if y.isNan then f.nanCode else b % 2 ^ f.width)
  else if y.isNan then a % 2 ^ f.width
  else if FVal.below y x then b % 2 ^ f.width else a % 2 ^ f.width

/-- maximumNumber of two codes (R205). -/
def FFmt.maxNum (f : FFmt) (a b : Nat) : Nat :=
  let x := f.value a
  let y := f.value b
  if x.isNan then (if y.isNan then f.nanCode else b % 2 ^ f.width)
  else if y.isNan then a % 2 ^ f.width
  else if FVal.below x y then b % 2 ^ f.width else a % 2 ^ f.width

/-- fl(a + b), fl(a - b), fl(a * b) and fl(a * b + d) on codes. -/
def FFmt.add (f : FFmt) (rm : Nat) (sat : Bool) (a b : Nat) : Nat := f.fl rm sat (FVal.add rm (f.value a) (f.value b))
def FFmt.sub (f : FFmt) (rm : Nat) (sat : Bool) (a b : Nat) : Nat :=
  f.fl rm sat (FVal.add rm (f.value a) (FVal.neg (f.value b)))
def FFmt.mul (f : FFmt) (rm : Nat) (sat : Bool) (a b : Nat) : Nat := f.fl rm sat (FVal.mul (f.value a) (f.value b))
def FFmt.fma (f : FFmt) (rm : Nat) (sat : Bool) (a b d : Nat) : Nat :=
  f.fl rm sat (FVal.add rm (FVal.mul (f.value a) (f.value b)) (f.value d))

/-- RNE_fp32 of fused operations on FP32 codes (R7). -/
def fma32 (a b d : Nat) : Nat := fp32.fma rmRNE false a b d
def neg32 (a : Nat) : Nat := a ^^^ 0x80000000

/-! ### Integers (R67) -/

/-- Is the format an INT format, read signed? -/
def isSignedFmt (f : Nat) : Bool := f == 4 || f == 5 || f == 6 || f == 7

/-- The value of a run value in an integer, raw or BOOL format. -/
def intVal (f x : Nat) : Int :=
  if isSignedFmt f then signed (fmtWidth f) x else ((x % 2 ^ fmtWidth f : Nat) : Int)

def intMin (f : Nat) : Int := if isSignedFmt f then -((2 ^ (fmtWidth f - 1) : Nat) : Int) else 0
def intMax (f : Nat) : Int :=
  if isSignedFmt f then ((2 ^ (fmtWidth f - 1) : Nat) : Int) - 1 else ((2 ^ fmtWidth f : Nat) : Int) - 1

def clampInt (lo hi z : Int) : Int := if z < lo then lo else if hi < z then hi else z

/-- Wraps modulo 2^w, or clamps to the format's range under SAT (R67). -/
def wrapClamp (f : Nat) (sat : Bool) (z : Int) : Nat :=
  wrapTo (fmtWidth f) (if sat then clampInt (intMin f) (intMax f) z else z)

/-- Converts an exact value to an integer format: round, then clamp (R79). -/
def fvalToInt (f rm : Nat) : FVal → Nat
  | .nan => 0
  | .inf s => wrapTo (fmtWidth f) (if s then intMin f else intMax f)
  | .fin s m e => wrapTo (fmtWidth f) (clampInt (intMin f) (intMax f) (roundInt rm s m e))

/-! ### L6 (R68 to R72) -/

/-- The significands T of R69. -/
def l6T : Nat → Nat
  | 0 => 0x3F800000 | 1 => 0x3F9837F0 | 2 => 0x3FB504F3 | _ => 0x3FD744FD

/-- 2^n * T[f] with a sign as an FP32 code; n small enough to stay normal. -/
def l6Scaled (neg : Bool) (q : Int) : Nat :=
  let n := q / 4
  let r := (q % 4).toNat
  fp32.withSign neg (((l6T r : Int) + n * (2 ^ 23 : Nat)).toNat)

/-- The FP32 code of an L6 code (R69). -/
def l6ToFp32 (x : Nat) : Nat :=
  let s := bits x 5 1 == 1
  let ex := bits x 0 5
  if ex = 0 then (if s then fp32.nanCode else 0) else l6Scaled s ((ex : Int) - 16)

/-- The product of two L6 codes as an exact FP32 value (R70). -/
def l6Mul (a b : Nat) : FVal :=
  let ea := bits a 0 5
  let eb := bits b 0 5
  let sa := bits a 5 1 == 1
  let sb := bits b 5 1 == 1
  if (ea = 0 ∧ sa) ∨ (eb = 0 ∧ sb) then .nan
  else if ea = 0 ∨ eb = 0 then .fin false 0 0
  else fp32.value (l6Scaled (sa != sb) (((ea : Int) - 16) + ((eb : Int) - 16)))

/-- U of R71. -/
def l6U : Nat → Nat
  | 0 => 0x3F8B95C2 | 1 => 0x3FA5FED7 | 2 => 0x3FC5672A | _ => 0x3FEAC0C7

/-- TH[E] of R71, for E from 1 to 31, as an FP32 code. -/
def l6Threshold (ex : Nat) : Nat :=
  if ex ≤ 1 then 0x3D1837F0
  else
    let m : Int := (ex : Int) - 17
    ((l6U (m % 4).toNat : Int) + (m / 4) * (2 ^ 23 : Nat)).toNat

/-- The largest E of 1..n with |x| at least TH[E], 0 if none; mag is an FP32 magnitude code. -/
def l6Level : Nat → Nat → Nat
  | 0, _ => 0
  | n + 1, mag => if l6Threshold (n + 1) ≤ mag then n + 1 else l6Level n mag

/-- Encodes an FP32 code into L6 (R71). -/
def l6OfFp32 (x : Nat) : Nat :=
  match fp32.value x with
  | .nan => 0x20
  | _ =>
    let ex := l6Level 31 (x % 2 ^ 31)
    if ex = 0 then 0 else 32 * bits x 31 1 + ex

/-- Widens a float code to FP32 exactly. -/
def toFp32 (f : FFmt) (x : Nat) : Nat := fp32.fl rmRNE false (f.value x)

/-- The exact value of a run value in any numeric format: floats, L6, integers. -/
def numVal (fmt x : Nat) : FVal :=
  match floatOf fmt with
  | some f => f.value x
  | none => if fmt = 9 then fp32.value (l6ToFp32 x) else FVal.ofInt (intVal fmt x)

end Sys2Proof
end

