-- ==== Sys2Proof/Machine/Flags.lean ====
section
/-! DEFINITION. Every condition and class word: branch conditions (R99), compare predicates (R222), floating-point
classes (R84). The part has no other flags than the end flag of a chain (R100). -/

namespace Sys2Proof

/-- Is a BRC taken, with the chain's end flag and the word w (R99)? -/
def brcTaken (cond : Nat) (ended : Bool) (w imm : Nat) : Bool :=
  match cond with
  | 0 => true
  | 1 => ended
  | 2 => !ended
  | 3 => w == imm
  | 4 => w != imm
  | 5 => decide (signed 32 w < signed 32 imm)
  | 6 => decide (signed 32 imm ≤ signed 32 w)
  | 7 => decide (w < imm)
  | 8 => decide (imm ≤ w)
  | 9 => andN w imm != 0
  | _ => andN w imm == 0

/-- Floating-point predicates of VCMP by OPX (R222). -/
def fcmp (opx : Nat) (x y : FVal) : Bool :=
  let un := x.isNan || y.isNan
  match opx with
  | 0 => FVal.eqNum x y
  | 1 => !FVal.eqNum x y
  | 2 => FVal.lt x y
  | 3 => !un && !FVal.lt y x
  | 4 => FVal.lt y x
  | 5 => !un && !FVal.lt x y
  | 6 => un
  | _ => !un

/-- Integer conditions of VICMP by OPX on w-bit elements (R222). -/
def icmp (opx w x y : Nat) : Bool :=
  match opx with
  | 0 => x == y
  | 1 => x != y
  | 2 => decide (signed w x < signed w y)
  | 3 => decide (signed w x ≤ signed w y)
  | 4 => decide (signed w y < signed w x)
  | 5 => decide (signed w y ≤ signed w x)
  | 6 => decide (x < y)
  | 7 => decide (x ≤ y)
  | 8 => decide (y < x)
  | _ => decide (y ≤ x)

/-- The bit FCLASS sets for a code (R84). -/
def fclassBit (f : FFmt) (x : Nat) : Nat :=
  let neg := bits x (f.eb + f.fb) 1 == 1
  let ex := bits x f.fb f.eb
  let fr := bits x 0 f.fb
  if ex = f.expMax then
    (if fr = 0 then (if neg then 0 else 7) else if bitAt fr (f.fb - 1) then 9 else 8)
  else if ex = 0 then
    (if fr = 0 then (if neg then 3 else 4) else if neg then 2 else 5)
  else if neg then 1 else 6

def fclass (f : FFmt) (x : Nat) : Nat := 2 ^ fclassBit f x

end Sys2Proof
end

