-- ==== Sys2Proof/Machine/Runs.lean ====
section
/-! DEFINITION. Logical sequences as lists of runs (R193, R196): alignment (R198), windows, source modifiers
(R218, R219), contribution runs (R225). -/

namespace Sys2Proof.Machine

/-- Runs of a value with its count. -/
abbrev Runs := List (Nat × Nat)

def Runs.total (r : Runs) : Nat := (r.map (·.2)).sum

/-- Puts a run before a list, joining it with an equal first run. -/
def consRun {α : Type} [DecidableEq α] (v : α) (n : Nat) : List (α × Nat) → List (α × Nat)
  | [] => [(v, n)]
  | (w, m) :: l => if v = w then (w, n + m) :: l else (v, n) :: (w, m) :: l

/-- Merges adjacent runs of equal values. -/
def mergeRuns {α : Type} [DecidableEq α] : List (α × Nat) → List (α × Nat)
  | [] => []
  | (v, n) :: l => if n = 0 then mergeRuns l else consRun v n (mergeRuns l)

/-- A list of elements as merged runs. -/
def runsOf {α : Type} [DecidableEq α] (l : List α) : List (α × Nat) := mergeRuns (l.map fun v => (v, 1))

/-- The elements of a sequence. -/
def Runs.elems (r : Runs) : List Nat := r.flatMap fun (v, n) => List.replicate n v

/-- The element at a position; 0 beyond the end. -/
def Runs.at_ : Runs → Nat → Nat
  | [], _ => 0
  | (v, n) :: l, p => if p < n then v else Runs.at_ l (p - n)

/-- Drops the first k elements. -/
def dropRuns {α : Type} : List (α × Nat) → Nat → List (α × Nat)
  | [], _ => []
  | (v, n) :: l, k => if k = 0 then (v, n) :: l else if k < n then (v, n - k) :: l else dropRuns l (k - n)

/-- The first k elements. -/
def takeRuns {α : Type} : List (α × Nat) → Nat → List (α × Nat)
  | [], _ => []
  | (v, n) :: l, k => if k = 0 then [] else if k ≤ n then [(v, k)] else (v, n) :: takeRuns l (k - n)

/-- Aligns two sequences on the union of their boundaries, up to the shorter. -/
def zipSegs {α β : Type} : Nat → List (α × Nat) → List (β × Nat) → List ((α × β) × Nat)
  | 0, _, _ => []
  | f + 1, (x, m) :: xs, (y, n) :: ys =>
    if m < n then ((x, y), m) :: zipSegs f xs ((y, n - m) :: ys)
    else if n < m then ((x, y), n) :: zipSegs f ((x, m - n) :: xs) ys
    else ((x, y), m) :: zipSegs f xs ys
  | _, _, _ => []

def alignRuns {α β : Type} (a : List (α × Nat)) (b : List (β × Nat)) : List ((α × β) × Nat) :=
  zipSegs (a.length + b.length) a b

/-- Maps the values of runs. -/
def mapRuns {α β : Type} (f : α → β) (l : List (α × Nat)) : List (β × Nat) := l.map fun (v, n) => (f v, n)

/-! ### Source modifiers (R218, R219) -/

/-- Cuts a list into n pieces of S elements. -/
def chunks {α : Type} (S : Nat) : Nat → List α → List (List α)
  | 0, _ => []
  | n + 1, l => l.take S :: chunks S n (l.drop S)

/-- Segment or block size of a modifier on n elements. -/
def modSize (mcls lseg dist n : Nat) : Nat :=
  if mcls = 2 then 2 ^ (lseg + bitLength 4 dist) else if lseg = 0 then n else 2 ^ lseg

/-- Rearranges one segment. -/
def modSegment (mcls lseg dist : Nat) (l : List Nat) : List Nat :=
  match mcls with
  | 1 => l.drop (dist % l.length) ++ l.take (dist % l.length)
  | 2 =>
    let parts := chunks (2 ^ lseg) (l.length / 2 ^ lseg) l
    (upto parts.length).flatMap fun j => parts.getD (xorN j dist) []
  | 3 => List.replicate l.length (l.headD 0)
  | 4 => l.reverse
  | _ => l

/-- The permuted sequence of MCLS 1 to 4, none where the length is not a multiple of the segment size. -/
def permuteRuns (m : Nat) (r : Runs) : Option Runs :=
  let mcls := bits m 0 4
  let lseg := bits m 4 4
  let dist := bits m 8 4
  let n := r.total
  if mcls = 0 ∨ 5 ≤ mcls then some r
  else
    let S := modSize mcls lseg dist n
    if S = 0 ∨ n % S ≠ 0 then none
    else some (runsOf ((chunks S (n / S) r.elems).flatMap (modSegment mcls lseg dist)))

/-! ### Contribution runs (R225) -/

/-- The contribution runs of a sequence with a flag at each position: value, count and start of each maximal
range of equal elements whose flags are set. -/
def contribFrom : Nat → List ((Nat × Bool) × Nat) → List (Nat × Nat × Nat)
  | _, [] => []
  | p, ((v, on), n) :: l => if on then (v, n, p) :: contribFrom (p + n) l else contribFrom (p + n) l

def contribRuns (l : List ((Nat × Bool) × Nat)) : List (Nat × Nat × Nat) := contribFrom 0 (mergeRuns l)

/-! ### Splicing (R200) -/

/-- Replaces elements o to o+n-1 of a sequence, splitting the runs at the edges and merging nothing across them. -/
def spliceRuns (r : Runs) (o n : Nat) (w : Runs) : Runs := takeRuns r o ++ w ++ dropRuns r (o + n)

/-- Start of the 513th run and the number of runs. -/
def Runs.overflowAt (r : Runs) : Nat := Runs.total (r.take 512)

end Sys2Proof.Machine
end

