-- ==== Sys2Proof/Fields.lean ====
section
/-! DEFINITION. The fields of control blocks as the decoder pulls them out (R23, R26, R28 to R30). -/

namespace Sys2Proof

/-- The fields every block has, whatever its form: issue control of DW0 (R23) and the four semaphore
terms of DW1 (R26). -/
structure Ctl where
  fbar   : Nat := 0
  brk    : Nat := 0
  trc    : Nat := 0
  sbset  : Nat := 0
  sbwait : Nat := 0
  wsem   : Nat := 0
  wcnt   : Nat := 0
  w2sem  : Nat := 0
  w2cnt  : Nat := 0
  ssem   : Nat := 0
  scnt   : Nat := 0
  s2sem  : Nat := 0
  s2cnt  : Nat := 0
  deriving DecidableEq, Repr, Inhabited

/-- One operand descriptor (R30). Strides are the raw 32-bit fields; Desc.stride reads them signed. -/
structure Desc where
  space : Nat := 0
  mod   : Nat := 0
  base  : Nat := 0
  st0   : Nat := 0
  st1   : Nat := 0
  st2   : Nat := 0
  st3   : Nat := 0
  seg   : Nat := 0
  ext2  : Nat := 0
  pad   : Nat := 0
  aux   : Nat := 0
  deriving DecidableEq, Repr, Inhabited

/-- An L-form block but for CLASS and OP, which the constructor of Instr names. -/
structure LBlk where
  c    : Ctl := {}
  opx  : Nat := 0
  mreg : Nat := 0
  zm   : Nat := 0
  msk  : Nat := 0
  sat  : Nat := 0
  rm   : Nat := 0
  dfmt : Nat := 0
  fmt  : Nat := 0
  cx   : Nat := 0
  rlvl : Nat := 0
  lk   : Nat := 0
  next : Nat := 0
  b0   : Nat := 0
  b1   : Nat := 0
  b2   : Nat := 0
  b3   : Nat := 0
  a    : Desc := {}
  b    : Desc := {}
  d    : Desc := {}
  deriving DecidableEq, Repr, Inhabited

end Sys2Proof
end

