-- ==== Sys2Proof/Syntax.lean ====
section
/-! DEFINITION. The steps of the part: one constructor for each row of spec/opcode_table.json.
L-form blocks carry their fields as an LBlk; S-form blocks their issue control and the fields of R97, R141,
R159, R175 and R281; X-form instructions their register numbers (R49, R317); events what they are about.
Rows stand in the order of the table, but for events without parameters, which stand last. -/

namespace Sys2Proof

/-- Operations and events of the Verain-4. -/
inductive Instr where
  /-- NOP (R99): Issues with no effect beyond its waits, signals and scoreboard slot. -/
  | nop (c : Ctl)
  /-- END (R103): Draining block that retires its chain, discards its queued blocks and adds its signals at issue. -/
  | endChain (c : Ctl)
  /-- LINK (R99): Sets the chain cursor to a full 57-bit target address. -/
  | link (c : Ctl) (tgt : Nat)
  /-- BRC (R99): Forward-only conditional branch on the end flag or on a tile pool word compared with an immediate. -/
  | brc (c : Ctl) (cond tgt imm off : Nat)
  /-- BRCD (R99): Decrements a tile pool counter and branches to its target while the counter is nonzero. -/
  | brcd (c : Ctl) (tgt off : Nat)
  /-- PATCH (R102): Writes 1 to 16 tile pool bytes into a block in device memory as one sector access, then refetches the overlapping queued blocks. -/
  | patch (c : Ctl) (len tgt off : Nat)
  /-- PATCHI (R102): Writes 1 to 4 immediate bytes into a block in device memory. -/
  | patchi (c : Ctl) (len tgt imm : Nat)
  /-- PATCHV (R102): Writes the low bytes of one logical element of a vector register into a block in device memory; VXE only. -/
  | patchv (c : Ctl) (len tgt elem vreg : Nat)
  /-- YIELD (R106): Refills the task budget before its deadline and offers the slot to the scheduler. -/
  | yieldSlot (c : Ctl)
  /-- SPAWN (R107): Queues a task record with the cluster scheduler as a fork and completes at issue. -/
  | spawn (c : Ctl) (rb roff inh : Nat)
  /-- SVC (R108): Raises supervisor call 0x2C2 (PARK) with its service number and argument. -/
  | svc (c : Ctl) (svcno arg : Nat)
  /-- TRAP (R108): Raises cause 0x040 plus the trap number (PARK). -/
  | trap (c : Ctl) (tno arg : Nat)
  /-- BRKP (R108): Stops its engine with breakpoint 0x080 (STOP) and copies its TAG into the stop record. -/
  | brkp (c : Ctl) (tag : Nat)
  /-- FLTI (R368): Privileged block that raises a named cause code with the disposition R368 gives. -/
  | flti (c : Ctl) (cause val : Nat)
  /-- LDT (R131): Loads a tile of a tensor handle, padding elements out of extent, into a pool window. -/
  | ldt (b : LBlk)
  /-- LDG (R131): Copies a global-memory window into a tile, cluster or die pool window. -/
  | ldg (b : LBlk)
  /-- LDGR (R131): Copies a cluster, die or remote pool window into the tile pool or the weight buffer. -/
  | ldgr (b : LBlk)
  /-- LDWB (R131): Copies a handle tile, a gm window or a tp window into the weight buffer. -/
  | ldwb (b : LBlk)
  /-- LDF (R131): Fills a pool or weight buffer window with an immediate value. -/
  | ldf (b : LBlk)
  /-- LDX (R132): Gathers elements by a UINT32 index list, delivering zero for null indices. -/
  | ldx (b : LBlk)
  /-- LDXL (R132): Gathers whole lines by a UINT32 index list. -/
  | ldxl (b : LBlk)
  /-- LDW (R134): Walks pointer chains or random CSR steps on the memory side, one D line per hop. -/
  | ldw (b : LBlk)
  /-- LDQ (R135): Scans a window and records the positions and values of elements at or above a threshold. -/
  | ldq (b : LBlk)
  /-- SUB (R136): Opens a subscription that pushes one handle tile per iteration into a ring and completes at issue. -/
  | sub (b : LBlk)
  /-- SUBC (R140): Closes the task's subscription on a ring, sending an end-of-stream token. -/
  | subc (b : LBlk)
  /-- LDACQ (R142): Reads a word with acquire at a scope, optionally holding issue until the word reaches a threshold. -/
  | ldacq (c : Ctl) (wt w64 scope rb roff imm off : Nat)
  /-- STT (R152): Stores a pool window into a tile of a tensor handle, discarding elements out of extent, as a fork. -/
  | stt (b : LBlk)
  /-- STG (R152): Stores a pool window into global memory as a fork. -/
  | stg (b : LBlk)
  /-- STGR (R152): Stores a tp or wb window into a cluster, die or remote pool window. -/
  | stgr (b : LBlk)
  /-- STX (R153): Scatters elements by an index list, skipping null indices. -/
  | stx (b : LBlk)
  /-- STXL (R153): Scatters whole lines by an index list. -/
  | stxl (b : LBlk)
  /-- STRD (R154): Combines source elements into destination words at their homes by add, minimum or maximum. -/
  | strd (b : LBlk)
  /-- ATADD (R156): Atomic add on 32-bit words at their homes, optionally returning the old values. -/
  | atadd (b : LBlk)
  /-- ATSMIN (R156): Atomic signed minimum on 32-bit words. -/
  | atsmin (b : LBlk)
  /-- ATSMAX (R156): Atomic signed maximum on 32-bit words. -/
  | atsmax (b : LBlk)
  /-- ATUMIN (R156): Atomic unsigned minimum on 32-bit words. -/
  | atumin (b : LBlk)
  /-- ATUMAX (R156): Atomic unsigned maximum on 32-bit words. -/
  | atumax (b : LBlk)
  /-- ATAND (R156): Atomic bitwise and on 32-bit words. -/
  | atand (b : LBlk)
  /-- ATOR (R156): Atomic bitwise or on 32-bit words. -/
  | ator (b : LBlk)
  /-- ATXOR (R156): Atomic bitwise xor on 32-bit words. -/
  | atxor (b : LBlk)
  /-- ATXCH (R156): Atomic exchange on 32-bit words. -/
  | atxch (b : LBlk)
  /-- ATCAS (R156): Atomic compare-and-swap on 32-bit words. -/
  | atcas (b : LBlk)
  /-- ATFADD (R156): Atomic FP32 add on words, rounded under RM. -/
  | atfadd (b : LBlk)
  /-- STREL (R160): After every earlier block and fork of its chain has finished, writes a word with release at a scope. -/
  | strel (c : Ctl) (si w64 scope rb roff imm off : Nat)
  /-- PUB (R161): Opens a pull stream that drains ring slots into handle tiles and completes at issue. -/
  | pub (b : LBlk)
  /-- PUBC (R163): Closes the task's pull stream on a ring. -/
  | pubc (b : LBlk)
  /-- SEMI (R178): Sets a semaphore's count; draining and holding. -/
  | semi (c : Ctl) (sem val : Nat)
  /-- SEMQ (R178): Writes a semaphore's count to a tile pool word. -/
  | semq (c : Ctl) (sem off : Nat)
  /-- SEMW (R178): Waits until a semaphore holds a count, optionally subtracting it. -/
  | semw (c : Ctl) (dec sem cnt : Nat)
  /-- SEMS (R179): Adds a count to a semaphore of its own slot or, as a die-scope release, of another slot on its die. -/
  | sems (c : Ctl) (rmt slot tile sem cnt : Nat)
  /-- REGD (R180): Declares, replaces or removes a tile pool or weight buffer region with its bindings. -/
  | regd (c : Ctl) (b2v b2w b2sem b1v b1w b1sem mode space reg len off : Nat)
  /-- RINGD (R181): Declares or removes a ring over a region and sets its semaphores and cursors. -/
  | ringd (c : Ctl) (prod esem fsem reg ring slot64 nslot : Nat)
  /-- EOS (R182): Sends one end-of-stream token to a ring of its own slot. -/
  | eos (c : Ctl) (ring : Nat)
  /-- BARI (R183): Takes ownership of a cluster rendezvous point and initialises it. -/
  | bari (c : Ctl) (pt exp : Nat)
  /-- BARA (R183): Arrives at a rendezvous point as a cluster-scope release, optionally writing the arrival phase. -/
  | bara (c : Ctl) (pt pw off : Nat)
  /-- BARW (R183): Waits until a rendezvous point's phase passes a given phase, as an acquire. -/
  | barw (c : Ctl) (pt off : Nat)
  /-- FENCE (R184): Completes when every write that happens before it is visible at its scope. -/
  | fence (c : Ctl) (scope : Nat)
  /-- POST (R185): Updates a completion object by add, maximum or write with release at a scope. -/
  | post (c : Ctl) (op scope rb roff val : Nat)
  /-- JOIN (R185): Waits until a completion object reaches a threshold and acquires it. -/
  | join (c : Ctl) (scope rb roff thr : Nat)
  /-- VADD (R204): Floating-point add per aligned run segment. -/
  | vadd (b : LBlk)
  /-- VSUB (R204): Floating-point subtract. -/
  | vsub (b : LBlk)
  /-- VMUL (R204): Floating-point multiply. -/
  | vmul (b : LBlk)
  /-- VDIV (R204): Correctly rounded floating-point divide. -/
  | vdiv (b : LBlk)
  /-- VFMA (R204): Fused multiply-add with the old destination. -/
  | vfma (b : LBlk)
  /-- VFMS (R204): Fused multiply-subtract of the old destination. -/
  | vfms (b : LBlk)
  /-- VFNMA (R204): Fused negative multiply-add: old destination minus the product. -/
  | vfnma (b : LBlk)
  /-- VSQRT (R204): Correctly rounded square root. -/
  | vsqrt (b : LBlk)
  /-- VRNDI (R204): Rounds to an integral float value under RM. -/
  | vrndi (b : LBlk)
  /-- VMIN (R205): IEEE minimumNumber per element. -/
  | vmin (b : LBlk)
  /-- VMAX (R205): IEEE maximumNumber per element. -/
  | vmax (b : LBlk)
  /-- VABS (R205): Clears the sign bit. -/
  | vabs (b : LBlk)
  /-- VNEG (R205): Inverts the sign bit. -/
  | vneg (b : LBlk)
  /-- VCPYS (R205): Magnitude of A with the sign of B. -/
  | vcpys (b : LBlk)
  /-- VEXPX (R205): Extracts floor(log2|a|) as an exact float. -/
  | vexpx (b : LBlk)
  /-- VMANT (R205): Extracts the significand in [1, 2) with the sign of a. -/
  | vmant (b : LBlk)
  /-- VEXPINS (R206): Scales A by 2 to the power B rounded toward zero, with one rounding. -/
  | vexpins (b : LBlk)
  /-- VFEXP2 (R207): Evaluates 2^f by a fixed Horner polynomial in FP32. -/
  | vfexp2 (b : LBlk)
  /-- VRCP (R208): FP32 reciprocal by a fixed Newton iteration. -/
  | vrcp (b : LBlk)
  /-- VRSQ (R209): FP32 reciprocal square root by a fixed iteration. -/
  | vrsq (b : LBlk)
  /-- VLOG2F (R210): FP32 base-2 logarithm by a fixed series. -/
  | vlog2f (b : LBlk)
  /-- VMOV (R213): Copies elements, optionally reinterpreting them under another tag. -/
  | vmov (b : LBlk)
  /-- VBCST (R214): Repeats one element L times as one run. -/
  | vbcst (b : LBlk)
  /-- VIOTA (R214): Builds a stepped integer sequence of length L. -/
  | viota (b : LBlk)
  /-- VRUN (R214): Repeats each element of A by the count in B. -/
  | vrun (b : LBlk)
  /-- VLEN (R214): Cuts or zero-extends A to length L. -/
  | vlen (b : LBlk)
  /-- VIADD (R212): Integer add, wrapping or clamping. -/
  | viadd (b : LBlk)
  /-- VISUB (R212): Integer subtract, wrapping or clamping. -/
  | visub (b : LBlk)
  /-- VIMUL (R212): Integer multiply, wrapping or clamping. -/
  | vimul (b : LBlk)
  /-- VIMAD (R212): Integer multiply-add with the old destination. -/
  | vimad (b : LBlk)
  /-- VIMULH (R212): High half of the signed product. -/
  | vimulh (b : LBlk)
  /-- VIMULHU (R212): High half of the unsigned product. -/
  | vimulhu (b : LBlk)
  /-- VIMIN (R212): Signed minimum. -/
  | vimin (b : LBlk)
  /-- VIMAX (R212): Signed maximum. -/
  | vimax (b : LBlk)
  /-- VUMIN (R212): Unsigned minimum. -/
  | vumin (b : LBlk)
  /-- VUMAX (R212): Unsigned maximum. -/
  | vumax (b : LBlk)
  /-- VAND (R212): Bitwise and. -/
  | vand (b : LBlk)
  /-- VOR (R212): Bitwise or. -/
  | vor (b : LBlk)
  /-- VXOR (R212): Bitwise xor. -/
  | vxor (b : LBlk)
  /-- VNOT (R212): Bitwise not. -/
  | vnot (b : LBlk)
  /-- VSHL (R212): Logical shift left. -/
  | vshl (b : LBlk)
  /-- VSHR (R212): Logical shift right. -/
  | vshr (b : LBlk)
  /-- VSRA (R212): Arithmetic shift right. -/
  | vsra (b : LBlk)
  /-- VCLZ (R212): Counts leading zero bits. -/
  | vclz (b : LBlk)
  /-- VPOP (R212): Counts one bits. -/
  | vpop (b : LBlk)
  /-- VLD (R215): Reads a tp or wb window densely into a register. -/
  | vld (b : LBlk)
  /-- VST (R215): Writes a register's elements densely into a tp or wb window. -/
  | vst (b : LBlk)
  /-- VLDR (R216): Loads a raw run image into a register without merging. -/
  | vldr (b : LBlk)
  /-- VSTR (R216): Stores a register's runs as a raw run image, with an optional status word. -/
  | vstr (b : LBlk)
  /-- VCMP (R222): Floating-point compare that produces a BOOL mask. -/
  | vcmp (b : LBlk)
  /-- VICMP (R222): Integer compare that produces a BOOL mask. -/
  | vicmp (b : LBlk)
  /-- VSEL (R223): Selects A or B per position by a selector mask. -/
  | vsel (b : LBlk)
  /-- VMAND (R224): Elementwise and of masks. -/
  | vmand (b : LBlk)
  /-- VMOR (R224): Elementwise or of masks. -/
  | vmor (b : LBlk)
  /-- VMXOR (R224): Elementwise xor of masks. -/
  | vmxor (b : LBlk)
  /-- VMNOT (R224): Elementwise not of a mask. -/
  | vmnot (b : LBlk)
  /-- VMCNT (R224): Counts the set positions of a mask. -/
  | vmcnt (b : LBlk)
  /-- VMFST (R224): Finds the first set position of a mask. -/
  | vmfst (b : LBlk)
  /-- VRSUM (R226): Floating-point sum rounded once per contribution run. -/
  | vrsum (b : LBlk)
  /-- VRISUM (R227): Integer sum by runs, wrapping or clamping. -/
  | vrisum (b : LBlk)
  /-- VRMAX (R227): Maximum reduction. -/
  | vrmax (b : LBlk)
  /-- VRMIN (R227): Minimum reduction. -/
  | vrmin (b : LBlk)
  /-- VRARG (R227): Least position of the maximum or minimum. -/
  | vrarg (b : LBlk)
  /-- VRCNT (R227): Counts maximal ranges of equal adjacent elements. -/
  | vrcnt (b : LBlk)
  /-- VSCAN (R228): Inclusive prefix add, minimum or maximum. -/
  | vscan (b : LBlk)
  /-- VCOMP (R229): Compresses the elements that a selector mask marks. -/
  | vcomp (b : LBlk)
  /-- VEXPD (R229): Expands elements into the positions that a selector mask marks. -/
  | vexpd (b : LBlk)
  /-- VGATH (R230): Gathers register elements by UINT32 indices. -/
  | vgath (b : LBlk)
  /-- VRCO (R231): Coalesces adjacent bitwise-equal elements into single runs. -/
  | vrco (b : LBlk)
  /-- VRCOT (R231): Lossy coalescing within a tolerance. -/
  | vrcot (b : LBlk)
  /-- VTOPK (R232): Positions of the k largest contributing elements. -/
  | vtopk (b : LBlk)
  /-- VHIST (R233): Histogram of UINT32 bin numbers into L bins. -/
  | vhist (b : LBlk)
  /-- VDOT (R234): Dot product accumulated per element in ascending order. -/
  | vdot (b : LBlk)
  /-- FCVT (R78): Converts between floating-point formats with one rounding. -/
  | fcvt (b : LBlk)
  /-- FCVTI (R79): Converts float to integer, rounding and clamping. -/
  | fcvti (b : LBlk)
  /-- ICVTF (R80): Converts integer to float. -/
  | icvtf (b : LBlk)
  /-- ICVT (R81): Converts between integer and BOOL formats. -/
  | icvt (b : LBlk)
  /-- LGENC (R82): Encodes floats into L6 by thresholds. -/
  | lgenc (b : LBlk)
  /-- LGDEC (R82): Decodes L6 into FP32 exactly. -/
  | lgdec (b : LBlk)
  /-- QNT (R83): Quantises floats by a scale into narrow integers. -/
  | qnt (b : LBlk)
  /-- DQNT (R83): Dequantises integers by a scale into floats. -/
  | dqnt (b : LBlk)
  /-- PK4 (R85): Packs register integers into an INT4 pool window. -/
  | pk4 (b : LBlk)
  /-- UPK4 (R85): Unpacks an INT4 pool window into a register. -/
  | upk4 (b : LBlk)
  /-- FCLASS (R84): Writes a one-hot class word for each float. -/
  | fclass (b : LBlk)
  /-- MMA (R240): Runs matrix steps that accumulate A times B-transpose into accumulators in ascending k. -/
  | mma (b : LBlk)
  /-- MMAS (R244): Matrix steps with B expanded from a compressed form. -/
  | mmas (b : LBlk)
  /-- MMD (R245): Depth-wise diagonal matrix steps, one column per channel. -/
  | mmd (b : LBlk)
  /-- MMC (R246): Complex matrix steps with optional conjugation of B. -/
  | mmc (b : LBlk)
  /-- ACZ (R247): Zeroes accumulator cells. -/
  | acz (b : LBlk)
  /-- ACR (R247): Copies accumulator cells into the tile pool. -/
  | acr (b : LBlk)
  /-- ACW (R247): Writes accumulator cells from the tile pool or an immediate. -/
  | acw (b : LBlk)
  /-- ACMV (R247): Moves accumulator cells within the file, for example to transpose. -/
  | acmv (b : LBlk)
  /-- DRN (R249): Drains cells through the bias, residual, activation and dropout epilogue into the tile pool. -/
  | drn (b : LBlk)
  /-- WINL (R255): Rearranges a feature map into convolution operand rows or tap lines. -/
  | winl (b : LBlk)
  /-- WPOOL (R259): Max or average pooling of map windows. -/
  | wpool (b : LBlk)
  /-- VBFLY (R261): Radix-2 complex butterflies. -/
  | vbfly (b : LBlk)
  /-- VTWD (R262): Multiplies complex elements by twiddles of order 2^NLOG. -/
  | vtwd (b : LBlk)
  /-- VCMUL (R263): Pointwise complex products. -/
  | vcmul (b : LBlk)
  /-- MIGR (R284): Queues requests to move pages of a range to a tier; outcomes follow in the background. -/
  | migr (c : Ctl) (dtier rb roff npg : Nat)
  /-- MIGRS (R285): Moves pages of a range to a tier and completes only when all have committed. -/
  | migrs (c : Ctl) (dtier rb roff npg : Nat)
  /-- MPIN (R286): Pins the pages of a range. -/
  | mpin (c : Ctl) (rb roff npg : Nat)
  /-- MUNPIN (R286): Unpins the pages of a range. -/
  | munpin (c : Ctl) (rb roff npg : Nat)
  /-- MADV (R286): Writes never-move or preferred-tier advice for the pages of a range. -/
  | madv (c : Ctl) (adv rb roff npg : Nat)
  /-- MABRT (R287): Aborts the migrations in motion of pages in a range. -/
  | mabrt (c : Ctl) (rb roff npg : Nat)
  /-- MHOT (R288): Reads hotness counters of a range, optionally clearing them. -/
  | mhot (c : Ctl) (clr rb roff npg off : Nat)
  /-- MQRY (R288): Writes a motion and tier record for each page of a range. -/
  | mqry (c : Ctl) (rb roff npg off : Nat)
  /-- TKPOST (R318): Posts a task record under the checks of R296. -/
  | tkpost (rd rs1 rs2 : Nat)
  /-- TKCNCL (R318): Cancels one live task and marks its launch failed. -/
  | tkcncl (rd rs1 rs2 : Nat)
  /-- TKSTAT (R318): Returns a task's state word. -/
  | tkstat (rd rs1 rs2 : Nat)
  /-- TKRSM (R318): Resumes a parked task, optionally skipping its faulting blocks. -/
  | tkrsm (rd rs1 rs2 : Nat)
  /-- TKPARK (R318): Parks a task with cause 0x2C5. -/
  | tkpark (rd rs1 rs2 : Nat)
  /-- LNNEW (R319): Creates a launch from a launch descriptor. -/
  | lnnew (rd rs1 : Nat)
  /-- LNCNT (R319): Reads a launch's counter, failed and done flags. -/
  | lncnt (rd rs1 : Nat)
  /-- LNCNCL (R319): Cancels every task of a launch. -/
  | lncncl (rd rs1 : Nat)
  /-- GRCNT (R319): Reads a graph's counter, failed and done flags. -/
  | grcnt (rd rs1 : Nat)
  /-- GRCNCL (R319): Cancels every task of a graph's launches. -/
  | grcncl (rd rs1 : Nat)
  /-- JBCNT (R319): Reads the number of live tasks of a PASID. -/
  | jbcnt (rd rs1 : Nat)
  /-- JBCNCL (R319): Cancels every task of a PASID and ends a halt of its job. -/
  | jbcncl (rd rs1 : Nat)
  /-- SEMRD (R320): Reads a slot semaphore's count, from the slot or the frame. -/
  | semrd (rd rs1 : Nat)
  /-- SEMWR (R320): Sets a slot semaphore's count. -/
  | semwr (rd rs1 rs2 : Nat)
  /-- SEMSIG (R320): Adds to a slot semaphore as a device-scope release. -/
  | semsig (rd rs1 rs2 : Nat)
  /-- BARINI (R320): Initialises a rendezvous point for a PASID, or frees it. -/
  | barini (rd rs1 rs2 : Nat)
  /-- BARARV (R320): Arrives at a rendezvous point and returns the arrival phase. -/
  | bararv (rd rs1 : Nat)
  /-- BARWT (R320): Waits until a rendezvous point's phase passes a given phase. -/
  | barwt (rd rs1 rs2 : Nat)
  /-- FQPOP (R321): Copies and removes the oldest record of the cluster's fault queue. -/
  | fqpop (rd rs1 : Nat)
  /-- FBRD (R321): Reads an item of a die's fault buffer state. -/
  | fbrd (rd rs1 : Nat)
  /-- STOPRD (R321): Copies an engine's latest stop record for a slot. -/
  | stoprd (rd rs1 rs2 : Nat)
  /-- CTXSV (R318): Saves a resident task to its frame. -/
  | ctxsv (rd rs1 rs2 : Nat)
  /-- CTXRS (R318): Restores or dispatches a task into a named slot. -/
  | ctxrs (rd rs1 rs2 : Nat)
  /-- TLBINV (R322): Invalidates a page, or all pages of a PASID, in every TLB and walker. -/
  | tlbinv (rd rs1 rs2 : Nat)
  /-- HINV (R322): Discards cached handle descriptors. -/
  | hinv (rd rs1 rs2 : Nat)
  /-- STEPCTL (R337): Turns single-step of a task on or off, or releases stopped engines. -/
  | stepctl (rd rs1 rs2 : Nat)
  /-- WDSET (R323): Sets a slot's watchdog limit. -/
  | wdset (rd rs1 rs2 : Nat)
  /-- BUDSET (R323): Sets a task's remaining budget. -/
  | budset (rd rs1 rs2 : Nat)
  /-- CAPRD (R323): Reads a doubleword of the capability space. -/
  | caprd (rd rs1 : Nat)
  /-- CYCRD (R323): Reads the device cycle stamp. -/
  | cycrd (rd : Nat)
  /-- THYRD (R323): Copies one Thyme event. -/
  | thyrd (rd rs1 rs2 : Nat)
  /-- PCLCFG (R280): Reads and optionally writes one Percolator parameter. -/
  | pclcfg (rd rs1 rs2 : Nat)
  /-- BLOCK_FETCH (R87): The sequencer fetches a block at its cursor into the block queue. -/
  | blockFetch (e : EngRef)
  /-- ENCODING_FAULT (R20): A block that breaks an encoding rule reaches the head of its queue and faults without issuing. -/
  | encodingFault (e : EngRef)
  /-- BLOCK_COMPLETE (R89): A block's writes become visible at tile scope; its scoreboard slot clears and its signals are added. -/
  | blockComplete (e : EngRef) (idx : Nat)
  /-- FORK_JOIN (R148): A block's forked writes or atomics are performed at their homes and become visible at device scope. -/
  | forkJoin (idx : Nat)
  /-- SPAWN_ACCEPT (R107): The scheduler accepts or refuses a spawned record, joining the SPAWN's fork. -/
  | spawnAccept (idx : Nat)
  /-- SPAWN_REFUSAL_RAISE (R107): A held spawn refusal raises 0x2C3 at the next block of the chain to reach issue, or at task completion. -/
  | spawnRefusalRaise (e : EngRef)
  /-- GUARD_FAULT_RAISE (R170): A recorded guard fault is raised at the chain's next wait, rendezvous or END. -/
  | guardFaultRaise (e : EngRef)
  /-- RING_SLOT_TAKE (R172): A block consuming a ring waits for and takes one full count per iteration of its ring loop level. -/
  | ringSlotTake (e : EngRef)
  /-- RING_END_SKIP (R173): A block that needs a count of an ended ring is skipped and the end flag is set. -/
  | ringEndSkip (e : EngRef)
  /-- SUB_TILE_DELIVERY (R136): The Carafe takes an empty count, writes one tile into the next ring slot and signals full. -/
  | subTileDelivery (tile slot ring : Nat)
  /-- PUB_SLOT_DRAIN (R161): The Carafe takes a full count, writes one slot into a handle tile and signals empty. -/
  | pubSlotDrain (tile slot ring : Nat)
  /-- PAGE_WALK (R118): The die walker completes a translation walk for a TLB miss. -/
  | pageWalk (tile pasid va : Nat)
  /-- ACCESS_ENTRY_FREED (R121): An outstanding-access or TLB entry frees and a held access proceeds. -/
  | accessEntryFreed (tile : Nat)
  /-- PROMOTION (R279): The Percolator requests a move to HBM4 of a page whose hotness reaches PROMO. -/
  | promotion (pasid va : Nat)
  /-- DEMOTION (R279): The Percolator requests a move out of HBM4 of a cold page when free HBM4 is below LOWMARK. -/
  | demotion (pasid va : Nat)
  /-- MIGRATION_ACCEPT (R272): A migration request is accepted, a destination frame allocated and the page enters motion, or it is abandoned. -/
  | migrationAccept (idx : Nat)
  /-- CHUNK_COPY (R273): The Percolator copies one 2 KiB chunk at the source and sets its map bit. -/
  | chunkCopy (idx : Nat)
  /-- COMMIT (R275): With every chunk copied, the source hands over to the destination, the leaf entry is switched and a shootdown starts. -/
  | commit (idx : Nat)
  /-- MIGRATION_RELEASE (R275): Once every TLB acknowledges the shootdown, MOT clears and the source frame is freed. -/
  | migrationRelease (idx : Nat)
  /-- MIGRATION_ABORT (R276): A migration aborts for one of the reasons of R276 and copying stops. -/
  | migrationAbort (idx reason : Nat)
  /-- ABORT_COMPLETE (R272): Once forwarded writes are acknowledged or dropped, the aborted page returns to resident at its source. -/
  | abortComplete (idx : Nat)
  /-- CONTEXT_SAVE (R315): A slot's issued blocks complete or stop, streams are held and the frame is written. -/
  | contextSave (tile slot : Nat)
  /-- TASK_PARK (R332): On a PARK fault the task's engines stop, it is saved and becomes parked. -/
  | taskPark (tile slot : Nat)
  /-- TASK_COMPLETE (R105): When all chains have retired and all forks joined, the task's writes become visible and its slot, successors and launch are updated. -/
  | taskComplete (task : Nat)
  /-- BUDGET_EXHAUSTED (R308): A task's remaining budget reaches zero and it faults with 0x2C0 at its pre-emption points. -/
  | budgetExhausted (tile slot : Nat)
  /-- WATCHDOG (R310): A slot's watchdog counter reaches its limit and the job halts with 0x2C1. -/
  | watchdog (tile slot : Nat)
  /-- SLOT_AGED (R307): A slot's wait counter on an engine reaches 65,536 and the slot becomes aged. -/
  | slotAged (e : EngRef)
  /-- HALT_LINE (R330): A HALT cause raises its job's halt line and every task of the job becomes halted. -/
  | haltLine (pasid : Nat)
  /-- ENGINE_STOP (R330): An engine of a halted, cancelled or stopped task stops within its skid and writes a stop record. -/
  | engineStop (e : EngRef)
  /-- SLOT_RELEASE (R303): A cancelled resident task's slot is released once its forks are performed or dropped. -/
  | slotRelease (tile slot : Nat)
  /-- HELD_RECORD_WRITE (R329): As places free in a full fault buffer, held records are written with HELD set. -/
  | heldRecordWrite (die : Nat)
  /-- SCRUB (R339): Each scrub period a home reads every sector, correcting or poisoning it. -/
  | scrub (t : Tier) (sector : Nat) (correctable : Bool)
  /-- LINK_FAILURE (R356): A scale-up or CXL link fails after its retries, raising 0x303, or a peer becomes unreachable (0x106). -/
  | linkFailure (pasid task : Nat) (noPath : Bool) (va : Nat)
  /-- FATAL_ERROR (R341): An unowned uncorrectable error raises every halt line, writes the device dump, notifies the host and warm-resets. -/
  | fatalError (location kind : Nat)
  /-- LAUNCH_LINE (R347): A whole 64-byte launch line write updates TAIL, possibly supplying the packet inline, or is rejected or ignored. -/
  | launchLine (qid : Nat) (dws : List Nat)
  /-- LAUNCH_PAGE_OTHER_WRITE (R346): A write to another offset of a launch register page is ignored. -/
  | launchPageOtherWrite (qid off : Nat)
  /-- RING_SLOT_REREAD (R348): At least every 4,096 cycles the front end re-reads a ring slot that is not yet valid. -/
  | ringSlotReread (qid : Nat)
  /-- MAILBOX_MESSAGE (R355): A 64-byte message is taken from a management mailbox FIFO. -/
  | mailboxMessage (pair : Nat) (reply : Bool)
  /-- LAUNCH_PACKET (R350): Creates a launch from a task list and posts its records. -/
  | launchPacket (qid : Nat)
  /-- GRAPH_PACKET (R350): Creates a graph and processes its listed LAUNCH packets. -/
  | graphPacket (qid : Nat)
  /-- MODEL_PACKET (R351): Checks residency, relocates and launches a resident model slot. -/
  | modelPacket (qid : Nat)
  /-- SIGNAL_PACKET (R350): Performs a system-scope POST on an object. -/
  | signalPacket (qid : Nat)
  /-- WAIT_PACKET (R350): Starts a system-scope watch on an object, holding later packets of the queue. -/
  | waitPacket (qid : Nat)
  /-- WAIT_PACKET_COMPLETE (R350): The watched object reaches the threshold and the WAIT packet completes. -/
  | waitPacketComplete (qid : Nat)
  /-- PEER_WINDOW_ACCESS (R356): An access from another module of the scale-up domain arrives on a scale-up port and is ordered at this module's home, single-copy atomically, with atomics in one serialised step. -/
  | peerWindowAccess (t : Tier) (addr op width value : Nat)
  /-- PARTIAL_LAUNCH_LINE (R346): A write to offset 0 of a launch register page that does not bring all 64 bytes from one agent is discarded and counted in REJ. -/
  | partialLaunchLine (qid : Nat)
  /-- ILLEGAL_INSTRUCTION (R50): A custom-0 word with funct3 7, an unlisted funct7, a nonzero unused register field, or any X-form in user mode raises the RV64 illegal-instruction exception on the supervisor core. -/
  | illegalInstruction (w : Nat)
  /-- HOTNESS_SAMPLE (R278): Every 2^SAMPLE-th eligible access at a home adds 1 to its page's hotness counter. -/
  | hotnessSample 
  /-- HOTNESS_DECAY (R278): At the end of each decay period every hotness counter is halved. -/
  | hotnessDecay 
  /-- TASK_DISPATCH (R306): The scheduler dispatches a ready task into a free slot and prepares the slot. -/
  | taskDispatch 
  /-- TASK_RESTORE (R315): A saved task is restored into a slot from its frame. -/
  | taskRestore 
  /-- TEMPERATURE_TRIP (R359): A temperature trip is a fatal error after which the module powers down. -/
  | temperatureTrip 
  /-- POWER_MEASUREMENT (R359): Every millisecond core 5 measures the rails and sets the matrix throttle level. -/
  | powerMeasurement 
  /-- COLD_RESET (R357): Power on the main rails resets the module, verifies firmware and runs bring-up until READY is set. -/
  | coldReset 
  /-- WARM_RESET (R356): A function-level reset, or a reset after a fatal error, warm-resets the module keeping the Thyme buffer. -/
  | warmReset 
  /-- RECOVERY_IMAGE (R357): A firmware image written to the BAR2 recovery window is verified and run. -/
  | recoveryImage 
  /-- PASNEW (R354): Creates and validates a PASID context entry. -/
  | pasnew 
  /-- PASDEL (R340): Tears down a PASID in the steps of R340. -/
  | pasdel 
  /-- QNEW (R354): Creates a queue from a QSB image and splices it into its run list. -/
  | qnew 
  /-- QDEL (R354): Kills a queue and removes it from its run list. -/
  | qdel 
  /-- HSET (R354): Rewrites a PASID's handle table base and length. -/
  | hset 
  /-- GRANT (R111): Changes pool granule owners, zeroing granules that change PASID. -/
  | grant 
  /-- MLOAD (R354): Loads a model object into a resident model slot. -/
  | mload 
  /-- MUNLD (R354): Unloads a resident model slot once its invocation is done. -/
  | munld 
  /-- DUMPREG (R354): Registers the device dump buffer. -/
  | dumpreg 
  /-- FWUPD (R357): Stores a verified firmware image for the next warm reset. -/
  | fwupd 
  /-- ATTEST (R358): Writes a signed attestation report to the host. -/
  | attest 
  /-- WRESET (R354): Cancels every live task and then warm-resets the module. -/
  | wreset 
  deriving DecidableEq, Repr, Inhabited

end Sys2Proof
end

