-- ==== Sys2Proof/Config.lean ====
section
/-! DEFINITION. What one module fixes: the figures of R11, R13 and R14, and the values the spec leaves open,
which are constants without a body (logs 1 and 2). -/

namespace Sys2Proof

/-- What acts next: a chain sequencer, a cluster supervisor, or an event of the part. -/
inductive Turn where
  | engine (e : EngRef)
  | supervisor (cluster : Nat)
  | event (i : Instr)
  deriving DecidableEq, Repr, Inhabited

/-- A check that fails in a read of this turn (R114, R195, R236, R237, R338). Words of the tile pool are numbered over its
1 MiB, those of a weight buffer over the slot's share, those of a cluster or die pool over all pools of the kind; a sector is
of the memory of a tier. lasting: the second read fails too. -/
inductive Failure where
  | tileWord (word : Nat) (lasting : Bool)
  | parityBank (group : Nat)
  | weight (word : Nat) (lasting : Bool)
  | cell (k : Nat)
  | run (reg i : Nat)
  | runCopy (reg i : Nat)
  | header (reg : Nat)
  | headerCopy (reg : Nat)
  | shared (place : Place) (word : Nat) (lasting : Bool)
  | sector (tier : Tier) (sector : Nat) (lasting : Bool)
  deriving DecidableEq, Repr, Inhabited

/-- What the spec leaves to chance in one turn: the checks that fail in its reads, whether a block that issues leaves its
first iteration, or one that completes a part of its home work, to a later turn, and how many issued blocks that could run on
the turn passes over (R91; log 1, log 33). -/
structure Env where
  fails : List Failure := []
  idle  : Bool := false
  pass  : Nat := 0
  deriving DecidableEq, Repr, Inhabited

/-- One entry of the agenda: dt tile cycles pass, then the turn is taken (log 1). -/
structure Pending where
  dt   : Nat := 0
  env  : Env := {}
  turn : Turn
  deriving DecidableEq, Repr, Inhabited

/-- DESIGN CHOICE (log 1): which agent acts, and after how many cycles, when the agenda says nothing. The
spec leaves interleaving and latency open (R4, R91, R189). -/
opaque Config.interleave : Nat → Pending

/-- DESIGN CHOICE (log 2): the values the spec leaves open, by the step that meets them and a key within it. -/
opaque Config.freeWord : Nat → Nat → Word64

/-- DESIGN CHOICE (log 2): VER of the entry of the capability list with an ID (R355). -/
opaque Config.capVersion : Nat → Byte

/-- DESIGN CHOICE (log 27): does the page of a CXL address lie behind a port of X1 (R8, R10)? HDM decoders are programmed
by management core 2, which the spec does not describe. -/
opaque Config.cxlOnX1 : Nat → Bool

/-- DESIGN CHOICE (log 27): does the route to a page of a peer window leave through a port of X1 (R10)? -/
opaque Config.peerOnX1 : Nat → Bool

def numTiles : Nat := 512
def numClusters : Nat := 32
def numDies : Nat := 4
def slotsPerTile : Nat := 4
def clusterOf (tile : Nat) : Nat := tile / 16
def dieOf (tile : Nat) : Nat := tile / 128
/-- Key of a context slot in the tables of State. -/
def slotKey (tile slot : Nat) : Nat := tile * 4 + slot

def tpBytes : Nat := 2 ^ 18
def wbBytes : Nat := 2 ^ 16
def cpBytes : Nat := 2 ^ 24
def dpBytes : Nat := 2 ^ 26
def granuleBytes : Nat := 2 ^ 16
def vaLimit : Nat := 2 ^ 57

/-- TLB entries of a tile, a cluster and a Carafe (R14). -/
def tileTlbSize : Nat := 128
def clusterTlbSize : Nat := 4096
def carafeTlbSize : Nat := 1024
/-- Outstanding sector accesses of a tile (R12). -/
def tileAccesses : Nat := 2048
/-- Outstanding sector accesses of a Carafe (R14). -/
def carafeAccesses : Nat := 32768
/-- Blocks a sequencer holds fetched and not issued (R11, R87). -/
def prefetchDepth : Nat := 8
/-- Aging threshold of R307 and default watchdog limit of R310. -/
def ageLimit : Nat := 65536
def watchdogDefault : Nat := 2 ^ 32
/-- Depth of a die's migration queue (R272). -/
def percQueueDepth : Nat := 4096

end Sys2Proof
end

