-- ==== Sys2Proof/Machine/Opcodes.lean ====
section
/-! DEFINITION. The opcode map of R38 to R50: which class, major opcode and variant, or which group and
operation, names each form, and the layout of the operand words of the S-forms. -/

namespace Sys2Proof

/-- The L-form constructor of a class and major opcode (R40, R41, R43 to R46). -/
def lCtor (cls op : Nat) : Option (LBlk → Instr) :=
  match cls, op with
  | 1, 0x00 => some .ldt
  | 1, 0x01 => some .ldg
  | 1, 0x02 => some .ldgr
  | 1, 0x03 => some .ldx
  | 1, 0x04 => some .ldxl
  | 1, 0x05 => some .ldw
  | 1, 0x06 => some .ldq
  | 1, 0x07 => some .ldwb
  | 1, 0x08 => some .sub
  | 1, 0x09 => some .subc
  | 1, 0x0A => some .ldf
  | 2, 0x00 => some .stt
  | 2, 0x01 => some .stg
  | 2, 0x02 => some .stgr
  | 2, 0x03 => some .stx
  | 2, 0x04 => some .stxl
  | 2, 0x05 => some .strd
  | 2, 0x06 => some .atadd
  | 2, 0x07 => some .atsmin
  | 2, 0x08 => some .atsmax
  | 2, 0x09 => some .atumin
  | 2, 0x0A => some .atumax
  | 2, 0x0B => some .atand
  | 2, 0x0C => some .ator
  | 2, 0x0D => some .atxor
  | 2, 0x0E => some .atxch
  | 2, 0x0F => some .atcas
  | 2, 0x10 => some .atfadd
  | 2, 0x12 => some .pub
  | 2, 0x13 => some .pubc
  | 4, 0x00 => some .vadd
  | 4, 0x01 => some .vsub
  | 4, 0x02 => some .vmul
  | 4, 0x03 => some .vfma
  | 4, 0x04 => some .vfms
  | 4, 0x05 => some .vfnma
  | 4, 0x06 => some .vdiv
  | 4, 0x07 => some .vsqrt
  | 4, 0x08 => some .vrsq
  | 4, 0x09 => some .vrcp
  | 4, 0x0A => some .vmin
  | 4, 0x0B => some .vmax
  | 4, 0x0C => some .vabs
  | 4, 0x0D => some .vneg
  | 4, 0x0E => some .vcpys
  | 4, 0x0F => some .vrndi
  | 4, 0x10 => some .vfexp2
  | 4, 0x11 => some .vlog2f
  | 4, 0x12 => some .vexpins
  | 4, 0x13 => some .vexpx
  | 4, 0x14 => some .vmant
  | 4, 0x15 => some .vmov
  | 4, 0x16 => some .vbcst
  | 4, 0x17 => some .viota
  | 4, 0x18 => some .vrun
  | 4, 0x19 => some .vlen
  | 4, 0x20 => some .viadd
  | 4, 0x21 => some .visub
  | 4, 0x22 => some .vimul
  | 4, 0x23 => some .vimulh
  | 4, 0x24 => some .vimulhu
  | 4, 0x25 => some .vimad
  | 4, 0x26 => some .vimin
  | 4, 0x27 => some .vimax
  | 4, 0x28 => some .vumin
  | 4, 0x29 => some .vumax
  | 4, 0x2A => some .vand
  | 4, 0x2B => some .vor
  | 4, 0x2C => some .vxor
  | 4, 0x2D => some .vnot
  | 4, 0x2E => some .vshl
  | 4, 0x2F => some .vshr
  | 4, 0x30 => some .vsra
  | 4, 0x31 => some .vclz
  | 4, 0x32 => some .vpop
  | 4, 0x38 => some .vld
  | 4, 0x39 => some .vldr
  | 4, 0x3A => some .vst
  | 4, 0x3B => some .vstr
  | 5, 0x00 => some .vcmp
  | 5, 0x01 => some .vicmp
  | 5, 0x02 => some .vsel
  | 5, 0x03 => some .vmand
  | 5, 0x04 => some .vmor
  | 5, 0x05 => some .vmxor
  | 5, 0x06 => some .vmnot
  | 5, 0x07 => some .vmcnt
  | 5, 0x08 => some .vmfst
  | 5, 0x10 => some .vrsum
  | 5, 0x11 => some .vrisum
  | 5, 0x12 => some .vrmax
  | 5, 0x13 => some .vrmin
  | 5, 0x14 => some .vrarg
  | 5, 0x15 => some .vrcnt
  | 5, 0x16 => some .vscan
  | 5, 0x17 => some .vcomp
  | 5, 0x18 => some .vexpd
  | 5, 0x19 => some .vrco
  | 5, 0x1A => some .vrcot
  | 5, 0x1B => some .vgath
  | 5, 0x1C => some .vtopk
  | 5, 0x1D => some .vhist
  | 5, 0x1E => some .vdot
  | 6, 0x00 => some .fcvt
  | 6, 0x01 => some .fcvti
  | 6, 0x02 => some .icvtf
  | 6, 0x03 => some .icvt
  | 6, 0x04 => some .lgenc
  | 6, 0x05 => some .lgdec
  | 6, 0x06 => some .qnt
  | 6, 0x07 => some .dqnt
  | 6, 0x08 => some .pk4
  | 6, 0x09 => some .upk4
  | 6, 0x0A => some .fclass
  | 7, 0x00 => some .mma
  | 7, 0x01 => some .mmas
  | 7, 0x02 => some .mmd
  | 7, 0x03 => some .mmc
  | 7, 0x04 => some .acz
  | 7, 0x05 => some .acr
  | 7, 0x06 => some .acw
  | 7, 0x07 => some .drn
  | 7, 0x08 => some .acmv
  | 8, 0x00 => some .winl
  | 8, 0x01 => some .wpool
  | 8, 0x02 => some .vbfly
  | 8, 0x03 => some .vtwd
  | 8, 0x04 => some .vcmul
  | _, _ => none

/-- Class, major opcode and fields of an L-form block. -/
def lParts : Instr → Option (Nat × Nat × LBlk)
  | .ldt b => some (1, 0x00, b)
  | .ldg b => some (1, 0x01, b)
  | .ldgr b => some (1, 0x02, b)
  | .ldx b => some (1, 0x03, b)
  | .ldxl b => some (1, 0x04, b)
  | .ldw b => some (1, 0x05, b)
  | .ldq b => some (1, 0x06, b)
  | .ldwb b => some (1, 0x07, b)
  | .sub b => some (1, 0x08, b)
  | .subc b => some (1, 0x09, b)
  | .ldf b => some (1, 0x0A, b)
  | .stt b => some (2, 0x00, b)
  | .stg b => some (2, 0x01, b)
  | .stgr b => some (2, 0x02, b)
  | .stx b => some (2, 0x03, b)
  | .stxl b => some (2, 0x04, b)
  | .strd b => some (2, 0x05, b)
  | .atadd b => some (2, 0x06, b)
  | .atsmin b => some (2, 0x07, b)
  | .atsmax b => some (2, 0x08, b)
  | .atumin b => some (2, 0x09, b)
  | .atumax b => some (2, 0x0A, b)
  | .atand b => some (2, 0x0B, b)
  | .ator b => some (2, 0x0C, b)
  | .atxor b => some (2, 0x0D, b)
  | .atxch b => some (2, 0x0E, b)
  | .atcas b => some (2, 0x0F, b)
  | .atfadd b => some (2, 0x10, b)
  | .pub b => some (2, 0x12, b)
  | .pubc b => some (2, 0x13, b)
  | .vadd b => some (4, 0x00, b)
  | .vsub b => some (4, 0x01, b)
  | .vmul b => some (4, 0x02, b)
  | .vfma b => some (4, 0x03, b)
  | .vfms b => some (4, 0x04, b)
  | .vfnma b => some (4, 0x05, b)
  | .vdiv b => some (4, 0x06, b)
  | .vsqrt b => some (4, 0x07, b)
  | .vrsq b => some (4, 0x08, b)
  | .vrcp b => some (4, 0x09, b)
  | .vmin b => some (4, 0x0A, b)
  | .vmax b => some (4, 0x0B, b)
  | .vabs b => some (4, 0x0C, b)
  | .vneg b => some (4, 0x0D, b)
  | .vcpys b => some (4, 0x0E, b)
  | .vrndi b => some (4, 0x0F, b)
  | .vfexp2 b => some (4, 0x10, b)
  | .vlog2f b => some (4, 0x11, b)
  | .vexpins b => some (4, 0x12, b)
  | .vexpx b => some (4, 0x13, b)
  | .vmant b => some (4, 0x14, b)
  | .vmov b => some (4, 0x15, b)
  | .vbcst b => some (4, 0x16, b)
  | .viota b => some (4, 0x17, b)
  | .vrun b => some (4, 0x18, b)
  | .vlen b => some (4, 0x19, b)
  | .viadd b => some (4, 0x20, b)
  | .visub b => some (4, 0x21, b)
  | .vimul b => some (4, 0x22, b)
  | .vimulh b => some (4, 0x23, b)
  | .vimulhu b => some (4, 0x24, b)
  | .vimad b => some (4, 0x25, b)
  | .vimin b => some (4, 0x26, b)
  | .vimax b => some (4, 0x27, b)
  | .vumin b => some (4, 0x28, b)
  | .vumax b => some (4, 0x29, b)
  | .vand b => some (4, 0x2A, b)
  | .vor b => some (4, 0x2B, b)
  | .vxor b => some (4, 0x2C, b)
  | .vnot b => some (4, 0x2D, b)
  | .vshl b => some (4, 0x2E, b)
  | .vshr b => some (4, 0x2F, b)
  | .vsra b => some (4, 0x30, b)
  | .vclz b => some (4, 0x31, b)
  | .vpop b => some (4, 0x32, b)
  | .vld b => some (4, 0x38, b)
  | .vldr b => some (4, 0x39, b)
  | .vst b => some (4, 0x3A, b)
  | .vstr b => some (4, 0x3B, b)
  | .vcmp b => some (5, 0x00, b)
  | .vicmp b => some (5, 0x01, b)
  | .vsel b => some (5, 0x02, b)
  | .vmand b => some (5, 0x03, b)
  | .vmor b => some (5, 0x04, b)
  | .vmxor b => some (5, 0x05, b)
  | .vmnot b => some (5, 0x06, b)
  | .vmcnt b => some (5, 0x07, b)
  | .vmfst b => some (5, 0x08, b)
  | .vrsum b => some (5, 0x10, b)
  | .vrisum b => some (5, 0x11, b)
  | .vrmax b => some (5, 0x12, b)
  | .vrmin b => some (5, 0x13, b)
  | .vrarg b => some (5, 0x14, b)
  | .vrcnt b => some (5, 0x15, b)
  | .vscan b => some (5, 0x16, b)
  | .vcomp b => some (5, 0x17, b)
  | .vexpd b => some (5, 0x18, b)
  | .vrco b => some (5, 0x19, b)
  | .vrcot b => some (5, 0x1A, b)
  | .vgath b => some (5, 0x1B, b)
  | .vtopk b => some (5, 0x1C, b)
  | .vhist b => some (5, 0x1D, b)
  | .vdot b => some (5, 0x1E, b)
  | .fcvt b => some (6, 0x00, b)
  | .fcvti b => some (6, 0x01, b)
  | .icvtf b => some (6, 0x02, b)
  | .icvt b => some (6, 0x03, b)
  | .lgenc b => some (6, 0x04, b)
  | .lgdec b => some (6, 0x05, b)
  | .qnt b => some (6, 0x06, b)
  | .dqnt b => some (6, 0x07, b)
  | .pk4 b => some (6, 0x08, b)
  | .upk4 b => some (6, 0x09, b)
  | .fclass b => some (6, 0x0A, b)
  | .mma b => some (7, 0x00, b)
  | .mmas b => some (7, 0x01, b)
  | .mmd b => some (7, 0x02, b)
  | .mmc b => some (7, 0x03, b)
  | .acz b => some (7, 0x04, b)
  | .acr b => some (7, 0x05, b)
  | .acw b => some (7, 0x06, b)
  | .drn b => some (7, 0x07, b)
  | .acmv b => some (7, 0x08, b)
  | .winl b => some (8, 0x00, b)
  | .wpool b => some (8, 0x01, b)
  | .vbfly b => some (8, 0x02, b)
  | .vtwd b => some (8, 0x03, b)
  | .vcmul b => some (8, 0x04, b)
  | _ => none

/-- The S-form block of a class, opcode and variant with operand words p (DW2) and q (DW3)
(R97, R141, R159, R175, R281). Reserved bits are found by encoding the result again. -/
def sCtor (cls op opx : Nat) (c : Ctl) (p q : Nat) : Option Instr :=
  match cls, op with
  | 0, 0x00 => some (.nop c)
  | 0, 0x01 => some (.endChain c)
  | 0, 0x02 => some (.link c (bits p 0 57))
  | 0, 0x03 => some (.brc c (bits p 48 4) (bits p 0 48) (bits q 32 32) (bits q 0 18))
  | 0, 0x04 => some (.brcd c (bits p 0 48) (bits q 0 18))
  | 0, 0x05 => some (.patch c (bits p 48 4) (bits p 0 48) (bits q 0 18))
  | 0, 0x06 => some (.patchi c (bits p 48 4) (bits p 0 48) (bits q 0 32))
  | 0, 0x07 => some (.patchv c (bits p 48 4) (bits p 0 48) (bits q 8 16) (bits q 0 5))
  | 0, 0x08 => some (.yieldSlot c)
  | 0, 0x09 => some (.spawn c (bits p 45 3) (bits p 0 45) (bits q 0 1))
  | 0, 0x0A => some (.svc c (bits p 0 16) (bits q 0 64))
  | 0, 0x0B => some (.trap c (bits p 0 6) (bits q 0 64))
  | 0, 0x0C => some (.brkp c (bits p 0 16))
  | 0, 0x0D => some (.flti c (bits p 0 10) (bits q 0 64))
  | 1, 0x0B => some (.ldacq c (bits p 52 1) (bits p 51 1) (bits p 48 3) (bits p 45 3) (bits p 0 45) (bits q 32 32) (bits q 0 18))
  | 2, 0x11 => some (.strel c (bits p 52 1) (bits p 51 1) (bits p 48 3) (bits p 45 3) (bits p 0 45) (bits q 32 32) (bits q 0 18))
  | 3, 0x00 => some (.semi c (bits p 0 10) (bits q 0 16))
  | 3, 0x01 => some (.semw c (bits p 63 1) (bits p 0 10) (bits q 0 16))
  | 3, 0x02 => some (.sems c (bits p 27 1) (bits p 25 2) (bits p 16 9) (bits p 0 10) (bits q 0 16))
  | 3, 0x03 => some (.regd c (bits p 59 1) (bits p 58 1) (bits p 48 10) (bits p 43 1) (bits p 42 1) (bits p 32 10) (bits p 12 4) (bits p 8 4) (bits p 0 6) (bits q 32 18) (bits q 0 18))
  | 3, 0x04 => some (.ringd c (bits p 48 8) (bits p 32 10) (bits p 16 10) (bits p 8 6) (bits p 0 4) (bits q 32 12) (bits q 0 16))
  | 3, 0x05 => some (.eos c (bits p 0 4))
  | 3, 0x06 => some (.bari c (bits p 0 6) (bits q 0 16))
  | 3, 0x07 => some (.bara c (bits p 0 6) (bits q 31 1) (bits q 0 18))
  | 3, 0x08 => some (.barw c (bits p 0 6) (bits q 0 18))
  | 3, 0x09 => some (.fence c opx)
  | 3, 0x0A => some (.post c opx (bits p 48 3) (bits p 45 3) (bits p 0 45) (bits q 0 64))
  | 3, 0x0B => some (.join c (bits p 48 3) (bits p 45 3) (bits p 0 45) (bits q 0 64))
  | 3, 0x0C => some (.semq c (bits p 0 10) (bits q 0 18))
  | 9, 0x00 => some (.migr c (bits p 48 3) (bits p 45 3) (bits p 0 45) (bits q 0 16))
  | 9, 0x01 => some (.migrs c (bits p 48 3) (bits p 45 3) (bits p 0 45) (bits q 0 16))
  | 9, 0x02 => some (.mpin c (bits p 45 3) (bits p 0 45) (bits q 0 16))
  | 9, 0x03 => some (.munpin c (bits p 45 3) (bits p 0 45) (bits q 0 16))
  | 9, 0x04 => some (.madv c opx (bits p 45 3) (bits p 0 45) (bits q 0 16))
  | 9, 0x05 => some (.mhot c (bits p 51 1) (bits p 45 3) (bits p 0 45) (bits q 32 12) (bits q 0 18))
  | 9, 0x06 => some (.mqry c (bits p 45 3) (bits p 0 45) (bits q 32 12) (bits q 0 18))
  | 9, 0x07 => some (.mabrt c (bits p 45 3) (bits p 0 45) (bits q 0 16))
  | _, _ => none

/-- Class, major opcode, variant, issue control and operand words of an S-form block. -/
def sParts : Instr → Option (Nat × Nat × Nat × Ctl × Nat × Nat)
  | .nop c => some (0, 0x00, 0, c, 0, 0)
  | .endChain c => some (0, 0x01, 0, c, 0, 0)
  | .link c tgt => some (0, 0x02, 0, c, wordOf [(57, tgt)], 0)
  | .brc c cond tgt imm off => some (0, 0x03, 0, c, wordOf [(48, tgt), (4, cond)], wordOf [(18, off), (14, 0), (32, imm)])
  | .brcd c tgt off => some (0, 0x04, 0, c, wordOf [(48, tgt)], wordOf [(18, off)])
  | .patch c len tgt off => some (0, 0x05, 0, c, wordOf [(48, tgt), (4, len)], wordOf [(18, off)])
  | .patchi c len tgt imm => some (0, 0x06, 0, c, wordOf [(48, tgt), (4, len)], wordOf [(32, imm)])
  | .patchv c len tgt elem vreg => some (0, 0x07, 0, c, wordOf [(48, tgt), (4, len)], wordOf [(5, vreg), (3, 0), (16, elem)])
  | .yieldSlot c => some (0, 0x08, 0, c, 0, 0)
  | .spawn c rb roff inh => some (0, 0x09, 0, c, wordOf [(45, roff), (3, rb)], wordOf [(1, inh)])
  | .svc c svcno arg => some (0, 0x0A, 0, c, wordOf [(16, svcno)], wordOf [(64, arg)])
  | .trap c tno arg => some (0, 0x0B, 0, c, wordOf [(6, tno)], wordOf [(64, arg)])
  | .brkp c tag => some (0, 0x0C, 0, c, wordOf [(16, tag)], 0)
  | .flti c cause val => some (0, 0x0D, 0, c, wordOf [(10, cause)], wordOf [(64, val)])
  | .ldacq c wt w64 scope rb roff imm off => some (1, 0x0B, 0, c, wordOf [(45, roff), (3, rb), (3, scope), (1, w64), (1, wt)], wordOf [(18, off), (14, 0), (32, imm)])
  | .strel c si w64 scope rb roff imm off => some (2, 0x11, 0, c, wordOf [(45, roff), (3, rb), (3, scope), (1, w64), (1, si)], wordOf [(18, off), (14, 0), (32, imm)])
  | .semi c sem val => some (3, 0x00, 0, c, wordOf [(10, sem)], wordOf [(16, val)])
  | .semw c dec sem cnt => some (3, 0x01, 0, c, wordOf [(10, sem), (53, 0), (1, dec)], wordOf [(16, cnt)])
  | .sems c rmt slot tile sem cnt => some (3, 0x02, 0, c, wordOf [(10, sem), (6, 0), (9, tile), (2, slot), (1, rmt)], wordOf [(16, cnt)])
  | .regd c b2v b2w b2sem b1v b1w b1sem mode space reg len off => some (3, 0x03, 0, c, wordOf [(6, reg), (2, 0), (4, space), (4, mode), (16, 0), (10, b1sem), (1, b1w), (1, b1v), (4, 0), (10, b2sem), (1, b2w), (1, b2v)], wordOf [(18, off), (14, 0), (18, len)])
  | .ringd c prod esem fsem reg ring slot64 nslot => some (3, 0x04, 0, c, wordOf [(4, ring), (4, 0), (6, reg), (2, 0), (10, fsem), (6, 0), (10, esem), (6, 0), (8, prod)], wordOf [(16, nslot), (16, 0), (12, slot64)])
  | .eos c ring => some (3, 0x05, 0, c, wordOf [(4, ring)], 0)
  | .bari c pt exp => some (3, 0x06, 0, c, wordOf [(6, pt)], wordOf [(16, exp)])
  | .bara c pt pw off => some (3, 0x07, 0, c, wordOf [(6, pt)], wordOf [(18, off), (13, 0), (1, pw)])
  | .barw c pt off => some (3, 0x08, 0, c, wordOf [(6, pt)], wordOf [(18, off)])
  | .fence c scope => some (3, 0x09, scope, c, 0, 0)
  | .post c op scope rb roff val => some (3, 0x0A, op, c, wordOf [(45, roff), (3, rb), (3, scope)], wordOf [(64, val)])
  | .join c scope rb roff thr => some (3, 0x0B, 0, c, wordOf [(45, roff), (3, rb), (3, scope)], wordOf [(64, thr)])
  | .semq c sem off => some (3, 0x0C, 0, c, wordOf [(10, sem)], wordOf [(18, off)])
  | .migr c dtier rb roff npg => some (9, 0x00, 0, c, wordOf [(45, roff), (3, rb), (3, dtier)], wordOf [(16, npg)])
  | .migrs c dtier rb roff npg => some (9, 0x01, 0, c, wordOf [(45, roff), (3, rb), (3, dtier)], wordOf [(16, npg)])
  | .mpin c rb roff npg => some (9, 0x02, 0, c, wordOf [(45, roff), (3, rb)], wordOf [(16, npg)])
  | .munpin c rb roff npg => some (9, 0x03, 0, c, wordOf [(45, roff), (3, rb)], wordOf [(16, npg)])
  | .madv c adv rb roff npg => some (9, 0x04, adv, c, wordOf [(45, roff), (3, rb)], wordOf [(16, npg)])
  | .mhot c clr rb roff npg off => some (9, 0x05, 0, c, wordOf [(45, roff), (3, rb), (3, 0), (1, clr)], wordOf [(18, off), (14, 0), (12, npg)])
  | .mqry c rb roff npg off => some (9, 0x06, 0, c, wordOf [(45, roff), (3, rb)], wordOf [(18, off), (14, 0), (12, npg)])
  | .mabrt c rb roff npg => some (9, 0x07, 0, c, wordOf [(45, roff), (3, rb)], wordOf [(16, npg)])
  | _ => none

/-- The X-form of a group and operation (R50). -/
def xCtor (f3 f7 rd rs1 rs2 : Nat) : Option Instr :=
  match f3, f7 with
  | 0, 0 => some (.tkpost rd rs1 rs2)
  | 0, 1 => some (.tkcncl rd rs1 rs2)
  | 0, 2 => some (.tkstat rd rs1 rs2)
  | 0, 3 => some (.tkrsm rd rs1 rs2)
  | 0, 4 => some (.tkpark rd rs1 rs2)
  | 1, 0 => some (.lnnew rd rs1)
  | 1, 1 => some (.lncnt rd rs1)
  | 1, 2 => some (.lncncl rd rs1)
  | 1, 3 => some (.grcnt rd rs1)
  | 1, 4 => some (.grcncl rd rs1)
  | 1, 5 => some (.jbcnt rd rs1)
  | 1, 6 => some (.jbcncl rd rs1)
  | 2, 0 => some (.semrd rd rs1)
  | 2, 1 => some (.semwr rd rs1 rs2)
  | 2, 2 => some (.semsig rd rs1 rs2)
  | 2, 3 => some (.barini rd rs1 rs2)
  | 2, 4 => some (.bararv rd rs1)
  | 2, 5 => some (.barwt rd rs1 rs2)
  | 3, 0 => some (.fqpop rd rs1)
  | 3, 1 => some (.fbrd rd rs1)
  | 3, 2 => some (.stoprd rd rs1 rs2)
  | 4, 0 => some (.ctxsv rd rs1 rs2)
  | 4, 1 => some (.ctxrs rd rs1 rs2)
  | 4, 2 => some (.tlbinv rd rs1 rs2)
  | 4, 3 => some (.hinv rd rs1 rs2)
  | 5, 0 => some (.stepctl rd rs1 rs2)
  | 5, 1 => some (.wdset rd rs1 rs2)
  | 5, 2 => some (.budset rd rs1 rs2)
  | 6, 0 => some (.caprd rd rs1)
  | 6, 1 => some (.cycrd rd)
  | 6, 2 => some (.thyrd rd rs1 rs2)
  | 6, 3 => some (.pclcfg rd rs1 rs2)
  | _, _ => none

/-- Group, operation, rd, rs1 and rs2 of an X-form (R49); a register the form does not use is x0. -/
def xParts : Instr → Option (Nat × Nat × Nat × Nat × Nat)
  | .tkpost rd rs1 rs2 => some (0, 0, rd, rs1, rs2)
  | .tkcncl rd rs1 rs2 => some (0, 1, rd, rs1, rs2)
  | .tkstat rd rs1 rs2 => some (0, 2, rd, rs1, rs2)
  | .tkrsm rd rs1 rs2 => some (0, 3, rd, rs1, rs2)
  | .tkpark rd rs1 rs2 => some (0, 4, rd, rs1, rs2)
  | .lnnew rd rs1 => some (1, 0, rd, rs1, 0)
  | .lncnt rd rs1 => some (1, 1, rd, rs1, 0)
  | .lncncl rd rs1 => some (1, 2, rd, rs1, 0)
  | .grcnt rd rs1 => some (1, 3, rd, rs1, 0)
  | .grcncl rd rs1 => some (1, 4, rd, rs1, 0)
  | .jbcnt rd rs1 => some (1, 5, rd, rs1, 0)
  | .jbcncl rd rs1 => some (1, 6, rd, rs1, 0)
  | .semrd rd rs1 => some (2, 0, rd, rs1, 0)
  | .semwr rd rs1 rs2 => some (2, 1, rd, rs1, rs2)
  | .semsig rd rs1 rs2 => some (2, 2, rd, rs1, rs2)
  | .barini rd rs1 rs2 => some (2, 3, rd, rs1, rs2)
  | .bararv rd rs1 => some (2, 4, rd, rs1, 0)
  | .barwt rd rs1 rs2 => some (2, 5, rd, rs1, rs2)
  | .fqpop rd rs1 => some (3, 0, rd, rs1, 0)
  | .fbrd rd rs1 => some (3, 1, rd, rs1, 0)
  | .stoprd rd rs1 rs2 => some (3, 2, rd, rs1, rs2)
  | .ctxsv rd rs1 rs2 => some (4, 0, rd, rs1, rs2)
  | .ctxrs rd rs1 rs2 => some (4, 1, rd, rs1, rs2)
  | .tlbinv rd rs1 rs2 => some (4, 2, rd, rs1, rs2)
  | .hinv rd rs1 rs2 => some (4, 3, rd, rs1, rs2)
  | .stepctl rd rs1 rs2 => some (5, 0, rd, rs1, rs2)
  | .wdset rd rs1 rs2 => some (5, 1, rd, rs1, rs2)
  | .budset rd rs1 rs2 => some (5, 2, rd, rs1, rs2)
  | .caprd rd rs1 => some (6, 0, rd, rs1, 0)
  | .cycrd rd => some (6, 1, rd, 0, 0)
  | .thyrd rd rs1 rs2 => some (6, 2, rd, rs1, rs2)
  | .pclcfg rd rs1 rs2 => some (6, 3, rd, rs1, rs2)
  | _ => none


end Sys2Proof
end

