-- ==== Sys2Proof/Machine/Forms.lean ====
section
/-! DEFINITION. What the tables of the manual admit for each control-block form, and the checks a sequencer
makes at fetch (R21): R77, R97, R127, R141, R144 to R146, R159, R175, R203, R221, R238, R253, R281. -/

namespace Sys2Proof

/-! ### Space codes (R31) -/
abbrev spNone : Nat := 0
abbrev spTp : Nat := 1
abbrev spCp : Nat := 2
abbrev spDp : Nat := 3
abbrev spGm : Nat := 4
abbrev spTh : Nat := 5
abbrev spV : Nat := 6
abbrev spAc : Nat := 7
abbrev spWb : Nat := 8
abbrev spRq : Nat := 9
abbrev spRm : Nat := 10
abbrev spIm : Nat := 11
abbrev spIx : Nat := 12

/-- How a form uses MSK, ZM and MREG (R25, R221). -/
inductive MaskRule where
  | no | plain | filter | selector | selectorZm
  deriving DecidableEq, Repr

/-- One row of a class's table: OPX values 0 to opxs-1, engine, spaces of each operand (an empty list: the
descriptor is all zero; a code 0 in a list: the operand may be absent), formats and header bits. -/
structure LForm where
  opxs  : Nat := 1
  eng   : Engine
  d     : List Nat
  a     : List Nat := []
  b     : List Nat := []
  fmts  : List Nat
  dfmts : Nat → List Nat := fun _ => [0]
  rm    : Nat → Nat → Bool := fun _ _ => false
  sat   : Nat → Nat → Bool := fun _ _ => false
  mask  : MaskRule := .no
  mod   : Bool := false

def fmtsAll : List Nat := [0, 1, 2, 3, 4, 5, 6, 7, 8, 9, 10]
def fmtsFloat : List Nat := [1, 2, 3]
def fmtsInt : List Nat := [4, 5, 6, 7, 8]
def fmtsNum : List Nat := [1, 2, 3, 4, 5, 6, 7, 8]
def spPools : List Nat := [spTp, spCp, spDp]
/-- The operands of VADD (R203). -/
def spVec : List Nat := [spV, spTp, spWb, spIm, spRq]
def spAtom : List Nat := [spGm, spCp, spDp, spRm]
def always (_ _ : Nat) : Bool := true

/-- Class 1 (R127). -/
def loadForm : Nat → Option LForm
  | 0x00 => some { eng := .lde, d := spPools, a := [spTh], fmts := fmtsAll }
  | 0x01 => some { eng := .lde, d := spPools, a := [spGm], fmts := fmtsAll }
  | 0x02 => some { eng := .lde, d := [spTp, spWb], a := [spCp, spDp, spRm], fmts := fmtsAll }
  | 0x03 => some { eng := .lde, d := [spTp], a := [spGm, spTp], b := [spIx], fmts := [0, 1, 2, 3, 4, 5, 6, 8, 10] }
  | 0x04 => some { eng := .lde, d := [spTp], a := [spGm], b := [spIx], fmts := fmtsAll }
  | 0x05 => some { eng := .lde, d := [spTp], a := [spTp], b := [spIx, spTp], fmts := fmtsAll }
  | 0x06 => some { eng := .lde, d := [spTp], a := [spGm], b := [spIm], fmts := [1, 2, 3, 4, 5, 6, 8] }
  | 0x07 => some { eng := .lde, d := [spWb], a := [spTh, spGm, spTp], fmts := fmtsAll }
  | 0x08 => some { eng := .lde, d := [spRq], a := [spTh], fmts := fmtsAll }
  | 0x09 => some { eng := .lde, d := [spRq], fmts := [0] }
  | 0x0A => some { eng := .lde, d := [spTp, spWb, spCp, spDp], a := [spIm], fmts := fmtsAll }
  | _ => none

/-- The atomic forms of class 2 (R145). -/
def atomForm (fmts : List Nat) : LForm :=
  { eng := .ste, d := spAtom, a := [spTp, spIm], b := [spTp, spNone], fmts := fmts }

/-- Class 2 (R144, R145). -/
def storeForm : Nat → Option LForm
  | 0x00 => some { eng := .ste, d := [spTh], a := spPools, fmts := fmtsAll }
  | 0x01 => some { eng := .ste, d := [spGm], a := spPools, fmts := fmtsAll }
  | 0x02 => some { eng := .ste, d := [spCp, spDp, spRm], a := [spTp, spWb], fmts := fmtsAll }
  | 0x03 => some { eng := .ste, d := [spGm, spTp], a := [spTp], b := [spIx], fmts := [0, 1, 2, 3, 4, 5, 6, 8, 10] }
  | 0x04 => some { eng := .ste, d := [spGm], a := [spTp], b := [spIx], fmts := fmtsAll }
  | 0x05 => some { opxs := 3, eng := .ste, d := [spGm, spCp, spDp], a := [spTp], b := [spIx, spNone], fmts := [1, 4, 8],
                   rm := fun f _ => f == 1, sat := fun f o => o == 0 && fmtsInt.contains f }
  | 0x06 => some { atomForm [4, 8] with sat := always }
  | 0x07 => some (atomForm [4])
  | 0x08 => some (atomForm [4])
  | 0x09 => some (atomForm [8])
  | 0x0A => some (atomForm [8])
  | 0x0B => some (atomForm [0, 4, 8])
  | 0x0C => some (atomForm [0, 4, 8])
  | 0x0D => some (atomForm [0, 4, 8])
  | 0x0E => some (atomForm [0, 4, 8])
  | 0x0F => some { atomForm [0, 4, 8] with a := [spTp] }
  | 0x10 => some { atomForm [1] with rm := always }
  | 0x12 => some { eng := .ste, d := [spTh], a := [spRq], fmts := fmtsAll }
  | 0x13 => some { eng := .ste, d := [], a := [spRq], fmts := [0] }
  | _ => none

/-- Rows of R203 with one or two sources. -/
def vec1 (fmts : List Nat) : LForm :=
  { eng := .vxe, d := [spV], a := spVec, fmts := fmts, mask := .plain, mod := true }
def vec2 (fmts : List Nat) : LForm := { vec1 fmts with b := spVec }
def vecFl (f : LForm) : LForm := { f with rm := always, sat := always }

/-- VMOV takes a DFMT of FMT's width, or any when FMT is raw (R213). -/
def movDfmts (fmt : Nat) : List Nat :=
  fmtsAll.filter fun d => d == 0 || fmt == 0 || fmtWidth fmt == fmtWidth d

/-- Class 4 (R203). -/
def vecForm : Nat → Option LForm
  | 0x00 => some (vecFl (vec2 fmtsFloat))
  | 0x01 => some (vecFl (vec2 fmtsFloat))
  | 0x02 => some (vecFl (vec2 fmtsFloat))
  | 0x03 => some (vecFl (vec2 fmtsFloat))
  | 0x04 => some (vecFl (vec2 fmtsFloat))
  | 0x05 => some (vecFl (vec2 fmtsFloat))
  | 0x06 => some (vecFl (vec2 fmtsFloat))
  | 0x07 => some { vec1 fmtsFloat with rm := always }
  | 0x08 => some (vec1 [1])
  | 0x09 => some (vec1 [1])
  | 0x0A => some (vec2 fmtsFloat)
  | 0x0B => some (vec2 fmtsFloat)
  | 0x0C => some (vec1 fmtsFloat)
  | 0x0D => some (vec1 fmtsFloat)
  | 0x0E => some (vec2 fmtsFloat)
  | 0x0F => some { vec1 fmtsFloat with rm := always }
  | 0x10 => some (vec1 [1])
  | 0x11 => some (vec1 [1])
  | 0x12 => some (vecFl (vec2 fmtsFloat))
  | 0x13 => some (vec1 fmtsFloat)
  | 0x14 => some (vec1 fmtsFloat)
  | 0x15 => some { vec1 fmtsAll with dfmts := movDfmts }
  | 0x16 => some { vec1 fmtsAll with a := [spV, spIm], b := [spIm] }
  | 0x17 => some { vec1 fmtsInt with a := [spV, spIm], b := [spIm] }
  | 0x18 => some { vec1 fmtsAll with a := [spV, spTp, spWb], b := [spV, spTp, spWb], mask := .no }
  | 0x19 => some { vec1 fmtsAll with a := [spV], b := [spIm], mask := .no }
  | 0x20 => some { vec2 fmtsInt with sat := always }
  | 0x21 => some { vec2 fmtsInt with sat := always }
  | 0x22 => some { vec2 fmtsInt with sat := always }
  | 0x23 => some (vec2 [4, 5, 6, 7])
  | 0x24 => some (vec2 fmtsInt)
  | 0x25 => some { vec2 fmtsInt with sat := always }
  | 0x26 => some (vec2 [4, 5, 6, 7])
  | 0x27 => some (vec2 [4, 5, 6, 7])
  | 0x28 => some (vec2 fmtsInt)
  | 0x29 => some (vec2 fmtsInt)
  | 0x2A => some (vec2 [0, 4, 5, 6, 7, 8])
  | 0x2B => some (vec2 [0, 4, 5, 6, 7, 8])
  | 0x2C => some (vec2 [0, 4, 5, 6, 7, 8])
  | 0x2D => some (vec1 [0, 4, 5, 6, 7, 8])
  | 0x2E => some (vec2 fmtsInt)
  | 0x2F => some (vec2 fmtsInt)
  | 0x30 => some (vec2 fmtsInt)
  | 0x31 => some (vec1 [0, 4, 5, 6, 7, 8])
  | 0x32 => some (vec1 [0, 4, 5, 6, 7, 8])
  | 0x38 => some { vec1 fmtsAll with a := [spTp, spWb] }
  | 0x39 => some { vec1 fmtsAll with a := [spTp], mask := .no, mod := false }
  | 0x3A => some { vec1 fmtsAll with d := [spTp, spWb], a := [spV] }
  | 0x3B => some { vec1 fmtsAll with d := [spTp], a := [spV], b := [spTp, spNone], mask := .no, mod := false }
  | _ => none

/-- A class 5 row with the operands of VADD. -/
def red1 (fmts : List Nat) (m : MaskRule) : LForm := { vec1 fmts with mask := m }

/-- Class 5 (R221). -/
def maskForm : Nat → Option LForm
  | 0x00 => some { vec2 fmtsFloat with opxs := 8, dfmts := fun _ => [10] }
  | 0x01 => some { vec2 fmtsInt with opxs := 10, dfmts := fun _ => [10] }
  | 0x02 => some { vec2 fmtsAll with mask := .selector }
  | 0x03 => some (vec2 [10])
  | 0x04 => some (vec2 [10])
  | 0x05 => some (vec2 [10])
  | 0x06 => some (vec1 [10])
  | 0x07 => some { red1 [10] .filter with dfmts := fun _ => [8] }
  | 0x08 => some { red1 [10] .filter with dfmts := fun _ => [8] }
  | 0x10 => some { red1 fmtsFloat .filter with dfmts := fun f => [1, f], rm := always, sat := always }
  | 0x11 => some { red1 fmtsInt .filter with dfmts := fun f => if f = 8 then [8] else [4], sat := always }
  | 0x12 => some (red1 fmtsNum .filter)
  | 0x13 => some (red1 fmtsNum .filter)
  | 0x14 => some { red1 fmtsNum .filter with opxs := 2, dfmts := fun _ => [8] }
  | 0x15 => some { red1 fmtsAll .no with dfmts := fun _ => [8] }
  | 0x16 => some { red1 fmtsNum .plain with opxs := 3, rm := fun f o => o == 0 && f ≤ 3, sat := fun _ o => o == 0 }
  | 0x17 => some (red1 fmtsAll .selector)
  | 0x18 => some (red1 fmtsAll .selectorZm)
  | 0x19 => some (red1 fmtsAll .no)
  | 0x1A => some { red1 fmtsNum .no with b := [spV, spIm] }
  | 0x1B => some { vec1 fmtsAll with a := [spV, spTp, spWb, spRq], b := spVec }
  | 0x1C => some { red1 fmtsNum .filter with b := [spV, spIm], dfmts := fun _ => [8] }
  | 0x1D => some { red1 [8] .filter with b := [spV, spIm] }
  | 0x1E => some { vec2 [1, 2, 3, 9, 5, 6, 7] with
                   mask := .filter, dfmts := fun f => if f = 5 ∨ f = 6 ∨ f = 7 then [4] else [1],
                   sat := fun f _ => f == 5 || f == 6 || f == 7 }
  | _ => none

/-- Class 6 (R77, R85). -/
def convForm : Nat → Option LForm
  | 0x00 => some { cv fmtsFloat fmtsFloat with rm := always, sat := always }
  | 0x01 => some { cv fmtsFloat fmtsInt with rm := always }
  | 0x02 => some { cv fmtsInt fmtsFloat with rm := always, sat := always }
  | 0x03 => some { cv [4, 5, 6, 7, 8, 10] [4, 5, 6, 7, 8, 10] with sat := always }
  | 0x04 => some (cv fmtsFloat [9])
  | 0x05 => some (cv [9] [1])
  | 0x06 => some { cv fmtsFloat [5, 6, 7] with rm := always, b := [spV, spTp, spIm] }
  | 0x07 => some { cv [4, 5, 6, 7] fmtsFloat with rm := always, sat := always, b := [spV, spTp, spIm] }
  | 0x08 => some { cv [4, 5, 6] [7] with d := [spTp, spWb], a := [spV], sat := always }
  | 0x09 => some { cv [7] [4, 5, 6] with a := [spTp, spWb] }
  | 0x0A => some (cv fmtsFloat [8])
  | _ => none
where
  cv (fmts dfmts : List Nat) : LForm :=
    { vec1 fmts with a := [spV, spTp, spRq], dfmts := fun _ => dfmts }

/-- DFMT of the accumulating forms (R238). -/
def mmDfmts (f : Nat) : List Nat := if f = 6 ∨ f = 7 then [4] else [1]

/-- Class 7 (R238). -/
def matForm : Nat → Option LForm
  | 0x00 => some { eng := .mxe, d := [spAc], a := [spTp, spRq], b := [spWb, spRq], fmts := [2, 3, 6, 7, 9],
                   dfmts := mmDfmts, sat := fun f _ => f == 6 || f == 7 }
  | 0x01 => some { eng := .mxe, d := [spAc], a := [spTp, spRq], b := [spWb], fmts := [2, 3, 6],
                   dfmts := mmDfmts, sat := fun f _ => f == 6 }
  | 0x02 => some { eng := .mxe, d := [spAc], a := [spTp], b := [spWb], fmts := [2, 3, 6],
                   dfmts := mmDfmts, sat := fun f _ => f == 6 }
  | 0x03 => some { eng := .mxe, d := [spAc], a := [spTp, spRq], b := [spWb], fmts := [2, 3], dfmts := fun _ => [1] }
  | 0x04 => some { eng := .mxe, d := [spAc], fmts := [0] }
  | 0x05 => some { eng := .mxe, d := [spTp], a := [spAc], fmts := [0, 1, 4, 8] }
  | 0x06 => some { eng := .mxe, d := [spAc], a := [spTp, spIm], fmts := [0, 1, 4, 8] }
  | 0x07 => some { eng := .mxe, d := [spTp], a := [spAc], b := [spTp], fmts := [1, 4],
                   dfmts := fun f => if f = 1 then [1, 2, 3, 4, 5, 6, 7, 9] else [1, 2, 3, 4, 5, 6, 7],
                   rm := always, sat := always }
  | 0x08 => some { eng := .mxe, d := [spAc], a := [spAc], fmts := [0] }
  | _ => none

/-- Class 8 (R253). -/
def winForm : Nat → Option LForm
  | 0x00 => some { eng := .lde, d := [spTp], a := [spTp], b := [spTp], fmts := [0, 1, 2, 3, 4, 5, 6, 8] }
  | 0x01 => some { opxs := 2, eng := .vxe, d := [spV, spTp], a := [spTp], b := [spTp], fmts := [1, 2, 3, 4, 5, 6, 8],
                   rm := fun _ o => o == 1, mask := .plain }
  | 0x02 => some { eng := .vxe, d := [spV, spTp], a := [spV, spTp, spWb, spRq], fmts := [1],
                   rm := always, sat := always, mod := true }
  | 0x03 => some { eng := .vxe, d := [spV, spTp], a := [spV, spTp, spWb, spRq], b := [spIm], fmts := [1],
                   rm := always, sat := always, mod := true }
  | 0x04 => some { eng := .vxe, d := [spV, spTp], a := [spV, spTp, spWb, spRq], b := [spV, spTp, spWb, spRq], fmts := [1],
                   rm := always, sat := always, mod := true }
  | _ => none

/-- The L-form of a class and major opcode (R40, R41, R43 to R46). -/
def lform (cls op : Nat) : Option LForm :=
  match cls with
  | 1 => loadForm op
  | 2 => storeForm op
  | 4 => vecForm op
  | 5 => maskForm op
  | 6 => convForm op
  | 7 => matForm op
  | 8 => winForm op
  | _ => none

/-! ### Formats of the operands -/

/-- CFORM of an MMAS (R238). -/
def cform (b : LBlk) : Nat := bits b.cx 8 2
def klen (b : LBlk) : Nat := bits b.cx 0 8

/-- FMT as the table has it; WPOOL averages only floats (R253), and CFORM 1 and 2 of MMAS take the
formats of R243. -/
def fmtOk (cls op : Nat) (f : LForm) (b : LBlk) : Bool :=
  f.fmts.contains b.fmt && !(cls == 8 && op == 1 && b.opx == 1 && !fmtsFloat.contains b.fmt) &&
  !(cls == 7 && op == 1 && ((cform b == 1 && b.fmt != 6) || (cform b == 2 && b.fmt == 6)))

/-- The format in which B is read (R77, R203, R221, R243, R262). -/
def fmtB (cls op : Nat) (b : LBlk) : Nat :=
  match cls with
  | 4 => if 0x16 ≤ op ∧ op ≤ 0x19 then 8 else b.fmt
  | 5 => if op = 0x1B ∨ op = 0x1C ∨ op = 0x1D then 8 else b.fmt
  | 6 => if op = 6 ∨ op = 7 then 1 else b.fmt
  | 7 => if op = 1 ∧ cform b = 1 then 7 else if op = 1 ∧ cform b = 2 then 9 else b.fmt
  | 8 => if op = 3 then 8 else b.fmt
  | _ => b.fmt

/-- The format that a sign modifier of B follows: FMT, but for the index of VGATH (R220). -/
def signFmtB (cls op : Nat) (b : LBlk) : Nat := if cls = 5 ∧ op = 0x1B then 8 else b.fmt

/-- The format in which a pool or memory D is written (R33, R77, R248). -/
def fmtD (cls op : Nat) (b : LBlk) : Nat :=
  if cls = 6 ∨ (cls = 7 ∧ op = 7) then b.dfmt else b.fmt

/-- Natural unit of a format in bytes (R33). -/
def unitOf (fmt : Nat) : Nat :=
  match fmt with
  | 2 => 2 | 3 => 2 | 5 => 2 | 6 => 1 | 7 => 1 | 9 => 1 | 10 => 1 | _ => 4

/-- Unit of A, B and D windows: records of 8 or 64 bytes where the form reads such (R133, R135, R216,
R248, R254), the format's unit elsewhere. -/
def unitA (cls op : Nat) (b : LBlk) : Nat :=
  if (cls = 1 ∧ op = 5) ∨ (cls = 4 ∧ op = 0x39) then 8 else unitOf b.fmt
def unitB (cls op : Nat) (b : LBlk) : Nat :=
  if b.b.space = spIx then 4
  else if (cls = 1 ∧ op = 5) ∨ (cls = 4 ∧ op = 0x3B) then 8
  else if (cls = 7 ∧ op = 7) ∨ (cls = 8 ∧ op ≤ 1) then 64
  else unitOf (fmtB cls op b)
def unitD (cls op : Nat) (b : LBlk) : Nat :=
  if cls = 1 ∧ op = 6 then 4 else if cls = 4 ∧ op = 0x3B then 8 else unitOf (fmtD cls op b)

/-- Does a window's line hold whole packed groups (R33)? -/
def packedOk (fmt seg : Nat) : Bool :=
  !(fmt == 7 && (seg + 1) % 2 != 0) && !(fmt == 9 && (seg + 1) % 4 != 0)

def isWindow (space : Nat) : Bool :=
  space == spTp || space == spCp || space == spDp || space == spGm || space == spWb || space == spRm

/-! ### Step 5 of R21: reserved fields -/

/-- BASE bits within the space's range (R31, R34). The row of ix gives no range: a list outside the share meets 0x201 at issue
(R32). -/
def baseOk (space base : Nat) : Bool :=
  match space with
  | 1 => base < 2 ^ 18 | 2 => base < 2 ^ 24 | 3 => base < 2 ^ 26 | 4 => true
  | 5 => base < 2 ^ 16 | 6 => base < 32 | 7 => base < 2 ^ 14 | 8 => base < 2 ^ 16
  | 9 => base < 16
  | 10 => bits base 26 16 == 0 && !(bitAt base 47 && bits base 44 3 != 0)
  | 11 => base < 2 ^ 32 | 12 => true
  | _ => false

/-- A legal modifier (R37). -/
def modOk (m : Nat) : Bool :=
  let mcls := bits m 0 4
  let lseg := bits m 4 4
  let dist := bits m 8 4
  decide (mcls ≤ 6) && !((mcls == 3 || mcls == 4) && dist != 0) &&
    !((mcls == 0 || mcls == 5 || mcls == 6) && (lseg != 0 || dist != 0))

def Desc.zero (x : Desc) : Bool := x == {}
def Desc.strides (x : Desc) : List Nat := [x.st0, x.st1, x.st2, x.st3]

/-- Fields of a descriptor that its space leaves unused (R31 to R36). pad: the form gives PAD/IDX a meaning;
whole: the register must be whole; shaped: the form's shape check refuses AUX instead (R135, R216). -/
def Desc.fieldsOk (x : Desc) (modOkHere pad whole shaped : Bool) : Bool :=
  let zst := x.strides.all (· == 0)
  decide (x.space < 13) && (x.space != spNone || x.zero) &&
  (x.space == spNone || baseOk x.space x.base) &&
  (x.mod == 0 || (modOkHere && x.space != spIm && modOk x.mod)) &&
  (match x.space with
   | 5 => true
   | 6 => decide (x.pad < 2) && x.ext2 == 0 && x.aux == 0 && (x.pad == 1 || (x.seg == 0 && zst)) && !(whole && x.pad == 1)
   | 7 => x.pad == 0
   | 9 => zst && x.ext2 == 0 && x.pad == 0 && x.aux == 0
   | 11 => zst && x.seg == 0 && x.ext2 == 0 && x.pad == 0 && x.aux == 0
   | 12 => x.ext2 == 0 && x.pad == 0 && x.aux == 0
   | _ => (pad || x.pad == 0) && (shaped || x.aux == 0 || x.ext2 != 0))

/-- An immediate has no bits above the format it is read in (R36). -/
def immOk (x : Desc) (fmt : Nat) : Bool := x.space != spIm || x.base < 2 ^ fmtWidth fmt

/-- CX bits per form (R28, R144, R238, R253). -/
def cxOk (cls op : Nat) (b : LBlk) : Bool :=
  match cls with
  | 2 =>
    if 6 ≤ op ∧ op ≤ 0x10 then
      let ord := bits b.cx 3 2
      let scope := bits b.cx 0 3
      decide (b.cx < 32) && decide (scope ≤ 4) && (ord != 0 || scope == 0) && !(decide (2 ≤ ord) && b.b.space == spNone)
    else b.cx == 0
  | 7 =>
    if op ≤ 3 then
      let hi := bits b.cx 8 5
      let depth := match b.fmt with | 2 => 48 | 3 => 48 | 6 => 96 | 9 => 128 | _ => 192
      decide (klen b ≤ depth) &&
        (match op with
         | 0 => hi == 0
         | 1 => decide (hi < 3)
         | 2 => true
         | _ => decide (hi < 2))
    else if op = 7 then klen b == 0 && bits b.cx 8 1 == 0
    else b.cx == 0
  | 8 =>
    match op with
    | 0 => b.cx == 0
    | 1 => decide (b.cx < 2)
    | 2 => decide (b.cx < 15)
    | 3 => decide (b.cx < 128) && decide (1 ≤ bits b.cx 0 5) && decide (bits b.cx 0 5 ≤ 16)
    | _ => decide (b.cx < 2)
  | _ => b.cx == 0

def maskOk (m : MaskRule) (b : LBlk) : Bool :=
  (b.msk == 1 || (b.zm == 0 && b.mreg == 0)) &&
  (match m with
   | .no => b.msk == 0
   | .plain => true
   | .filter => b.zm == 0
   | .selector => b.msk == 1 && b.zm == 0
   | .selectorZm => b.msk == 1)

/-- Forms that give A's or D's PAD/IDX a meaning: the pitch of LDXL and STXL (R132, R153). -/
def padA (cls op : Nat) : Bool := cls == 1 && op == 4
def padD (cls op : Nat) : Bool := cls == 2 && op == 4

/-- Fields that one form alone restricts: word d of a record operand, words b to d of a walk record's
operand, the geometry of WINL and WPOOL (R133, R140, R248, R254). -/
def ownFieldsOk (cls op : Nat) (b : LBlk) : Bool :=
  let recD (x : Desc) := x.seg == 0 && x.ext2 == 0 && x.pad == 0 && x.aux == 0
  match cls with
  | 1 => (op != 5 || (b.a.strides.all (· == 0) && recD b.a)) && (op != 9 || b.d.seg == 0)
  | 7 => op != 7 || recD b.b
  | 8 => decide (2 ≤ op) || (b.a.ext2 == 0 && b.a.aux == 0 && recD b.b)
  | _ => true

/-- DW1 terms: a zero count leaves its semaphore field zero (R27). -/
def Ctl.semsOk (c : Ctl) : Bool :=
  (c.wcnt != 0 || c.wsem == 0) && (c.w2cnt != 0 || c.w2sem == 0) &&
  (c.scnt != 0 || c.ssem == 0) && (c.s2cnt != 0 || c.s2sem == 0)

/-- Step 9 of R21 for DW1: no counted semaphore above 255. -/
def Ctl.semsInRange (c : Ctl) : Bool :=
  decide (c.wsem ≤ 255) && decide (c.w2sem ≤ 255) && decide (c.ssem ≤ 255) && decide (c.s2sem ≤ 255)

/-- Step 5 of R21 for an L-form. An ICVT to BOOL has no SAT (R77). -/
def lFieldsOk (cls op : Nat) (f : LForm) (b : LBlk) : Bool :=
  b.c.semsOk && maskOk f.mask b && (b.sat == 0 || (f.sat b.fmt b.opx && !(cls == 6 && op == 3 && b.dfmt == 10))) && cxOk cls op b &&
  (b.next % 32 == 0) && (b.lk == 1 || b.next == 0) &&
  (b.rlvl == 0 || (decide (4 ≤ cls) && cls != 6 && (b.a.space == spRq || b.b.space == spRq || b.d.space == spRq))) &&
  (!f.a.isEmpty || b.a.zero) && (!f.b.isEmpty || b.b.zero) && (!f.d.isEmpty || b.d.zero) &&
  b.a.fieldsOk f.mod (padA cls op) (cls == 4 && op == 0x3B) (cls == 4 && op == 0x39) &&
  b.b.fieldsOk f.mod false false (cls == 4 && op == 0x3B) &&
  b.d.fieldsOk false (padD cls op) (cls == 4 && op == 0x39) ((cls == 1 && op == 6) || (cls == 4 && op == 0x3B)) &&
  immOk b.a b.fmt && immOk b.b (fmtB cls op b) && ownFieldsOk cls op b

/-! ### Steps 6 to 8 of R21 -/

/-- Step 6: formats, rounding mode, packed lines, sign modifiers (R24, R33, R220). -/
def lFormatOk (cls op : Nat) (f : LForm) (b : LBlk) : Bool :=
  let packed (x : Desc) (fmt : Nat) := !(isWindow x.space || x.space == spRq) || packedOk fmt x.seg
  let signMod (x : Desc) (fmt : Nat) :=
    !((bits x.mod 0 4 == 5 || bits x.mod 0 4 == 6) && (fmt == 0 || fmt == 9 || fmt == 10))
  fmtOk cls op f b && (f.dfmts b.fmt).contains b.dfmt &&
  decide (b.rm ≤ 4) && (b.rm == 0 || f.rm b.fmt b.opx) &&
  ((cls == 1 && op == 5) || (cls == 4 && op == 0x39) || packed b.a b.fmt) &&
  (unitB cls op b == 8 || unitB cls op b == 64 || b.b.space == spIx || packed b.b (fmtB cls op b)) &&
  ((cls == 1 && op == 6) || (cls == 4 && op == 0x3B) || packed b.d (fmtD cls op b)) &&
  signMod b.a b.fmt && signMod b.b (signFmtB cls op b)

/-- Step 7: the spaces of the operands. -/
def lSpacesOk (f : LForm) (b : LBlk) : Bool :=
  (f.a.isEmpty || f.a.contains b.a.space) && (f.b.isEmpty || f.b.contains b.b.space) &&
  (f.d.isEmpty || f.d.contains b.d.space)

/-- Does a window keep every element on its natural unit, as far as the block's fields say (R33)? -/
def Desc.aligned (x : Desc) (unit : Nat) : Bool :=
  if isWindow x.space || x.space == spIx then
    let base := if x.space = spGm then x.base % 2 ^ 45 else if x.space = spRm then x.base % 2 ^ 26 else x.base
    base % unit == 0 && x.strides.all (· % unit == 0)
  else true

/-- Is this VLDR or VSTR? The windows of these two are checked at issue (R217). -/
def isRunImage (cls op : Nat) : Bool := cls == 4 && (op == 0x39 || op == 0x3B)

/-- Step 8. -/
def lAligned (cls op : Nat) (b : LBlk) : Bool :=
  isRunImage cls op || b.a.aligned (unitA cls op b) && b.b.aligned (unitB cls op b) && b.d.aligned (unitD cls op b)

/-! ### Shapes found from the fields (R128, R132, R135, R146, R216, R239, R243, R245 to R248) -/

def Desc.count (x : Desc) : Nat := (x.seg + 1) * (x.ext2 + 1)

/-- Elements one matrix row holds at most, by format (R238). -/
def kMax (fmt : Nat) : Nat := match fmt with | 2 => 48 | 3 => 48 | 6 => 96 | 7 => 192 | _ => 128

/-- Row length and row count of a step operand: a ring slot is 16 dense rows (R239). -/
def stepRows (x : Desc) : Nat × Nat :=
  if x.space = spRq then (if (x.seg + 1) % 16 = 0 then ((x.seg + 1) / 16, 16) else (0, 0))
  else (x.seg + 1, x.ext2 + 1)

def inRange (lo hi n : Nat) : Bool := decide (lo ≤ n) && decide (n ≤ hi)

/-- The shapes of the matrix forms (R239, R243 to R248). An AUX of MMAS that does not cover a line's values and metadata is not
looked at: the spec names no cause for it, and such lines overlap (DESIGN CHOICE, log 26). -/
def matShapeOk (op : Nat) (b : LBlk) : Bool :=
  let (ka, m) := stepRows b.a
  let (kb, n) := stepRows b.b
  match op with
  | 0 =>
    kb == ka && b.d.ext2 + 1 == m && b.d.seg + 1 == n && inRange 1 (kMax b.fmt) ka && inRange 1 16 m &&
      inRange 1 16 n && decide (klen b ≤ ka)
  | 1 =>
    let two := cform b = 0
    let k := if two then 2 * kb else kb
    let kmax := if two then 2 * kMax b.fmt else kMax b.fmt
    ka == k && inRange 1 kmax k && (if cform b = 1 then kb % 2 == 0 else kb % 4 == 0) &&
      b.d.ext2 + 1 == m && b.d.seg + 1 == n && inRange 1 16 m && inRange 1 16 n &&
      decide (klen b ≤ kb)
  | 2 =>
    let ps := bits b.cx 8 2 + 1
    let ts := bits b.cx 10 3 + 1
    let c := b.a.seg + 1
    let mm := b.d.ext2 + 1
    c == n && c == b.d.seg + 1 && inRange 1 16 c && inRange 1 16 mm && inRange 1 (kMax b.fmt) kb &&
      decide (klen b ≤ kb) && b.a.ext2 + 1 == (mm - 1) * ps + (kb - 1) * ts + 1
  | 3 =>
    ka == kb && ka % 2 == 0 && inRange 2 48 ka && m == b.d.ext2 + 1 && inRange 1 16 m && inRange 1 8 n &&
      b.d.seg + 1 == 2 * n && klen b % 2 == 0 && decide (klen b ≤ ka)
  | 5 => b.a.count == b.d.count
  | 6 => b.a.space == spIm || b.a.count == b.d.count
  | 7 => b.d.seg == b.a.seg && b.d.ext2 == b.a.ext2
  | 8 => b.a.count == b.d.count
  | _ => true

def lShapeOk (cls op : Nat) (b : LBlk) : Bool :=
  match cls with
  | 1 =>
    match op with
    | 1 => b.a.count == b.d.count
    | 2 => b.a.count == b.d.count
    | 3 => b.a.seg == 0 && b.a.ext2 == 0 && b.d.count == b.b.seg + 1
    | 4 => b.a.ext2 == 0 && b.d.seg == b.a.seg && b.d.ext2 == b.b.seg
    | 6 => (b.d.seg + 1) % 2 == 0 && b.d.ext2 == 0 && b.d.aux == 0
    | 7 => b.a.space == spTh || b.a.count == b.d.count
    | _ => true
  | 2 =>
    let scatter := b.a.count == b.b.seg + 1 && b.d.seg == 0 && b.d.ext2 == 0
    if 6 ≤ op ∧ op ≤ 0x10 then
      (b.a.space == spIm || b.a.count == (if op = 0x0F then 2 * b.d.count else b.d.count)) &&
        (b.b.space == spNone || b.b.count == b.d.count)
    else match op with
      | 1 => b.a.count == b.d.count
      | 2 => b.a.count == b.d.count
      | 3 => scatter
      | 4 => b.a.seg == b.d.seg && b.a.ext2 == b.b.seg && b.d.ext2 == 0
      | 5 => if b.b.space = spIx then scatter else b.a.count == b.d.count
      | 0x12 => b.a.seg + 1 == (b.d.seg + 1) * (b.d.ext2 + 1) * (b.d.pad + 1)
      | 0x13 => b.a.seg == 0
      | _ => true
  | 4 =>
    match op with
    | 0x39 => decide (b.a.seg < 512) && b.a.ext2 == 0 && b.a.aux == 0
    | 0x3B => decide (b.d.seg < 512) && b.d.ext2 == 0 && b.d.aux == 0 &&
        (b.b.space == spNone || (b.b.seg == 0 && b.b.ext2 == 0 && b.b.aux == 0))
    | _ => true
  | 7 => matShapeOk op b
  | _ => true

/-! ### S-forms -/

/-- The engine a form belongs to, none for the forms any engine runs (R38, R98). -/
def sEngine : Instr → Option Engine
  | .patchv .. => some .vxe
  | .ldacq .. => some .lde
  | .strel .. => some .ste
  | .migr .. | .migrs .. | .mpin .. | .munpin .. | .madv .. | .mabrt .. | .mhot .. | .mqry .. => some .ste
  | _ => none

/-- The highest OPX of an S-form plus one (R48). -/
def sOpxs (cls op : Nat) : Nat :=
  match cls, op with
  | 3, 9 => 5
  | 3, 0x0A => 3
  | 9, 4 => 5
  | _, _ => 1

def patchOk (len tgt limit : Nat) : Bool := decide (len < limit) && decide (tgt % 32 + len + 1 ≤ 32)

/-- Step 5 of R21 for the operand words of an S-form (R97, R141, R159, R175, R281). -/
def sFieldsOk : Instr → Bool
  | .link _ tgt => tgt % 32 == 0
  | .brc _ cond tgt imm off =>
    tgt % 32 == 0 && decide (cond ≤ 10) && off % 4 == 0 && (decide (3 ≤ cond) || (imm == 0 && off == 0))
  | .brcd _ tgt off => tgt % 32 == 0 && off % 4 == 0
  | .patch _ len tgt _ => patchOk len tgt 16
  | .patchi _ len tgt imm => patchOk len tgt 4 && decide (imm < 2 ^ (8 * (len + 1)))
  | .patchv _ len tgt _ _ => patchOk len tgt 4
  | .ldacq _ wt w64 scope _ _ imm off =>
    decide (scope ≤ 4) && (wt == 1 || imm == 0) && off % (if w64 = 1 then 8 else 4) == 0
  | .strel _ si w64 scope _ _ imm off =>
    decide (scope ≤ 4) && (if si = 1 then off == 0 else imm == 0) && off % (if w64 = 1 then 8 else 4) == 0
  | .semq _ _ off => off % 4 == 0
  | .semw _ _ _ cnt => cnt != 0
  | .sems _ rmt slot tile _ cnt => cnt != 0 && (rmt == 1 || (slot == 0 && tile == 0))
  | .regd _ b2v b2w b2sem b1v b1w b1sem mode space _ len off =>
    decide (mode ≤ 6) && (b1v == 1 || (b1w == 0 && b1sem == 0)) && (b2v == 1 || (b2w == 0 && b2sem == 0)) &&
      (if mode = 0 then space == 0 && len == 0 && off == 0 && b1v == 0 && b2v == 0
       else (space == spTp || space == spWb) && len % 64 == 0 && decide (64 ≤ len) && off % 64 == 0)
  | .bari _ _ exp => exp != 0
  | .bara _ _ pw off => off % 4 == 0 && (pw == 1 || off == 0)
  | .barw _ _ off => off % 4 == 0
  | .post _ _ scope _ _ _ => decide (scope ≤ 4)
  | .join _ scope _ _ _ => decide (scope ≤ 4)
  | .migr _ dtier _ _ _ => decide (dtier ≤ 2)
  | .migrs _ dtier _ _ _ => decide (dtier ≤ 2)
  | .mqry _ _ _ _ off => off % 8 == 0
  | _ => true

/-- Step 9 of R21 for semaphores named by operand words (R175). -/
def sSemsInRange : Instr → Bool
  | .semi _ sem _ => decide (sem ≤ 255)
  | .semq _ sem _ => decide (sem ≤ 255)
  | .semw _ _ sem _ => decide (sem ≤ 255)
  | .sems _ _ _ _ sem _ => decide (sem ≤ 255)
  | .regd _ _ _ b2sem _ _ b1sem _ _ _ _ _ => decide (b1sem ≤ 255) && decide (b2sem ≤ 255)
  | .ringd _ _ esem fsem _ _ _ _ => decide (esem ≤ 255) && decide (fsem ≤ 255)
  | _ => true

/-- Bits [56:48] of an address with [47:0] replaced (R19). -/
def nearTarget (addr tgt : Nat) : Nat := addr / 2 ^ 48 * 2 ^ 48 + tgt

/-- Step 10 of R21: a BRC names a target after itself. -/
def brcForward (addr : Nat) : Instr → Bool
  | .brc _ _ tgt _ _ => decide (addr < nearTarget addr tgt)
  | _ => true

/-! ### Iterations, issue control, dispositions -/

/-- c0 to c3 of the kth iteration in nest order. -/
def LBlk.counters (b : LBlk) (k : Nat) : Nat × Nat × Nat × Nat :=
  let n0 := b.b0 + 1
  let n1 := b.b1 + 1
  let n2 := b.b2 + 1
  (k % n0, k / n0 % n1, k / n0 / n1 % n2, k / n0 / n1 / n2)

def LBlk.iterations (b : LBlk) : Nat := (b.b0 + 1) * (b.b1 + 1) * (b.b2 + 1) * (b.b3 + 1)

/-- The CTR field of records and frames. -/
def packCtr (c : Nat × Nat × Nat × Nat) : Nat := wordOf [(16, c.1), (16, c.2.1), (16, c.2.2.1), (16, c.2.2.2)]

/-- CTR of a block's kth iteration; the page index of a tier block stands in c0 (R283). -/
def ctrOf (i : Instr) (k : Nat) : Nat :=
  match lParts i with
  | some (_, _, b) => packCtr (b.counters k)
  | none => k % 65536

/-- Issue control of a block. -/
def ctlOf (i : Instr) : Ctl :=
  match lParts i with
  | some (_, _, b) => b.c
  | none => match sParts i with | some (_, _, _, c, _, _) => c | none => {}

/-- The disposition of a cause raised by a block (R324, R325). -/
def Cause.disp : Cause → Disp
  | .trap _ => .park | .breakpoint => .stop | .singleStep => .stop | .notPresent => .park | .migrationAbort _ => .park
  | .pinnedConflict => .park | .runOverflow => .park | .danglingStream => .note | .budget => .park
  | .supervisorCall => .park | .spawnRefused => .park | .cancelled => .note | .parkedBySupervisor => .park
  | .successorInvalid => .note | .dependenceUnderflow => .note | .queueTerminated => .note | .completionFailed => .note
  | _ => .halt

def unitsOk (tile slot : Nat) : Bool := decide (tile < 512) && decide (slot < 4)
def EngRef.ok (r : EngRef) : Bool := unitsOk r.tile r.slot

/-! ### The checks in the order of R21 -/

/-- The first cause whose check fails. -/
def firstFailing : List (Bool × Cause) → Option Cause
  | [] => none
  | (ok, c) :: rest => if ok then firstFailing rest else some c

/-- Steps 1, 3 and 4 of R21 for a decoded block: alignment, variant, engine. -/
def headChecks (e : Engine) (addr : Nat) (i : Instr) : List (Bool × Cause) :=
  match lParts i with
  | some (cls, op, b) =>
    match lform cls op with
    | some f => [(addr % 128 == 0, .misalignedBlock), (decide (b.opx < f.opxs), .illegalOpcode), (e == f.eng, .wrongEngine)]
    | none => [(false, .illegalOpcode)]
  | none =>
    match sParts i with
    | some (cls, op, opx, _, _, _) =>
      [(decide (opx < sOpxs cls op), .illegalOpcode), ((sEngine i).all (· == e), .wrongEngine)]
    | none => [(false, .illegalOpcode)]

/-- Steps 5 to 10 of R21, and the shape check that follows them (R128). -/
def fieldChecks (addr : Nat) (i : Instr) : List (Bool × Cause) :=
  match lParts i with
  | some (cls, op, b) =>
    match lform cls op with
    | some f =>
      [(lFieldsOk cls op f b, .reservedField), (lFormatOk cls op f b, .badFormat), (lSpacesOk f b, .spaceNotPermitted),
       (lAligned cls op b, .misalignedWindow), (b.c.semsInRange, .semInvalid), (lShapeOk cls op b, .shapeMismatch)]
    | none => []
  | none =>
    match sParts i with
    | some (_, _, _, c, _, _) =>
      [(c.semsOk && sFieldsOk i, .reservedField), (c.semsInRange && sSemsInRange i, .semInvalid),
       (brcForward addr i, .backwardBrc)]
    | none => []

/-- The encoding fault of a decoded block in a chain of engine e at an address, if any (R21). -/
def fetchCheck (e : Engine) (addr : Nat) (i : Instr) : Option Cause :=
  firstFailing (headChecks e addr i ++ fieldChecks addr i)

end Sys2Proof
end

