-- ==== Sys2Proof/WellFormed.lean ====
section
/-! DEFINITION. Well-formed instructions: every field fits its place in the encoding, and a block passes
every fetch check of R21 for the engine and address it stands at. -/

namespace Sys2Proof

def Ctl.fits (c : Ctl) : Bool :=
  decide (c.fbar < 2) && decide (c.brk < 2) && decide (c.trc < 2) && decide (c.sbset < 16) && decide (c.sbwait < 2 ^ 15) &&
  decide (c.wsem < 1024) && decide (c.wcnt < 64) && decide (c.w2sem < 1024) && decide (c.w2cnt < 64) &&
  decide (c.ssem < 1024) && decide (c.scnt < 64) && decide (c.s2sem < 1024) && decide (c.s2cnt < 64)

def Desc.fits (x : Desc) : Bool :=
  decide (x.space < 16) && decide (x.mod < 2 ^ 12) && decide (x.base < 2 ^ 48) &&
  decide (x.st0 < 2 ^ 32) && decide (x.st1 < 2 ^ 32) && decide (x.st2 < 2 ^ 32) && decide (x.st3 < 2 ^ 32) &&
  decide (x.seg < 2 ^ 16) && decide (x.ext2 < 2 ^ 16) && decide (x.pad < 2 ^ 16) && decide (x.aux < 2 ^ 16)

def LBlk.fits (b : LBlk) : Bool :=
  b.c.fits && decide (b.opx < 256) && decide (b.mreg < 32) && decide (b.zm < 2) && decide (b.msk < 2) && decide (b.sat < 2) &&
  decide (b.rm < 8) && decide (b.dfmt < 16) && decide (b.fmt < 16) && decide (b.cx < 2 ^ 13) && decide (b.rlvl < 4) &&
  decide (b.lk < 2) && decide (b.next < 2 ^ 48) && decide (b.b0 < 2 ^ 16) && decide (b.b1 < 2 ^ 16) &&
  decide (b.b2 < 2 ^ 16) && decide (b.b3 < 2 ^ 16) && b.a.fits && b.b.fits && b.d.fits

def EngRef.fits (e : EngRef) : Bool := decide (e.tile < 512) && decide (e.slot < 4)

/-- Every field of the instruction fits its bits; an event names units the module has. -/
def Instr.fits : Instr → Bool
  | .ldt b => b.fits
  | .ldg b => b.fits
  | .ldgr b => b.fits
  | .ldx b => b.fits
  | .ldxl b => b.fits
  | .ldw b => b.fits
  | .ldq b => b.fits
  | .ldwb b => b.fits
  | .sub b => b.fits
  | .subc b => b.fits
  | .ldf b => b.fits
  | .stt b => b.fits
  | .stg b => b.fits
  | .stgr b => b.fits
  | .stx b => b.fits
  | .stxl b => b.fits
  | .strd b => b.fits
  | .atadd b => b.fits
  | .atsmin b => b.fits
  | .atsmax b => b.fits
  | .atumin b => b.fits
  | .atumax b => b.fits
  | .atand b => b.fits
  | .ator b => b.fits
  | .atxor b => b.fits
  | .atxch b => b.fits
  | .atcas b => b.fits
  | .atfadd b => b.fits
  | .pub b => b.fits
  | .pubc b => b.fits
  | .vadd b => b.fits
  | .vsub b => b.fits
  | .vmul b => b.fits
  | .vfma b => b.fits
  | .vfms b => b.fits
  | .vfnma b => b.fits
  | .vdiv b => b.fits
  | .vsqrt b => b.fits
  | .vrsq b => b.fits
  | .vrcp b => b.fits
  | .vmin b => b.fits
  | .vmax b => b.fits
  | .vabs b => b.fits
  | .vneg b => b.fits
  | .vcpys b => b.fits
  | .vrndi b => b.fits
  | .vfexp2 b => b.fits
  | .vlog2f b => b.fits
  | .vexpins b => b.fits
  | .vexpx b => b.fits
  | .vmant b => b.fits
  | .vmov b => b.fits
  | .vbcst b => b.fits
  | .viota b => b.fits
  | .vrun b => b.fits
  | .vlen b => b.fits
  | .viadd b => b.fits
  | .visub b => b.fits
  | .vimul b => b.fits
  | .vimulh b => b.fits
  | .vimulhu b => b.fits
  | .vimad b => b.fits
  | .vimin b => b.fits
  | .vimax b => b.fits
  | .vumin b => b.fits
  | .vumax b => b.fits
  | .vand b => b.fits
  | .vor b => b.fits
  | .vxor b => b.fits
  | .vnot b => b.fits
  | .vshl b => b.fits
  | .vshr b => b.fits
  | .vsra b => b.fits
  | .vclz b => b.fits
  | .vpop b => b.fits
  | .vld b => b.fits
  | .vldr b => b.fits
  | .vst b => b.fits
  | .vstr b => b.fits
  | .vcmp b => b.fits
  | .vicmp b => b.fits
  | .vsel b => b.fits
  | .vmand b => b.fits
  | .vmor b => b.fits
  | .vmxor b => b.fits
  | .vmnot b => b.fits
  | .vmcnt b => b.fits
  | .vmfst b => b.fits
  | .vrsum b => b.fits
  | .vrisum b => b.fits
  | .vrmax b => b.fits
  | .vrmin b => b.fits
  | .vrarg b => b.fits
  | .vrcnt b => b.fits
  | .vscan b => b.fits
  | .vcomp b => b.fits
  | .vexpd b => b.fits
  | .vrco b => b.fits
  | .vrcot b => b.fits
  | .vgath b => b.fits
  | .vtopk b => b.fits
  | .vhist b => b.fits
  | .vdot b => b.fits
  | .fcvt b => b.fits
  | .fcvti b => b.fits
  | .icvtf b => b.fits
  | .icvt b => b.fits
  | .lgenc b => b.fits
  | .lgdec b => b.fits
  | .qnt b => b.fits
  | .dqnt b => b.fits
  | .pk4 b => b.fits
  | .upk4 b => b.fits
  | .fclass b => b.fits
  | .mma b => b.fits
  | .mmas b => b.fits
  | .mmd b => b.fits
  | .mmc b => b.fits
  | .acz b => b.fits
  | .acr b => b.fits
  | .acw b => b.fits
  | .drn b => b.fits
  | .acmv b => b.fits
  | .winl b => b.fits
  | .wpool b => b.fits
  | .vbfly b => b.fits
  | .vtwd b => b.fits
  | .vcmul b => b.fits
  | .nop c => c.fits
  | .endChain c => c.fits
  | .link c tgt => c.fits && decide (tgt < 2 ^ 57)
  | .brc c cond tgt imm off => c.fits && decide (cond < 2 ^ 4) && decide (tgt < 2 ^ 48) && decide (imm < 2 ^ 32) && decide (off < 2 ^ 18)
  | .brcd c tgt off => c.fits && decide (tgt < 2 ^ 48) && decide (off < 2 ^ 18)
  | .patch c len tgt off => c.fits && decide (len < 2 ^ 4) && decide (tgt < 2 ^ 48) && decide (off < 2 ^ 18)
  | .patchi c len tgt imm => c.fits && decide (len < 2 ^ 4) && decide (tgt < 2 ^ 48) && decide (imm < 2 ^ 32)
  | .patchv c len tgt elem vreg => c.fits && decide (len < 2 ^ 4) && decide (tgt < 2 ^ 48) && decide (elem < 2 ^ 16) && decide (vreg < 2 ^ 5)
  | .yieldSlot c => c.fits
  | .spawn c rb roff inh => c.fits && decide (rb < 2 ^ 3) && decide (roff < 2 ^ 45) && decide (inh < 2 ^ 1)
  | .svc c svcno arg => c.fits && decide (svcno < 2 ^ 16) && decide (arg < 2 ^ 64)
  | .trap c tno arg => c.fits && decide (tno < 2 ^ 6) && decide (arg < 2 ^ 64)
  | .brkp c tag => c.fits && decide (tag < 2 ^ 16)
  | .flti c cause val => c.fits && decide (cause < 2 ^ 10) && decide (val < 2 ^ 64)
  | .ldacq c wt w64 scope rb roff imm off => c.fits && decide (wt < 2 ^ 1) && decide (w64 < 2 ^ 1) && decide (scope < 2 ^ 3) && decide (rb < 2 ^ 3) && decide (roff < 2 ^ 45) && decide (imm < 2 ^ 32) && decide (off < 2 ^ 18)
  | .strel c si w64 scope rb roff imm off => c.fits && decide (si < 2 ^ 1) && decide (w64 < 2 ^ 1) && decide (scope < 2 ^ 3) && decide (rb < 2 ^ 3) && decide (roff < 2 ^ 45) && decide (imm < 2 ^ 32) && decide (off < 2 ^ 18)
  | .semi c sem val => c.fits && decide (sem < 2 ^ 10) && decide (val < 2 ^ 16)
  | .semw c dec sem cnt => c.fits && decide (dec < 2 ^ 1) && decide (sem < 2 ^ 10) && decide (cnt < 2 ^ 16)
  | .sems c rmt slot tile sem cnt => c.fits && decide (rmt < 2 ^ 1) && decide (slot < 2 ^ 2) && decide (tile < 2 ^ 9) && decide (sem < 2 ^ 10) && decide (cnt < 2 ^ 16)
  | .regd c b2v b2w b2sem b1v b1w b1sem mode space reg len off => c.fits && decide (b2v < 2 ^ 1) && decide (b2w < 2 ^ 1) && decide (b2sem < 2 ^ 10) && decide (b1v < 2 ^ 1) && decide (b1w < 2 ^ 1) && decide (b1sem < 2 ^ 10) && decide (mode < 2 ^ 4) && decide (space < 2 ^ 4) && decide (reg < 2 ^ 6) && decide (len < 2 ^ 18) && decide (off < 2 ^ 18)
  | .ringd c prod esem fsem reg ring slot64 nslot => c.fits && decide (prod < 2 ^ 8) && decide (esem < 2 ^ 10) && decide (fsem < 2 ^ 10) && decide (reg < 2 ^ 6) && decide (ring < 2 ^ 4) && decide (slot64 < 2 ^ 12) && decide (nslot < 2 ^ 16)
  | .eos c ring => c.fits && decide (ring < 2 ^ 4)
  | .bari c pt exp => c.fits && decide (pt < 2 ^ 6) && decide (exp < 2 ^ 16)
  | .bara c pt pw off => c.fits && decide (pt < 2 ^ 6) && decide (pw < 2 ^ 1) && decide (off < 2 ^ 18)
  | .barw c pt off => c.fits && decide (pt < 2 ^ 6) && decide (off < 2 ^ 18)
  | .fence c scope => c.fits && decide (scope < 2 ^ 8)
  | .post c op scope rb roff val => c.fits && decide (op < 2 ^ 8) && decide (scope < 2 ^ 3) && decide (rb < 2 ^ 3) && decide (roff < 2 ^ 45) && decide (val < 2 ^ 64)
  | .join c scope rb roff thr => c.fits && decide (scope < 2 ^ 3) && decide (rb < 2 ^ 3) && decide (roff < 2 ^ 45) && decide (thr < 2 ^ 64)
  | .semq c sem off => c.fits && decide (sem < 2 ^ 10) && decide (off < 2 ^ 18)
  | .migr c dtier rb roff npg => c.fits && decide (dtier < 2 ^ 3) && decide (rb < 2 ^ 3) && decide (roff < 2 ^ 45) && decide (npg < 2 ^ 16)
  | .migrs c dtier rb roff npg => c.fits && decide (dtier < 2 ^ 3) && decide (rb < 2 ^ 3) && decide (roff < 2 ^ 45) && decide (npg < 2 ^ 16)
  | .mpin c rb roff npg => c.fits && decide (rb < 2 ^ 3) && decide (roff < 2 ^ 45) && decide (npg < 2 ^ 16)
  | .munpin c rb roff npg => c.fits && decide (rb < 2 ^ 3) && decide (roff < 2 ^ 45) && decide (npg < 2 ^ 16)
  | .madv c adv rb roff npg => c.fits && decide (adv < 2 ^ 8) && decide (rb < 2 ^ 3) && decide (roff < 2 ^ 45) && decide (npg < 2 ^ 16)
  | .mhot c clr rb roff npg off => c.fits && decide (clr < 2 ^ 1) && decide (rb < 2 ^ 3) && decide (roff < 2 ^ 45) && decide (npg < 2 ^ 12) && decide (off < 2 ^ 18)
  | .mqry c rb roff npg off => c.fits && decide (rb < 2 ^ 3) && decide (roff < 2 ^ 45) && decide (npg < 2 ^ 12) && decide (off < 2 ^ 18)
  | .mabrt c rb roff npg => c.fits && decide (rb < 2 ^ 3) && decide (roff < 2 ^ 45) && decide (npg < 2 ^ 16)
  | .tkpost rd rs1 rs2 => decide (rd < 32) && decide (rs1 < 32) && decide (rs2 < 32)
  | .tkcncl rd rs1 rs2 => decide (rd < 32) && decide (rs1 < 32) && decide (rs2 < 32)
  | .tkstat rd rs1 rs2 => decide (rd < 32) && decide (rs1 < 32) && decide (rs2 < 32)
  | .tkrsm rd rs1 rs2 => decide (rd < 32) && decide (rs1 < 32) && decide (rs2 < 32)
  | .tkpark rd rs1 rs2 => decide (rd < 32) && decide (rs1 < 32) && decide (rs2 < 32)
  | .lnnew rd rs1 => decide (rd < 32) && decide (rs1 < 32)
  | .lncnt rd rs1 => decide (rd < 32) && decide (rs1 < 32)
  | .lncncl rd rs1 => decide (rd < 32) && decide (rs1 < 32)
  | .grcnt rd rs1 => decide (rd < 32) && decide (rs1 < 32)
  | .grcncl rd rs1 => decide (rd < 32) && decide (rs1 < 32)
  | .jbcnt rd rs1 => decide (rd < 32) && decide (rs1 < 32)
  | .jbcncl rd rs1 => decide (rd < 32) && decide (rs1 < 32)
  | .semrd rd rs1 => decide (rd < 32) && decide (rs1 < 32)
  | .semwr rd rs1 rs2 => decide (rd < 32) && decide (rs1 < 32) && decide (rs2 < 32)
  | .semsig rd rs1 rs2 => decide (rd < 32) && decide (rs1 < 32) && decide (rs2 < 32)
  | .barini rd rs1 rs2 => decide (rd < 32) && decide (rs1 < 32) && decide (rs2 < 32)
  | .bararv rd rs1 => decide (rd < 32) && decide (rs1 < 32)
  | .barwt rd rs1 rs2 => decide (rd < 32) && decide (rs1 < 32) && decide (rs2 < 32)
  | .fqpop rd rs1 => decide (rd < 32) && decide (rs1 < 32)
  | .fbrd rd rs1 => decide (rd < 32) && decide (rs1 < 32)
  | .stoprd rd rs1 rs2 => decide (rd < 32) && decide (rs1 < 32) && decide (rs2 < 32)
  | .ctxsv rd rs1 rs2 => decide (rd < 32) && decide (rs1 < 32) && decide (rs2 < 32)
  | .ctxrs rd rs1 rs2 => decide (rd < 32) && decide (rs1 < 32) && decide (rs2 < 32)
  | .tlbinv rd rs1 rs2 => decide (rd < 32) && decide (rs1 < 32) && decide (rs2 < 32)
  | .hinv rd rs1 rs2 => decide (rd < 32) && decide (rs1 < 32) && decide (rs2 < 32)
  | .stepctl rd rs1 rs2 => decide (rd < 32) && decide (rs1 < 32) && decide (rs2 < 32)
  | .wdset rd rs1 rs2 => decide (rd < 32) && decide (rs1 < 32) && decide (rs2 < 32)
  | .budset rd rs1 rs2 => decide (rd < 32) && decide (rs1 < 32) && decide (rs2 < 32)
  | .caprd rd rs1 => decide (rd < 32) && decide (rs1 < 32)
  | .cycrd rd => decide (rd < 32)
  | .thyrd rd rs1 rs2 => decide (rd < 32) && decide (rs1 < 32) && decide (rs2 < 32)
  | .pclcfg rd rs1 rs2 => decide (rd < 32) && decide (rs1 < 32) && decide (rs2 < 32)
  | .blockFetch e => e.fits
  | .encodingFault e => e.fits
  | .blockComplete e .. => e.fits
  | .forkJoin .. => true
  | .spawnAccept .. => true
  | .spawnRefusalRaise e => e.fits
  | .guardFaultRaise e => e.fits
  | .ringSlotTake e => e.fits
  | .ringEndSkip e => e.fits
  | .subTileDelivery .. => true
  | .pubSlotDrain .. => true
  | .pageWalk .. => true
  | .accessEntryFreed .. => true
  | .hotnessSample => true
  | .hotnessDecay => true
  | .promotion .. => true
  | .demotion .. => true
  | .migrationAccept .. => true
  | .chunkCopy .. => true
  | .commit .. => true
  | .migrationRelease .. => true
  | .migrationAbort .. => true
  | .abortComplete .. => true
  | .taskDispatch => true
  | .taskRestore => true
  | .contextSave .. => true
  | .taskPark .. => true
  | .taskComplete .. => true
  | .budgetExhausted .. => true
  | .watchdog .. => true
  | .slotAged e => e.fits
  | .haltLine .. => true
  | .engineStop e => e.fits
  | .slotRelease .. => true
  | .heldRecordWrite .. => true
  | .scrub .. => true
  | .linkFailure .. => true
  | .fatalError .. => true
  | .temperatureTrip => true
  | .powerMeasurement => true
  | .coldReset => true
  | .warmReset => true
  | .recoveryImage => true
  | .launchLine .. => true
  | .launchPageOtherWrite .. => true
  | .ringSlotReread .. => true
  | .mailboxMessage .. => true
  | .launchPacket .. => true
  | .graphPacket .. => true
  | .modelPacket .. => true
  | .signalPacket .. => true
  | .waitPacket .. => true
  | .waitPacketComplete .. => true
  | .pasnew => true
  | .pasdel => true
  | .qnew => true
  | .qdel => true
  | .hset => true
  | .grant => true
  | .mload => true
  | .munld => true
  | .dumpreg => true
  | .fwupd => true
  | .attest => true
  | .wreset => true
  | .peerWindowAccess .. => true
  | .partialLaunchLine .. => true
  | .illegalInstruction w => decide (w < 2 ^ 32) && decide (w % 128 = 0x0B)

def Instr.isBlock (i : Instr) : Bool := (lParts i).isSome || (sParts i).isSome

/-- A well-formed instruction: for a block, one that faults with no encoding cause in a chain of e at addr. -/
def wellFormed (e : Engine) (addr : Nat) (i : Instr) : Bool :=
  i.fits && (!i.isBlock || fetchCheck e addr i == none)

end Sys2Proof
end

