-- ==== Sys2Proof/Decode.lean ====
section
/-! DEFINITION. From words to instructions and back: control blocks (R17, R20, R21, R23, R26, R28 to R30),
X-forms (R49, R50). Decoding is total and rejects by cause. -/

namespace Sys2Proof

/-! ### The decoder -/

/-- DW1 and the issue-control bits of DW0 (R23, R26). -/
def decodeCtl (w0 w1 : Nat) : Ctl :=
  { fbar := bits w0 13 1, brk := bits w0 14 1, trc := bits w0 15 1, sbset := bits w0 16 4, sbwait := bits w0 20 15,
    wsem := bits w1 0 10, wcnt := bits w1 10 6, w2sem := bits w1 16 10, w2cnt := bits w1 26 6,
    ssem := bits w1 32 10, scnt := bits w1 42 6, s2sem := bits w1 48 10, s2cnt := bits w1 58 6 }

/-- The four words of a descriptor (R30). -/
def decodeDesc (wa wb wc wd : Nat) : Desc :=
  { space := bits wa 0 4, mod := bits wa 4 12, base := bits wa 16 48, st0 := bits wb 0 32, st1 := bits wb 32 32,
    st2 := bits wc 0 32, st3 := bits wc 32 32, seg := bits wd 0 16, ext2 := bits wd 16 16, pad := bits wd 32 16,
    aux := bits wd 48 16 }

/-- The doubleword k of a fetched block; a block has no doubleword beyond its form's size. -/
def dwAt (ws : List Nat) (k : Nat) : Nat := ws.getD k 0

/-- The fields of an L-form block (R23, R26, R28 to R30). -/
def decodeLBlk (ws : List Nat) : LBlk :=
  let w0 := dwAt ws 0
  let w2 := dwAt ws 2
  let w3 := dwAt ws 3
  { c := decodeCtl w0 (dwAt ws 1),
    opx := bits w0 56 8, mreg := bits w0 50 5, zm := bits w0 49 1, msk := bits w0 48 1, sat := bits w0 47 1,
    rm := bits w0 44 3, dfmt := bits w0 40 4, fmt := bits w0 36 4,
    cx := bits w2 51 13, rlvl := bits w2 49 2, lk := bits w2 48 1, next := bits w2 0 48,
    b0 := bits w3 0 16, b1 := bits w3 16 16, b2 := bits w3 32 16, b3 := bits w3 48 16,
    a := decodeDesc (dwAt ws 4) (dwAt ws 5) (dwAt ws 6) (dwAt ws 7),
    b := decodeDesc (dwAt ws 8) (dwAt ws 9) (dwAt ws 10) (dwAt ws 11),
    d := decodeDesc (dwAt ws 12) (dwAt ws 13) (dwAt ws 14) (dwAt ws 15) }

/-- SZ of DW0 (R17). -/
def szOf (w0 : Nat) : Nat := bits w0 12 1

/-- The block that the fields name, before any check but steps 1 to 3 of R21. -/
def rawDecode (addr : Nat) (ws : List Nat) : Except Cause Instr :=
  let w0 := dwAt ws 0
  let cls := bits w0 8 4
  let op := bits w0 0 8
  if szOf w0 = 1 ∧ addr % 128 ≠ 0 then .error .misalignedBlock
  else if 10 ≤ cls then .error .illegalClass
  else if szOf w0 = 1 then
    match lCtor cls op with
    | some k => .ok (k (decodeLBlk ws))
    | none => .error .illegalOpcode
  else
    match sCtor cls op (bits w0 56 8) (decodeCtl w0 (dwAt ws 1)) (dwAt ws 2) (dwAt ws 3) with
    | some i => if bits w0 56 8 < sOpxs cls op then .ok i else .error .illegalOpcode
    | none => .error .illegalOpcode

/-! ### The encoder -/

/-- DW0 (R23). -/
def encodeDw0 (cls op sz opx : Nat) (c : Ctl) (b : LBlk) : Nat :=
  wordOf [(8, op), (4, cls), (1, sz), (1, c.fbar), (1, c.brk), (1, c.trc), (4, c.sbset), (15, c.sbwait), (1, 0),
    (4, b.fmt), (4, b.dfmt), (3, b.rm), (1, b.sat), (1, b.msk), (1, b.zm), (5, b.mreg), (1, 0), (8, opx)]

/-- DW1 (R26). -/
def encodeDw1 (c : Ctl) : Nat :=
  wordOf [(10, c.wsem), (6, c.wcnt), (10, c.w2sem), (6, c.w2cnt), (10, c.ssem), (6, c.scnt), (10, c.s2sem), (6, c.s2cnt)]

/-- A descriptor's four words (R30). -/
def encodeDesc (x : Desc) : List Nat :=
  [wordOf [(4, x.space), (12, x.mod), (48, x.base)], wordOf [(32, x.st0), (32, x.st1)],
   wordOf [(32, x.st2), (32, x.st3)], wordOf [(16, x.seg), (16, x.ext2), (16, x.pad), (16, x.aux)]]

/-- The doublewords of a control block; an instruction that is no block has none. -/
def encode (i : Instr) : List Nat :=
  match lParts i with
  | some (cls, op, b) =>
    [encodeDw0 cls op 1 b.opx b.c b, encodeDw1 b.c, wordOf [(48, b.next), (1, b.lk), (2, b.rlvl), (13, b.cx)],
     wordOf [(16, b.b0), (16, b.b1), (16, b.b2), (16, b.b3)]] ++ encodeDesc b.a ++ encodeDesc b.b ++ encodeDesc b.d
  | none =>
    match sParts i with
    | some (cls, op, opx, c, p, q) => [encodeDw0 cls op 0 opx c default, encodeDw1 c, p, q]
    | none => []

/-- The 32-bit word of an X-form (R49). -/
def encodeX (i : Instr) : Option Nat :=
  match xParts i with
  | some (f3, f7, rd, rs1, rs2) => some (wordOf [(7, 0x0B), (5, rd), (3, f3), (5, rs1), (5, rs2), (7, f7)])
  | none => none

/-! ### The checked decoders -/

/-- Decodes a block fetched at addr for a chain of engine e, in the order of R21. A bit the form does not
use is found by encoding the block again: it is a reserved field (R22). -/
def decode (e : Engine) (addr : Nat) (ws : List Nat) : Except Cause Instr :=
  match rawDecode addr ws with
  | .error c => .error c
  | .ok i =>
    match firstFailing (headChecks e addr i ++ (decide (encode i = ws), .reservedField) :: fieldChecks addr i) with
    | some c => .error c
    | none => .ok i

/-- Decodes a custom-0 word. A word that names no X-form, or sets an unused register field, is the illegal
instruction of R50. -/
def decodeX (w : Nat) : Instr :=
  match xCtor (bits w 12 3) (bits w 25 7) (bits w 7 5) (bits w 15 5) (bits w 20 5) with
  | some i => if encodeX i = some w then i else .illegalInstruction w
  | none => .illegalInstruction w

/-- Decodes a block whose chain is not known: the first engine that accepts it. -/
def decodeAny (ws : List Nat) : Option Instr :=
  Engine.all.findSome? fun e => (decode e 0 ws).toOption

/-- The doublewords of a word numbered as spec/opcode_table.json numbers it. -/
def dwsOf (n w : Nat) : List Nat := (upto n).map fun k => bits w (64 * k) 64

/-- The instruction the decoder reads from an instruction whose bits are w. -/
def decodeTableWord (nbits w : Nat) : Option Instr :=
  if nbits ≤ 32 then
    (if w % 128 = 0x0B ∧ w < 2 ^ 32 then some (decodeX w) else none)
  else decodeAny (dwsOf (if szOf (bits w 0 64) = 1 then 16 else 4) w)

end Sys2Proof
end

