-- ==== Sys2Proof/Machine/Sparse.lean ====
section
/-! DEFINITION. Sparse storage in one canonical form: a list of (key, value) pairs with keys strictly rising
and no value equal to what an unlisted key reads as. Every storage of State but for queues is such a map. -/

namespace Sys2Proof

abbrev Map (α : Type) := List (Nat × α)

/-- The value at a key; d is what an unlisted key reads as. -/
def Map.get {α : Type} (d : α) : Map α → Nat → α
  | [], _ => d
  | (k, v) :: m, n => if n = k then v else Map.get d m n

/-- Writes a value, keeping the canonical form: writing d removes the entry. -/
def Map.set {α : Type} [DecidableEq α] (d : α) : Map α → Nat → α → Map α
  | [], n, v => if v = d then [] else [(n, v)]
  | (k, w) :: m, n, v =>
    if n < k then (if v = d then (k, w) :: m else (n, v) :: (k, w) :: m)
    else if n = k then (if v = d then m else (n, v) :: m)
    else (k, w) :: Map.set d m n v

/-- Keys rise strictly from lo on, and no entry equals d. -/
def Map.wfFrom {α : Type} [DecidableEq α] (d : α) : Nat → Map α → Bool
  | _, [] => true
  | lo, (k, v) :: m => decide (lo ≤ k) && decide (v ≠ d) && Map.wfFrom d (k + 1) m

/-- The canonical form. -/
def Map.wf {α : Type} [DecidableEq α] (d : α) (m : Map α) : Bool := Map.wfFrom d 0 m

/-- Keys rise strictly from lo on. -/
def Map.risingFrom {α : Type} : Nat → Map α → Prop
  | _, [] => True
  | lo, (k, _) :: m => lo ≤ k ∧ Map.risingFrom (k + 1) m

/-- Keys rise strictly: every key has one place. -/
def Map.rising {α : Type} (m : Map α) : Prop := Map.risingFrom 0 m

/-- Applies f to the value at a key. -/
def Map.upd {α : Type} [DecidableEq α] (d : α) (m : Map α) (n : Nat) (f : α → α) : Map α :=
  Map.set d m n (f (Map.get d m n))

/-- Memory: bytes by address. An unlisted byte reads as 0 (log 4). -/
abbrev Memory := Map Byte

def Memory.byte (m : Memory) (a : Nat) : Byte := Map.get 0 m a
def Memory.put (m : Memory) (a : Nat) (b : Byte) : Memory := Map.set 0 m a b

/-- The canonical form of a memory. -/
def Memory.wf (m : Memory) : Bool := Map.wf 0 m

/-- n bytes from address a upward. -/
def Memory.read (m : Memory) (a : Nat) : Nat → List Byte
  | 0 => []
  | n + 1 => Memory.byte m a :: Memory.read m (a + 1) n

/-- Writes bytes from address a upward. -/
def Memory.write (m : Memory) (a : Nat) : List Byte → Memory
  | [] => m
  | b :: bs => Memory.write (Memory.put m a b) (a + 1) bs

/-- An unsigned little-endian number of n bytes at a (R1). -/
def Memory.nat (m : Memory) (a n : Nat) : Nat :=
  match n with
  | 0 => 0
  | n + 1 => (Memory.byte m a).toNat + 256 * Memory.nat m (a + 1) n

/-- Bit i of the memory seen as one little-endian string of bits. -/
def Memory.bit (m : Memory) (i : Nat) : Nat := (Memory.byte m (i / 8)).toNat / 2 ^ (i % 8) % 2

/-- w bits from bit address i: an element of R33, packed formats included (R62, R72). -/
def Memory.bits (m : Memory) (i w : Nat) : Nat :=
  if i % 8 = 0 ∧ w % 8 = 0 then Memory.nat m (i / 8) (w / 8)
  else Memory.nat m (i / 8) ((i % 8 + w + 7) / 8) / 2 ^ (i % 8) % 2 ^ w

/-- Writes the n bytes of x at a. -/
def Memory.putNat (m : Memory) (a n x : Nat) : Memory :=
  match n with
  | 0 => m
  | n + 1 => Memory.putNat (Memory.put m a (BitVec.ofNat 8 x)) (a + 1) n (x / 256)

/-- Writes w bits at bit address i and leaves every other bit alone. -/
def Memory.putBits (m : Memory) (i w v : Nat) : Memory :=
  if i % 8 = 0 ∧ w % 8 = 0 then Memory.putNat m (i / 8) (w / 8) v
  else
    let a := i / 8
    let n := (i % 8 + w + 7) / 8
    let old := Memory.nat m a n
    let lo := old % 2 ^ (i % 8)
    let hi := old / 2 ^ (i % 8 + w)
    Memory.putNat m a n (lo + 2 ^ (i % 8) * (v % 2 ^ w) + 2 ^ (i % 8 + w) * hi)

end Sys2Proof
end

