-- ==== Sys2Proof/Machine/State.lean ====
section
/-! DEFINITION. The state of the module as plain data, the reasons a step stops, and the state after reset. -/

namespace Sys2Proof.Machine

/-- Why the machine stops. Every fault the spec describes is taken as a next state; these are not of them. -/
inductive Fault where
  /-- Raised by exec and step when a turn or an event names a tile, slot, cluster, die, tier sector, queue or
  table entry number that the module does not have (R9, R11, R14, R343). Safe: no such unit exists. -/
  | noSuchUnit
  deriving DecidableEq, Repr

/-- Why the model gives no answer. -/
inductive Refusal where
  /-- Raised by exec for a row of the opcode table whose meaning is not written. Safe. -/
  | notModelled (mnemonic : String)
  /-- Raised by step when a supervisor fetches a word that is no custom-0 instruction: its meaning is that of
  the RV64GC standard, which the scope leaves out. Safe. -/
  | rv64Instruction
  deriving DecidableEq, Repr

/-! ### Registers and tile-owned state -/

/-- A run-length register (R193): pairs of a 32-bit value and a count of 1 to 65,536. LEN and RC are the sum
of the counts and their number. lost: the runs whose duplicate has been dropped, plus 1, and 0 for the duplicate of
LEN, RC and TAG (R195); a write renews them all. -/
structure VReg where
  runs  : List (Nat × Nat) := []
  tag   : Nat := 0
  valid : Bool := false
  lost  : List Nat := []
  deriving DecidableEq, Repr, Inhabited

/-- A binding of a region: a semaphore that grants a read or a write right (R168). -/
structure Binding where
  sem   : Nat
  write : Bool
  deriving DecidableEq, Repr, Inhabited

/-- A declared region of the tp or wb share (R116, R168, R180). mode 1 to 6 as REGD codes it. -/
structure Region where
  mode  : Nat
  space : Nat
  off   : Nat
  len   : Nat
  b1    : Option Binding := none
  b2    : Option Binding := none
  deriving DecidableEq, Repr, Inhabited

/-- A tensor handle's descriptor as read once (R122). -/
structure Handle where
  base   : Nat := 0
  pad    : Nat := 0
  hpol   : Nat := 0
  layout : Nat := 0
  rank   : Nat := 1
  fmt    : Nat := 0
  ext    : List Nat := []
  str    : List Nat := []
  /-- The walk record of an LDW, read once at issue too (R133). -/
  record : Nat := 0
  deriving DecidableEq, Repr, Inhabited

/-- The states of a stream while its fork is outstanding (R137, R162). -/
inductive StreamState where
  | opened | held
  deriving DecidableEq, Repr, Inhabited

/-- A subscription or a pull stream on a ring: its block, snapshot and next iteration (R136, R161). -/
structure Stream where
  state  : StreamState := .opened
  block  : Nat
  body   : LBlk
  handle : Handle
  ctr    : Nat := 0
  /-- The slot whose count has been taken for the present iteration (R138, R162). -/
  took   : Option Nat := none
  /-- A PUBC has closed the stream, which finishes the slot it has taken (R163). -/
  closing : Bool := false
  deriving DecidableEq, Repr, Inhabited

/-- A declared ring (R171, R173, R181). Cursors are slot numbers below nslot. -/
structure Ring where
  reg    : Nat
  nslot  : Nat
  slot   : Nat
  fsem   : Nat
  esem   : Nat
  prod   : Nat
  pcur   : Nat := 0
  ccur   : Nat := 0
  tokens : Nat := 0
  sub    : Option Stream := none
  pull   : Option Stream := none
  deriving DecidableEq, Repr, Inhabited

/-- Read-modify-write operations performed at a home or pool (R154, R156, R185). -/
inductive Rmw where
  | add (fmt : Nat) (sat : Bool) | smin | smax | umin | umax | and | or | xor | xch | cas | fadd (rm : Nat)
  | fmin | fmax | postAdd | postMax | postWrite
  deriving DecidableEq, Repr, Inhabited

/-- What one access does to w bits of its place: write them, or combine them with x (and e for a
compare-and-swap), returning the old value to a bit of the tile pool where ret names one. -/
inductive HomeKind where
  | write (v : Nat)
  | rmw (f : Rmw) (x e : Nat) (ret : Option Nat)
  deriving DecidableEq, Repr, Inhabited

/-- One element of an access: w bits from bit address bit of the place. -/
structure HomeOp where
  bit  : Nat
  w    : Nat
  kind : HomeKind
  deriving DecidableEq, Repr, Inhabited

/-- One access of one iteration to one sector of device memory, or one word of a pool (R120, R149, R174).
hot: the page size, where the page samples its accesses (R278). rm: an rm operand named the pool. line: it is of an
STG, whose iteration may bring a launch line (R346). rel: it is a release, with its tile and its scope (R187). -/
structure Access where
  place : Place
  unit  : Nat
  va    : Nat := 0
  ctr   : Nat := 0
  hot   : Option Nat := none
  rm    : Bool := false
  line  : Bool := false
  rel   : Option (Nat × Nat) := none
  ops   : List HomeOp := []
  deriving DecidableEq, Repr, Inhabited

/-- A write to tile-owned state that becomes visible when its block completes (R89). -/
inductive TileWrite where
  | tp (bit w v : Nat)
  | wb (bit w v : Nat)
  | acc (cell v : Nat)
  | vreg (n : Nat) (r : VReg)
  deriving DecidableEq, Repr, Inhabited

/-- A right an uncompleted block holds on a region (R168). -/
structure Right where
  reg   : Nat
  write : Bool
  deriving DecidableEq, Repr, Inhabited

/-- A right on one slot of a ring (R171). -/
structure RingRight where
  ring  : Nat
  slot  : Nat
  write : Bool
  deriving DecidableEq, Repr, Inhabited

/-- Where an issued block stands: to be completed by BLOCK_COMPLETE; waiting inside for a ring slot; to run
on from its next iteration; stopped at a PARK fault; waiting for its Percolator or home work. -/
inductive Phase where
  | done | ring | run | parked | waiting
  deriving DecidableEq, Repr, Inhabited

/-- An issued block that has not completed (R88, R89, R312). ctr counts iterations in nest order; serial is the step
of its issue, by which the accesses it hands out at different times are one fork. cut: how many of its writes are of the
iterations before the last it has run. beaten: what blocks of the chain that are not ordered with it and completed while
it was in flight have overwritten (R91). stepped: it is the block of a step (R337). parked: it has written a PARK record
in this park (R334, R335). atPoint: it has come to its pre-emption point in this park (R332). lastAt: the step in which it
last began an iteration, 0 before its first (R251, R331). saved: it was in flight at a context switch (R92). since: writes of
later steps are not ordered before its reads (R188, R189). hot: HOT of the large page that its range is in (R288). -/
structure InFlight where
  addr    : Nat
  serial  : Nat := 0
  words   : List Nat
  instr   : Instr
  ctr     : Nat := 0
  phase   : Phase := .done
  rights  : List Right := []
  slots   : List RingRight := []
  taken   : List RingRight := []
  writes  : List TileWrite := []
  homes   : List Access := []
  handle  : Option Handle := none
  cut     : Nat := 0
  beaten  : List TileWrite := []
  stepped : Bool := false
  parked  : Bool := false
  atPoint : Bool := false
  lastAt  : Nat := 0
  saved   : Bool := false
  since   : Nat := 0
  hot     : Nat := 0
  deriving DecidableEq, Repr, Inhabited

/-- A part of a recorded footprint of check mode (R93): the bytes of a medium, the cells or the registers that the set bits
of mask name, bit 0 being the one at lo. -/
structure Foot where
  space : Nat
  lo    : Int
  mask  : Nat
  write : Bool
  deriving DecidableEq, Repr, Inhabited

/-- The footprint of one issued block, and the scoreboard slot whose use retires it. hold: the next block to issue is
ordered after it whatever slot it names. serial: the step of the block's issue. -/
structure Footprint where
  slot   : Nat
  hold   : Bool
  parts  : List Foot
  serial : Nat := 0
  deriving DecidableEq, Repr, Inhabited

/-- A translation fault met at fetch and held with the block (R87). -/
structure FetchFault where
  cause : Cause
  va    : Nat
  acc   : Nat := 4
  deriving DecidableEq, Repr, Inhabited

/-- A fetched block that has not issued. -/
structure Queued where
  addr  : Nat
  words : List Nat
  fault : Option FetchFault := none
  deriving DecidableEq, Repr, Inhabited

/-- A recorded guard fault (R117, R170). -/
structure Guard where
  bank  : Nat
  off   : Nat
  block : Nat
  ctr   : Nat
  rest  : Nat
  deriving DecidableEq, Repr, Inhabited

/-- A held SPAWN refusal (R107), and whether its fault has been raised. -/
structure SpawnRefusal where
  status : Nat
  block  : Nat
  recVa  : Nat
  raised : Bool := false
  deriving DecidableEq, Repr, Inhabited

/-- Why a chain's engine issues nothing: a PARK fault or a supervisor's park, a halt or cancel (R330, R303),
a breakpoint, a single step (R337), its own HALT fault. -/
inductive StopKind where
  | running | parked | halted | breakpoint | stepped
  deriving DecidableEq, Repr, Inhabited

/-- The chain of one engine (R87 to R100, R107, R170, R313, R337). Its scoreboard slots are those its
in-flight blocks hold. -/
structure Chain where
  present  : Bool := false
  retired  : Bool := false
  endFlag  : Bool := false
  cursor   : Nat := 0
  queue    : List Queued := []
  inflight : List InFlight := []
  guard    : Option Guard := none
  refusal  : Option SpawnRefusal := none
  stop     : StopKind := .running
  /-- The block at the cursor has been released from its breakpoint. -/
  passBrk  : Bool := false
  /-- A stepped engine has issued its block. -/
  stepBusy : Bool := false
  /-- A stepped engine has been released for one block and has not issued it (R337). -/
  stepDue  : Bool := false
  feet     : List Footprint := []
  lastBlk  : Nat := 0
  lastCtr  : Nat := 0
  /-- Its head block has written a PARK record in this park, at fetch or at issue (R318, R335). -/
  headParked : Bool := false
  /-- The value that the home of a watched word has reported for a block that has not issued (R142, R185). -/
  report : Option (Instr × Nat) := none
  /-- The step of the last event that orders what happened before it before the chain's next blocks (R188). -/
  since : Nat := 0
  /-- The widest scope of the chain's FENCEs that have completed: what it writes from then on is a release at it (R184). -/
  fence : Option Nat := none
  deriving DecidableEq, Repr, Inhabited

/-- What a slot holds for its task, and a frame keeps while the task is away (R11, R312, R313). The
remaining budget is none for a task that runs without one (R313). dirty lists the units of R314. -/
structure Ctx where
  tp      : Memory := []
  wb      : Memory := []
  acc     : Map Nat := []
  vregs   : Map VReg := []
  sems    : Map Nat := []
  regions : Map (Option Region) := []
  rings   : Map (Option Ring) := []
  lde     : Chain := {}
  mxe     : Chain := {}
  vxe     : Chain := {}
  ste     : Chain := {}
  rb      : List Nat := [0, 0, 0, 0, 0, 0, 0, 0]
  budget  : Option Int := none
  wdc     : Nat := 0
  step    : Bool := false
  dirty   : Map Bool := []
  deriving DecidableEq, Repr, Inhabited

/-- The latest stop record of an engine (R331). -/
structure StopRec where
  pasid  : Nat := 0
  acc    : Nat := 0
  tile   : Nat := 0
  slot   : Nat := 0
  eng    : Nat := 0
  orig   : Bool := false
  disp   : Disp := .halt
  cause  : Nat := 0
  task   : Nat := 0
  block  : Nat := 0
  ctr    : Nat := 0
  ret    : Bool := false
  endf   : Bool := false
  sbp    : Nat := 0
  tag    : Nat := 0
  forks  : Nat := 0
  cursor : Nat := 0
  time   : Nat := 0
  skid   : Nat := 0
  deriving DecidableEq, Repr, Inhabited

/-- One engine's place in a context slot: arbitration state of R307 and the latest stop record. -/
structure Lane where
  wait : Nat := 0
  aged : Option Nat := none
  stop : Option StopRec := none
  deriving DecidableEq, Repr, Inhabited

/-- A context slot (R11, R298, R307, R310). parking: a PARK fault has been taken and the task is to be
saved; inPlace: its record is held and the task is parked in place (R329); cancelled: its engines are
stopping under R303. KEY is the hashed-mode key of R115. The limit is used from the next counter reset. tested: by
semaphore, the cycle, plus 1, in which it was last tested (R167). -/
structure Slot where
  task      : Option Nat := none
  ctx       : Ctx := {}
  key       : Nat := 0
  lde       : Lane := {}
  mxe       : Lane := {}
  vxe       : Lane := {}
  ste       : Lane := {}
  wdLimit   : Nat := 2 ^ 32
  wdActive  : Nat := 2 ^ 32
  parking   : Bool := false
  inPlace   : Bool := false
  cancelled : Bool := false
  yielding  : Bool := false
  tested    : List (Nat × Nat) := []
  deriving DecidableEq, Repr, Inhabited

/-- An entry of a TLB (R118, R269): one version of a leaf entry. size is log2 of the page. -/
structure TlbEntry where
  pasid : Nat
  va    : Nat
  size  : Nat
  leaf  : Nat
  deriving DecidableEq, Repr, Inhabited

/-- A cached handle descriptor (R126). -/
structure HandleCopy where
  pasid : Nat
  index : Nat
  words : List Nat
  deriving DecidableEq, Repr, Inhabited

/-- What the slots of a tile share (R12, R114, R115, R307). ptr and last are by engine number: the
arbitration pointer and the cycle of the last grant plus one. -/
structure Tile where
  tlb       : List TlbEntry := []
  handles   : List HandleCopy := []
  accesses  : Nat := 0
  banksOut  : List Nat := []
  parityOut : List Nat := []
  hashed    : Bool := false
  ptr       : List Nat := [3, 3, 3, 3]
  last      : List Nat := [0, 0, 0, 0]
  deriving DecidableEq, Repr, Inhabited

/-! ### Work: tasks, forks, launches -/

/-- The task states of R298. -/
inductive TState where
  | new | pending | ready | resident | saved | parked | halted | complete | cancelled | refused
  deriving DecidableEq, Repr, Inhabited

def TState.num : TState → Nat
  | .new => 0 | .pending => 1 | .ready => 2 | .resident => 3 | .saved => 4 | .parked => 5 | .halted => 6
  | .complete => 7 | .cancelled => 8 | .refused => 9

/-- A posted task (R293 to R299). words holds the record's sixteen doublewords as read at posting. fresh:
it has not been dispatched, or parked during its first dispatch; remote: remote SEMS counts held (R179). -/
structure Task where
  pasid  : Nat := 0
  va     : Nat := 0
  words  : List Nat := []
  home   : Nat := 0
  state  : TState := .new
  since  : Nat := 0
  depcnt : Nat := 0
  place  : Option Nat := none
  saved  : Option Ctx := none
  fresh  : Bool := true
  stepped : Bool := false
  remote : Map Nat := []
  /-- What BUDSET has set while the task has no context (R323): none within some is to run without a budget. -/
  budget : Option (Option Int) := none
  /-- The cycle after that of the TKRSM that last resumed it (R316). -/
  resumed : Nat := 0
  deriving DecidableEq, Repr, Inhabited

/-- What a fork still has to do (R89, R107, R148). -/
inductive ForkKind where
  | mem (flying held : List Access)
  | spawn (recVa : Nat) (inherit : Bool)
  deriving DecidableEq, Repr, Inhabited

/-- A fork that has not joined: the task, its PASID and record, the engine, the block; pull: the ring of the pull stream
whose writes it holds (R162). -/
structure Fork where
  task   : Nat
  pasid  : Nat
  ref    : EngRef
  block  : Nat
  serial : Nat := 0
  pull   : Option Nat := none
  kind   : ForkKind
  deriving DecidableEq, Repr, Inhabited

/-- A launch or a graph (R300, R301). count is its counter; cause the failure cause; queue and index: the
host queue and the packet that made it, if one did. -/
structure Launch where
  gen     : Nat := 0
  live    : Bool := false
  isGraph : Bool := false
  pasid   : Nat := 0
  count   : Nat := 0
  cobj    : Nat := 0
  val     : Nat := 0
  graph   : Nat := 0
  failed  : Bool := false
  cause   : Nat := 0
  done    : Bool := false
  queue   : Option Nat := none
  index   : Nat := 0
  deriving DecidableEq, Repr, Inhabited

/-- A rendezvous point (R183). -/
structure Point where
  owner : Option Nat := none
  exp   : Nat := 0
  arr   : Nat := 0
  phase : Nat := 0
  deriving DecidableEq, Repr, Inhabited

/-! ### Faults -/

/-- A fault record (R326). -/
structure FaultRec where
  pasid  : Nat := 0
  acc    : Nat := 0
  tile   : Nat := 0
  slot   : Nat := 0
  eng    : Nat := 0
  agt    : Bool := false
  held   : Bool := false
  bg     : Bool := false
  prec   : Bool := true
  disp   : Disp := .halt
  cause  : Nat := 0
  task   : Nat := 0
  block  : Nat := 0
  ctr    : Nat := 0
  remain : Nat := 0
  fva    : Nat := 0
  time   : Nat := 0
  bank   : Nat := 0
  seq    : Nat := 0
  deriving DecidableEq, Repr, Inhabited

/-- The fault unit of a die (R328, R329): the buffer's base in LPDDR5X memory (log 43), its records by absolute place,
which places are free, head and tail as absolute places, the next SEQ, the held records with their clusters. last: the
cycle, tile and engine of the record that took the last SEQ. -/
structure FaultUnit where
  base  : Nat := 0
  recs  : Map FaultRec := []
  freed : Map Bool := []
  head  : Nat := 0
  tail  : Nat := 0
  seq   : Nat := 0
  held  : List (Nat × FaultRec) := []
  last  : Nat × Nat × Nat := (0, 0, 0)
  deriving DecidableEq, Repr, Inhabited

/-- An event of the Thyme recorder (R342). -/
structure ThymeEvent where
  time  : Nat
  pasid : Nat := 0
  tile  : Nat := 0
  slot  : Nat := 0
  eng   : Nat := 0
  kind  : Nat
  addr  : Nat := 0
  data  : Nat := 0
  deriving DecidableEq, Repr, Inhabited

/-! ### Translation and migration -/

/-- A PASID's context entry (R353) and the state of its job (R330). -/
structure Pasid where
  valid  : Bool := false
  root   : Nat := 0
  htable : Nat := 0
  hcount : Nat := 0
  /-- Handle base and length that take effect at the next HINV with ALL (R322). -/
  hnext  : Option (Nat × Nat) := none
  halted : Bool := false
  /-- The cause that raised the halt line, while engines still have to stop. -/
  haltBy : Nat := 0
  /-- A HALT cause has been taken and HALT_LINE is due. -/
  halting : Bool := false
  deriving DecidableEq, Repr, Inhabited

/-- The block that asked for a migration (R277). -/
structure Requester where
  ref   : EngRef
  task  : Nat
  pasid : Nat
  block : Nat
  sync  : Bool
  deriving DecidableEq, Repr, Inhabited

/-- A request in the Percolator's queue of a die (R272). -/
structure MigReq where
  die   : Nat
  pasid : Nat
  va    : Nat
  tier  : Tier
  by_   : Option Requester
  deriving DecidableEq, Repr, Inhabited

inductive MotionState where
  | moving | committing | aborted
  deriving DecidableEq, Repr, Inhabited

/-- A motion entry (R271, R272): leaf is the place of the leaf entry; own: the Percolator asked on its own. -/
structure Motion where
  pasid    : Nat
  va       : Nat
  srcTier  : Tier
  src      : Nat
  dstTier  : Tier
  dst      : Nat
  leafTier : Tier
  leaf     : Nat
  map      : Nat := 0
  state    : MotionState := .moving
  reason   : Nat := 0
  by_      : List Requester := []
  own      : Bool := false
  deriving DecidableEq, Repr, Inhabited

/-- A page whose move a synchronous requester waits on could not be moved; cause 0x180 + reason, until its block
sees it (R285). -/
structure AbortNote where
  va     : Nat
  reason : Nat
  who    : Requester
  deriving DecidableEq, Repr, Inhabited

/-- The frames of one tier the Percolator can hand out: next and the number left of a rising run, and
frames given back (R272, log 6). -/
structure FramePool where
  next  : Nat := 0
  left  : Nat := 0
  freed : List Nat := []
  deriving DecidableEq, Repr, Inhabited

/-- The parameters of automatic migration that are in force (R279, R280). -/
structure Policy where
  promo   : Nat := 192
  demo    : Nat := 8
  lowmark : Nat := 16
  auto    : Nat := 1
  deriving DecidableEq, Repr, Inhabited

/-- The Percolator (R271 to R280). hot and count are keyed by hotKey and home number. promo, demo, lowmark and auto are the
parameters as last written; policy holds those in force. -/
structure Percolator where
  queue    : List MigReq := []
  motions  : List Motion := []
  aborts   : List AbortNote := []
  hot      : Map Nat := []
  counts   : Map Nat := []
  due      : List Nat := []
  decayEnd : Nat := 15259 * 65536
  hbm      : FramePool := {}
  lpddr    : FramePool := {}
  cxl      : FramePool := {}
  promo    : Nat := 192
  demo     : Nat := 8
  decay    : Nat := 15259
  sample   : Nat := 4
  lowmark  : Nat := 16
  auto     : Nat := 1
  policy   : Policy := {}
  deriving DecidableEq, Repr, Inhabited

/-! ### Host interface -/

/-- A packet that has started and not completed (R349). wait: it is a WAIT, which holds the packets after it. -/
structure Started where
  index  : Nat
  dws    : List Nat
  wait   : Bool := false
  deriving DecidableEq, Repr, Inhabited

/-- A queue state block (R343) with the packets the front end holds: fetched ones by index, those that came
inline, those started. -/
structure Queue where
  present : Bool := false
  splice  : Bool := false
  live    : Bool := false
  ring    : Nat := 0
  pasid   : Nat := 0
  prio    : Nat := 0
  log     : Nat := 0
  head    : Nat := 0
  tail    : Nat := 0
  headva  : Nat := 0
  done    : Nat := 0
  rej     : Nat := 0
  lstat   : Nat := 0
  fetched : List (Nat × List Nat) := []
  started : List Started := []
  /-- NEXTQ as the walker read it when the queue left its list: the number of the queue that followed it plus 1, 0 for none
  (R344). -/
  nextq   : Nat := 0
  /-- Walker passes made when it left its list, plus 1; 0: it never has (R345). -/
  removed : Nat := 0
  deriving DecidableEq, Repr, Inhabited

/-- A resident model slot (R351). inst is the launch of the present invocation. -/
structure Model where
  loaded  : Bool := false
  version : Nat := 0
  object  : Nat := 0
  tasks   : List Nat := []
  inst    : Option Nat := none
  deriving DecidableEq, Repr, Inhabited

/-- A firmware image as core 4 sees it (R357): its version, and whether its signature verifies. -/
structure Image where
  version : Nat := 0
  genuine : Bool := true
  deriving DecidableEq, Repr, Inhabited

/-- Firmware, capability values and the rest of the management complex (R339, R341, R342, R355, R357, R359). -/
structure Management where
  tilesOut    : List Nat := []
  adminRing   : Nat := 0
  bar0        : Nat := 2 ^ 47
  clocks      : Nat := 0
  capacity    : Nat := 0
  outOfSvc    : Nat := 0
  corrected   : Nat := 0
  powerLimit  : Nat := 2800
  draw        : Nat := 0
  throttle    : Nat := 1
  image       : Image := {}
  nextImage   : Option Image := none
  firmware    : Option Nat := some 0
  rollback    : Nat := 0
  ready       : Bool := true
  walkerPass  : Nat := 0
  dump        : Option (Nat × Nat) := none
  dumps       : Nat := 0
  powered     : Bool := true
  warmResets  : Nat := 0
  resetCycle  : Nat := 0
  scrubPeriod : Nat := 172800000000000
  /-- The scrub period in which a sector was last read, plus 1, by poisonKey (R339). -/
  scrubbed    : Map Nat := []
  /-- Frames reported to management core 3 (R338): a tier's number and the frame's. -/
  frames      : List (Nat × Nat) := []
  /-- The memory where a dump goes when no buffer is registered (R341), by offset. -/
  reserve     : Memory := []
  mailboxes   : Map (List (List Nat)) := []
  core3Irqs   : Nat := 0
  msix        : List Nat := []
  notified    : Nat := 0
  deriving DecidableEq, Repr, Inhabited

/-- A cluster supervisor, an RV64GC hart (R291; log 5): x1 to x31, pc, privilege mode (0 user, 1 supervisor,
3 machine) and the trap registers. -/
structure Hart where
  regs    : Map Nat := []
  pc      : Nat := 0
  mode    : Nat := 3
  mstatus : Nat := 0
  mtvec   : Nat := 0
  mepc    : Nat := 0
  mcause  : Nat := 0
  mtval   : Nat := 0
  medeleg : Nat := 0
  stvec   : Nat := 0
  sepc    : Nat := 0
  scause  : Nat := 0
  stval   : Nat := 0
  /-- Pages of 4 KiB that the hart's own translation does not give: its software sets that up (log 5). -/
  barred  : List Nat := []
  deriving DecidableEq, Repr, Inhabited

/-- A write that a home has performed: its step, the unit where it was ordered, what the unit held before and after, its
elements, and its tile and scope where it was a release (R187, R189). -/
structure Past where
  step   : Nat
  place  : Place
  unit   : Nat
  before : Nat
  after  : Nat
  ops    : List HomeOp
  rel    : Option (Nat × Nat)
  deriving DecidableEq, Repr, Inhabited

/-- The state of the module. Tables are keyed: slots by slotKey, tasks by the number posting gave them,
points by cluster * 64 + point, granules by granuleKey, launches by index, poison by poisonKey. -/
structure State where
  /-- The MODEL's own (logs 1, 2): turns to come, steps taken, whose step this is. -/
  agenda      : List Pending := []
  steps       : Nat := 0
  ref         : EngRef := { tile := 0, slot := 0, eng := .lde }
  hart        : Nat := 0
  /-- The MODEL's own (logs 2, 33): the checks that fail in this turn's reads, and whether its agent leaves work to a
  later turn. -/
  env         : Env := {}
  cycle       : Nat := 0
  hbm         : Memory := []
  lpddr       : Memory := []
  cxl         : Memory := []
  host        : Memory := []
  clusterPool : Memory := []
  diePool     : Memory := []
  supmem      : Memory := []
  /-- The MODEL's own (log 54): what homes have written, the latest first, from which a read that is not ordered after a
  write may take the value before it (R189). -/
  history     : List Past := []
  poison      : Map Bool := []
  granules    : Map Nat := []
  /-- The PASID whose values a granule holds (R111). -/
  granuleFrom : Map Nat := []
  /-- Granules out of service (R338). -/
  granulesOut : Map Bool := []
  pasids      : Map Pasid := []
  tiles       : Map Tile := []
  clusterTlb  : Map (List TlbEntry) := []
  carafeTlb   : Map (List TlbEntry) := []
  slots       : Map Slot := []
  tasks       : Map Task := []
  nextTask    : Nat := 1
  forks       : List Fork := []
  launches    : Map Launch := []
  points      : Map Point := []
  dies        : Map FaultUnit := []
  faultQueues : Map (List (Nat × Nat)) := []
  faultIrqs   : Map Nat := []
  thyme       : List ThymeEvent := []
  perc        : Percolator := {}
  queues      : Map Queue := []
  runLists    : Map (List Nat) := []
  walkers     : Map Nat := []
  models      : Map Model := []
  mgmt        : Management := {}
  harts       : Map Hart := []
  deriving DecidableEq, Repr, Inhabited

/-- Frames the Percolator holds after reset (log 6). -/
def resetPool (top : Nat) : FramePool := { next := top - 4096 * 65536, left := 4096 }

/-- LPDDR5X memory that bring-up keeps below the Percolator's frames: the fault buffers of the four dies (R328, log 43). -/
def faultBase (die : Nat) : Nat := 2 ^ 40 - 2 ^ 28 - 2 ^ 20 + 2 ^ 18 * die

/-- LPDDR5X memory that bring-up keeps below the fault buffers for loaded objects, 64 MiB for each model slot (R351, log 51):
no PASID's page lies in it, so that a load touches none (R6). -/
def objectBytes : Nat := 2 ^ 26
def objectBase (slot : Nat) : Nat := 2 ^ 40 - 2 ^ 28 - 2 ^ 20 - 256 * objectBytes + objectBytes * slot

/-- The module after reset and bring-up (R310, R115, R280, R352, R355, R359; logs 3 to 6). -/
def State.reset : State where
  perc := { hbm := resetPool (768 * 2 ^ 30), lpddr := resetPool (2 ^ 40), cxl := resetPool (2 ^ 46) }
  dies := (upto 4).map fun d => (d, { base := faultBase d })
  queues := [(0, { present := true, live := true, log := 6 })]
  runLists := [(0, [0])]
  mgmt := { clocks := 2000 + 1500 * 2 ^ 16 + 1200 * 2 ^ 32, capacity := 768 + 1024 * 2 ^ 20 }

end Sys2Proof.Machine
end

