-- ==== Sys2Proof/Machine/Ops.lean ====
section
/-! DEFINITION. Named operations over the state: tables and registers, device memory and translation (R118,
R119, R267 to R269, R273), pools (R110, R174), the Thyme recorder (R342), fault and stop records (R326, R331),
taking a fault (R324, R328 to R332) and the supervisor's own exception (R50). -/

namespace Sys2Proof.Machine

/-! ### Tables -/

def State.slotAt (s : State) (tile slot : Nat) : Slot := Map.get {} s.slots (slotKey tile slot)
def State.setSlot (s : State) (tile slot : Nat) (x : Slot) : State :=
  { s with slots := Map.set {} s.slots (slotKey tile slot) x }
def State.updSlot (s : State) (tile slot : Nat) (f : Slot → Slot) : State := s.setSlot tile slot (f (s.slotAt tile slot))

def State.ctx (s : State) (r : EngRef) : Ctx := (s.slotAt r.tile r.slot).ctx
def State.setCtx (s : State) (r : EngRef) (c : Ctx) : State := s.updSlot r.tile r.slot fun x => { x with ctx := c }
def State.updCtx (s : State) (r : EngRef) (f : Ctx → Ctx) : State := s.setCtx r (f (s.ctx r))

def Ctx.chain (c : Ctx) : Engine → Chain
  | .lde => c.lde | .mxe => c.mxe | .vxe => c.vxe | .ste => c.ste
def Ctx.setChain (c : Ctx) (e : Engine) (h : Chain) : Ctx :=
  match e with
  | .lde => { c with lde := h } | .mxe => { c with mxe := h } | .vxe => { c with vxe := h } | .ste => { c with ste := h }
def Ctx.updChains (c : Ctx) (f : Engine → Chain → Chain) : Ctx :=
  { c with lde := f .lde c.lde, mxe := f .mxe c.mxe, vxe := f .vxe c.vxe, ste := f .ste c.ste }
def Ctx.chains (c : Ctx) : List Chain := [c.lde, c.mxe, c.vxe, c.ste]

def State.chain (s : State) (r : EngRef) : Chain := (s.ctx r).chain r.eng
def State.setChain (s : State) (r : EngRef) (h : Chain) : State := s.updCtx r fun c => c.setChain r.eng h
def State.updChain (s : State) (r : EngRef) (f : Chain → Chain) : State := s.setChain r (f (s.chain r))

def Slot.lane (x : Slot) : Engine → Lane
  | .lde => x.lde | .mxe => x.mxe | .vxe => x.vxe | .ste => x.ste
def Slot.setLane (x : Slot) (e : Engine) (l : Lane) : Slot :=
  match e with
  | .lde => { x with lde := l } | .mxe => { x with mxe := l } | .vxe => { x with vxe := l } | .ste => { x with ste := l }

def State.task (s : State) (n : Nat) : Task := Map.get {} s.tasks n
def State.setTask (s : State) (n : Nat) (t : Task) : State := { s with tasks := Map.set {} s.tasks n t }
def State.updTask (s : State) (n : Nat) (f : Task → Task) : State := s.setTask n (f (s.task n))

/-- The number of the task resident in an engine's slot; 0 names no task. -/
def State.taskOf (s : State) (r : EngRef) : Nat := ((s.slotAt r.tile r.slot).task).getD 0

def State.pasid (s : State) (p : Nat) : Pasid := Map.get {} s.pasids p
def State.setPasid (s : State) (p : Nat) (x : Pasid) : State := { s with pasids := Map.set {} s.pasids p x }
def State.tile (s : State) (t : Nat) : Tile := Map.get {} s.tiles t
def State.setTile (s : State) (t : Nat) (x : Tile) : State := { s with tiles := Map.set {} s.tiles t x }
def State.die (s : State) (d : Nat) : FaultUnit := Map.get {} s.dies d
def State.setDie (s : State) (d : Nat) (x : FaultUnit) : State := { s with dies := Map.set {} s.dies d x }
def State.launch (s : State) (i : Nat) : Launch := Map.get {} s.launches i
def State.setLaunch (s : State) (i : Nat) (l : Launch) : State := { s with launches := Map.set {} s.launches i l }
def State.point (s : State) (k : Nat) : Point := Map.get {} s.points k
def State.setPoint (s : State) (k : Nat) (p : Point) : State := { s with points := Map.set {} s.points k p }
def State.queue (s : State) (q : Nat) : Queue := Map.get {} s.queues q
def State.setQueue (s : State) (q : Nat) (x : Queue) : State := { s with queues := Map.set {} s.queues q x }
def State.model (s : State) (m : Nat) : Model := Map.get {} s.models m
def State.setModel (s : State) (m : Nat) (x : Model) : State := { s with models := Map.set {} s.models m x }
def State.hartAt (s : State) (c : Nat) : Hart := Map.get {} s.harts c
def State.setHart (s : State) (c : Nat) (h : Hart) : State := { s with harts := Map.set {} s.harts c h }

/-- A value the spec leaves open (log 2): the kth of this step. -/
def State.free (s : State) (k : Nat) : Nat := (Config.freeWord s.steps k).toNat
def State.freeBit (s : State) (k : Nat) : Bool := s.free k % 2 == 1

/-! ### Fields of a task's record (R293, R294) -/

def Task.dw (t : Task) (k : Nat) : Nat := t.words.getD k 0
def Task.headOf (t : Task) (e : Engine) : Nat := bits (t.dw e.num) 0 57
def Task.needTp (t : Task) : Nat := 256 * bits (t.dw 4) 0 11
def Task.needWb (t : Task) : Nat := 4096 * bits (t.dw 4) 16 5
def Task.needVreg (t : Task) : Nat := bits (t.dw 4) 24 6
def Task.needRows (t : Task) : Nat := bits (t.dw 4) 32 7
def Task.needSem (t : Task) : Nat := bits (t.dw 4) 40 9
def Task.paramLen (t : Task) : Nat := bits (t.dw 4) 52 10
def Task.deadline (t : Task) : Nat := t.dw 5
def Task.budgetUnits (t : Task) : Nat := bits (t.dw 6) 0 32
/-- The budget of a fresh task in cycles; none runs without one (R308). -/
def Task.fullBudget (t : Task) : Option Int := if t.budgetUnits = 0 then none else some ((t.budgetUnits * 1024 : Nat) : Int)
def Task.prio (t : Task) : Nat := bits (t.dw 6) 32 2
def Task.check (t : Task) : Bool := bitAt (t.dw 6) 34
def Task.priv (t : Task) : Bool := bitAt (t.dw 6) 35
def Task.stepBit (t : Task) : Bool := bitAt (t.dw 6) 36
def Task.succ (t : Task) : Nat := t.dw 7
def Task.launchId (t : Task) : Nat := bits (t.dw 8) 0 32
def Task.aff (t : Task) : Nat := bits (t.dw 8) 32 32
def Task.seminit (t : Task) : Nat := t.dw 9
def Task.param (t : Task) : Nat := t.dw 10
def Task.reloc (t : Task) : Nat := t.dw 11
def Task.frame (t : Task) : Nat := bits (t.dw 12) 19 38 * 2 ^ 19

/-- Live: not complete, cancelled or refused (R298). -/
def TState.live : TState → Bool
  | .pending => true | .ready => true | .resident => true | .saved => true | .parked => true | .halted => true
  | _ => false

def engRef (tile slot : Nat) (e : Engine) : EngRef := { tile := tile, slot := slot, eng := e }

/-! ### Vector registers, cells, semaphores, pools of a slot -/

def Ctx.vreg (c : Ctx) (n : Nat) : VReg := Map.get {} c.vregs n
def Ctx.setVreg (c : Ctx) (n : Nat) (r : VReg) : Ctx := { c with vregs := Map.set {} c.vregs n r }
/-- An accumulator cell at row * 64 + column. -/
def Ctx.cell (c : Ctx) (k : Nat) : Nat := Map.get 0 c.acc k
def Ctx.setCell (c : Ctx) (k v : Nat) : Ctx := { c with acc := Map.set 0 c.acc k v }
def Ctx.sem (c : Ctx) (n : Nat) : Nat := Map.get 0 c.sems n
def Ctx.setSem (c : Ctx) (n v : Nat) : Ctx := { c with sems := Map.set 0 c.sems n v }
def Ctx.region (c : Ctx) (n : Nat) : Option Region := Map.get none c.regions n
def Ctx.setRegion (c : Ctx) (n : Nat) (r : Option Region) : Ctx := { c with regions := Map.set none c.regions n r }
def Ctx.ring (c : Ctx) (n : Nat) : Option Ring := Map.get none c.rings n
def Ctx.setRing (c : Ctx) (n : Nat) (r : Option Ring) : Ctx := { c with rings := Map.set none c.rings n r }
def Ctx.rbAt (c : Ctx) (k : Nat) : Nat := c.rb.getD k 0

/-- LEN and RC of a register (R193). -/
def VReg.len (r : VReg) : Nat := (r.runs.map (·.2)).sum
def VReg.rc (r : VReg) : Nat := r.runs.length

/-- Units of R314: registers 0 to 31, groups of 8 accumulator rows from 32, tile pool lines from 64,
weight buffer lines from 2048. -/
def Ctx.mark (c : Ctx) (u : Nat) : Ctx := { c with dirty := Map.set false c.dirty u true }
def tpUnit (off : Nat) : Nat := 64 + off / 256
def wbUnit (off : Nat) : Nat := 2048 + off / 4096
def accUnit (cell : Nat) : Nat := 32 + cell / 512

/-- Makes one write to tile-owned state. An element may reach into the next unit, as one of L6 does (R72): both are marked. -/
def Ctx.apply (c : Ctx) : TileWrite → Ctx
  | .tp b w v => ({ c with tp := Memory.putBits c.tp b w v }.mark (tpUnit (b / 8))).mark (tpUnit ((b + w - 1) / 8))
  | .wb b w v => ({ c with wb := Memory.putBits c.wb b w v }.mark (wbUnit (b / 8))).mark (wbUnit ((b + w - 1) / 8))
  | .acc k v => (c.setCell k v).mark (accUnit k)
  | .vreg n r => (c.setVreg n r).mark n

def Ctx.applyAll (c : Ctx) (ws : List TileWrite) : Ctx := ws.foldl Ctx.apply c

/-- Adds to a semaphore unless the count would pass 65,535 (R166). -/
def Ctx.addSem (c : Ctx) (n k : Nat) : Option Ctx :=
  if 65535 < c.sem n + k then none else some (c.setSem n (c.sem n + k))

/-! ### Places of memory -/

def State.tierMem (s : State) : Tier → Memory
  | .hbm => s.hbm | .lpddr => s.lpddr | .cxl => s.cxl | .host => s.host
def State.setTierMem (s : State) (t : Tier) (m : Memory) : State :=
  match t with
  | .hbm => { s with hbm := m } | .lpddr => { s with lpddr := m } | .cxl => { s with cxl := m } | .host => { s with host := m }

def pageBytes : Nat := 65536

/-- The motion entry whose source page holds an address (R271). -/
def State.motionAt (s : State) (t : Tier) (a : Nat) : Option Motion :=
  s.perc.motions.find? fun m => m.srcTier == t && m.src == a / pageBytes * pageBytes

/-- Where an access to a tier address is ordered (R273, R275): at the destination of a committing page. -/
def State.serveAt (s : State) (t : Tier) (a : Nat) : Tier × Nat :=
  match s.motionAt t a with
  | some m => if m.state = .committing then (m.dstTier, m.dst + a % pageBytes) else (t, a)
  | none => (t, a)

/-- The second copy that a write at an address must also reach: its chunk has been copied (R273). -/
def State.forwardTo (s : State) (t : Tier) (a : Nat) : Option (Tier × Nat) :=
  match s.motionAt t a with
  | some m => if m.state = .moving ∧ bitAt m.map (a % pageBytes / 2048) then some (m.dstTier, m.dst + a % pageBytes) else none
  | none => none

/-- Key of a poisoned sector of a tier, or of a poisoned 8-byte word of a pool. -/
def poisonKey (p : Place) (unit : Nat) : Nat :=
  unit * 8 + match p with | .tier t => t.num | .clusterPool => 4 | .diePool => 5 | .launchPage => 6 | .peer => 7

/-- Bytes of one access unit: a sector, or a pool word. -/
def unitBytes : Place → Nat
  | .clusterPool => 8 | .diePool => 8 | _ => 32

/-- Is the byte at an address of a place poisoned, where its accesses are ordered? -/
def State.poisoned (s : State) (p : Place) (a : Nat) : Bool :=
  match p with
  | .tier t => let (t', a') := s.serveAt t a; Map.get false s.poison (poisonKey (.tier t') (a' / 32))
  | .clusterPool => Map.get false s.poison (poisonKey p (a / 8))
  | .diePool => Map.get false s.poison (poisonKey p (a / 8))
  | _ => false

def State.setPoison (s : State) (p : Place) (unit : Nat) (b : Bool) : State :=
  { s with poison := Map.set false s.poison (poisonKey p unit) b }

/-- The 64-bit words a read of a launch register page delivers: HEAD and TAIL at offset 0, zero elsewhere
(R346). a is the offset in BAR0. -/
def State.launchBits (s : State) (bit w : Nat) : Nat :=
  let q := s.queue (bit / 8 / 4096)
  (q.head % 2 ^ 64 + 2 ^ 64 * (q.tail % 2 ^ 64)) / 2 ^ (bit % 32768) % 2 ^ w

/-- w bits from bit address bit of a place, as its home delivers them. A peer's memory is not this
module's state: its values are free (log 2). -/
def State.readBits (s : State) (p : Place) (bit w : Nat) : Nat :=
  match p with
  | .tier t => let (t', a') := s.serveAt t (bit / 8); Memory.bits (s.tierMem t') (a' * 8 + bit % 8) w
  | .clusterPool => Memory.bits s.clusterPool bit w
  | .diePool => Memory.bits s.diePool bit w
  | .launchPage => s.launchBits bit w
  | .peer => s.free (2 ^ 80 + bit) % 2 ^ w

/-- The place and unit at which the accesses to a unit are ordered. -/
def State.homeUnit (s : State) (p : Place) (unit : Nat) : Place × Nat :=
  match p with
  | .tier t => let (t', x) := s.serveAt t (unit * 32); (.tier t', x / 32)
  | p => (p, unit)

/-- What a unit of a tier or a pool holds. -/
def State.unitBits (s : State) (p : Place) (unit : Nat) : Nat :=
  match p with
  | .tier t => Memory.bits (s.tierMem t) (unit * 256) 256
  | .clusterPool => Memory.bits s.clusterPool (unit * 64) 64
  | .diePool => Memory.bits s.diePool (unit * 64) 64
  | .launchPage => 0
  | .peer => 0

/-- Sets what a unit of a tier or a pool holds. -/
def State.putUnit (s : State) (p : Place) (unit v : Nat) : State :=
  match p with
  | .tier t => s.setTierMem t (Memory.putBits (s.tierMem t) (unit * 256) 256 v)
  | .clusterPool => { s with clusterPool := Memory.putBits s.clusterPool (unit * 64) 64 v }
  | .diePool => { s with diePool := Memory.putBits s.diePool (unit * 64) 64 v }
  | .launchPage => s
  | .peer => s

/-- Writes w bits of a place where its accesses are ordered, and forwards them to a copied chunk's second
copy (R273). Launch lines and peers are served elsewhere. A forwarded part of a sector that the copied chunk holds poisoned
leaves that poison, and brings no abort 0x181 of itself: R276 names an uncorrectable error met at the destination and leaves
open whether such a write meets one (DESIGN CHOICE, log 55). -/
def State.writeBits (s : State) (p : Place) (bit w v : Nat) : State :=
  match p with
  | .tier t =>
    let put (s : State) (t : Tier) (a : Nat) := s.setTierMem t (Memory.putBits (s.tierMem t) (a * 8 + bit % 8) w v)
    let (t', a') := s.serveAt t (bit / 8)
    let s1 := put s t' a'
    match s.forwardTo t (bit / 8) with
    | some (t2, a2) => put s1 t2 a2
    | none => s1
  | .clusterPool => { s with clusterPool := Memory.putBits s.clusterPool bit w v }
  | .diePool => { s with diePool := Memory.putBits s.diePool bit w v }
  | .launchPage => s
  | .peer => s

/-! ### The Thyme recorder (R342) -/

def State.log (s : State) (e : ThymeEvent) : State := { s with thyme := (e :: s.thyme).take 4096 }

/-! ### Page tables and TLBs (R118, R267 to R269) -/

/-- A translation: the leaf entry, log2 of its page, and where the entry stands. -/
structure Walk where
  leaf : Nat
  size : Nat
  tier : Tier
  addr : Nat
  deriving DecidableEq, Repr, Inhabited

/-- An entry of a table, read at its home. -/
def State.entryAt (s : State) (t : Tier) (a : Nat) : Nat := s.readBits (.tier t) (a * 8) 64

/-- Checks of R269 on a leaf whose page has 2^size bytes. -/
def leafOk (size e : Nat) : Bool :=
  let frame := bits e 16 32 * 65536
  let tier := bits e 60 2
  bits e 48 3 == 0 && bits e 0 16 == 0 && decide (bits e 54 3 ≤ 3) && frame % 2 ^ size == 0 &&
  (tier != 0 || decide (frame + 2 ^ size ≤ 768 * 2 ^ 30)) && (tier != 1 || decide (frame + 2 ^ size ≤ 2 ^ 40))

/-- Checks of R269 on a pointer to the next table. -/
def nodeOk (e : Nat) : Bool := bits e 48 12 == 0 && bits e 0 8 == 0 && decide (bits e 60 2 ≤ 1)

/-- log2 of the page a leaf of a level maps. -/
def leafSize : Nat → Nat
  | 0 => 16 | 1 => 21 | _ => 30

/-- Index of a VA at a level (R267). -/
def vaIndex (level va : Nat) : Nat :=
  match level with
  | 0 => bits va 16 5 | 1 => bits va 21 9 | 2 => bits va 30 9 | _ => bits va 39 18

/-- Walks from the table of a level down. An entry in a poisoned sector is not delivered (R339). -/
def State.walkFrom (s : State) (va : Nat) : Nat → Tier → Nat → Except Cause Walk
  | 0, t, a =>
    let e := s.entryAt t (a + 8 * vaIndex 0 va)
    if s.poisoned (.tier t) (a + 8 * vaIndex 0 va) then .error .poison
    else if !bitAt e 63 then .error .notPresent
    else if !bitAt e 62 || !leafOk 16 e then .error .tableMalformed
    else .ok { leaf := e, size := 16, tier := t, addr := a + 8 * vaIndex 0 va }
  | level + 1, t, a =>
    let e := s.entryAt t (a + 8 * vaIndex (level + 1) va)
    if s.poisoned (.tier t) (a + 8 * vaIndex (level + 1) va) then .error .poison
    else if !bitAt e 63 then .error .notPresent
    else if bitAt e 62 then
      (if level + 1 = 3 || !leafOk (leafSize (level + 1)) e then .error .tableMalformed
       else .ok { leaf := e, size := leafSize (level + 1), tier := t, addr := a + 8 * vaIndex (level + 1) va })
    else if !nodeOk e then .error .tableMalformed
    else s.walkFrom va level (Tier.ofNum (bits e 60 2)) (bits e 8 40 * 256)

/-- The walk of a PASID's tables. The root's tier stands in bits [61:60] of its address (log 8). -/
def State.walk (s : State) (pasid va : Nat) : Except Cause Walk :=
  let p := s.pasid pasid
  if !p.valid then .error .pasidInvalid
  else if vaLimit ≤ va then .error .permission
  else s.walkFrom va 3 (Tier.ofNum (bits p.root 60 2)) (bits p.root 0 48)

/-- The TLB entry for a VA, if one is held. -/
def tlbFind (tlb : List TlbEntry) (pasid va : Nat) : Option TlbEntry :=
  tlb.find? fun e => e.pasid == pasid && e.va == va / 2 ^ e.size * 2 ^ e.size

/-- A translation as an access through some TLBs sees it: the first entry held, else a walk (R118). -/
def State.lookup (s : State) (tlbs : List (List TlbEntry)) (pasid va : Nat) : Except Cause (Nat × Nat) :=
  if !(s.pasid pasid).valid then .error .pasidInvalid
  else if vaLimit ≤ va then .error .permission
  else
    match tlbs.findSome? (tlbFind · pasid va) with
    | some e => .ok (e.leaf, e.size)
    | none => (s.walk pasid va).map fun w => (w.leaf, w.size)

def State.tileTlbs (s : State) (tile : Nat) : List (List TlbEntry) :=
  [(s.tile tile).tlb, Map.get [] s.clusterTlb (clusterOf tile)]

/-- BAR0 holds the launch pages of 4,096 queues (R346, R356). -/
def bar0Bytes : Nat := 2 ^ 24

/-- The place and address a leaf gives for a VA (R268). A launch page's address is its offset in BAR0. A TIER 2 frame from
64 TiB up to the peer windows at 2^47 lies beyond the CXL memory of R14, and neither R269 nor R356 gives an outcome for it: the
model takes it as ordinary CXL memory (DESIGN CHOICE, log 41). -/
def placeOf (bar0 leaf size va : Nat) : Place × Nat :=
  let a := bits leaf 16 32 * 65536 + va % 2 ^ size
  match bits leaf 60 2 with
  | 0 => (.tier .hbm, a)
  | 1 => (.tier .lpddr, a)
  | 2 => if bitAt leaf 47 then (.peer, a) else (.tier .cxl, a)
  | _ => if bar0 ≤ a ∧ a < bar0 + bar0Bytes then (.launchPage, a - bar0) else (.tier .host, a)

/-- What an access does to its page. -/
inductive AccessKind where
  | read | write | atomic | fetch
  deriving DecidableEq, Repr

/-- ACC of R326. -/
def AccessKind.acc : AccessKind → Nat
  | .read => 1 | .write => 2 | .atomic => 3 | .fetch => 4

/-- ACC of a fault met while an address is translated: 5 where an entry of a table is malformed or poisoned (log 44). -/
def AccessKind.walkAcc (k : AccessKind) (c : Cause) : Nat := if c = .tableMalformed ∨ c = .poison then 5 else k.acc

/-- A translated address, and whether accesses to its page are sampled for hotness. -/
structure Phys where
  place : Place
  addr  : Nat
  hs    : Bool
  leaf  : Nat
  size  : Nat
  deriving DecidableEq, Repr, Inhabited

/-- Translates for an access (R118, R119, R150, R269). -/
def State.translateVia (s : State) (tlbs : List (List TlbEntry)) (pasid va : Nat) (k : AccessKind) : Except Cause Phys :=
  match s.lookup tlbs pasid va with
  | .error c => .error c
  | .ok (leaf, size) =>
    if (k = .write ∨ k = .atomic) ∧ !bitAt leaf 52 then .error .permission
    else if k = .fetch ∧ !bitAt leaf 51 then .error .permission
    else
      let (p, a) := placeOf s.mgmt.bar0 leaf size va
      .ok { place := p, addr := a, hs := bitAt leaf 53, leaf := leaf, size := size }

def State.translate (s : State) (tile pasid va : Nat) (k : AccessKind) : Except Cause Phys :=
  s.translateVia (s.tileTlbs tile) pasid va k

/-- A translation made without a TLB: by a scheduler, the front end or a fresh walk. PASID 0 is that of the
administrative queue, whose addresses are host addresses (log 10). -/
def State.translateNow (s : State) (pasid va : Nat) (k : AccessKind) : Except Cause Phys :=
  if pasid = 0 then
    (if va < 2 ^ 48 then .ok { place := .tier .host, addr := va, hs := false, leaf := 0, size := 16 } else .error .permission)
  else s.translateVia [] pasid va k

/-- The 32-byte sectors that n bytes from an address touch. -/
def sectorsOf (a n : Nat) : List Nat := (upto ((a + n + 31) / 32 - a / 32)).map (· + a / 32)

/-- Do n bytes from an address cover a sector whole? -/
def coversSector (a n k : Nat) : Bool := decide (a ≤ 32 * k) && decide (32 * k + 32 ≤ a + n)

/-- n little-endian bytes of one page; a poisoned sector among them is not delivered (R339). -/
def State.readPart (s : State) (pasid va n : Nat) : Except Cause Nat :=
  match s.translateNow pasid va .read with
  | .error c => .error c
  | .ok p =>
    if (sectorsOf p.addr n).any fun k => s.poisoned p.place (32 * k) then .error .poison
    else .ok (s.readBits p.place (p.addr * 8) (n * 8))

/-- Bytes from a VA to the end of its page of 64 KiB. -/
def toPageEnd (va : Nat) : Nat := pageBytes - va % pageBytes

/-- n little-endian bytes at a VA read by the scheduler or the front end, at most a page of them, or the cause that prevents
it. Bytes on two pages are translated on each (DEDUCED, log 42). -/
def State.readVaE (s : State) (pasid va n : Nat) : Except Cause Nat :=
  let m := toPageEnd va
  if n ≤ m then s.readPart pasid va n
  else
    match s.readPart pasid va m, s.readPart pasid (va + m) (n - m) with
    | .error c, _ => .error c
    | _, .error c => .error c
    | .ok x, .ok y => .ok (x + 2 ^ (8 * m) * y)

/-- As readVaE, none if the bytes cannot be read. -/
def State.readVa (s : State) (pasid va n : Nat) : Option Nat := (s.readVaE pasid va n).toOption

/-- The n doublewords from a VA, none if one cannot be read. -/
def State.readDws (s : State) (pasid va : Nat) : Nat → Option (List Nat)
  | 0 => some []
  | n + 1 =>
    match s.readVa pasid va 8, s.readDws pasid (va + 8) n with
    | some x, some xs => some (x :: xs)
    | _, _ => none

/-- The poison of a sector of a tier goes, where its accesses are ordered, with its event. -/
def State.cleanSector (s : State) (p : Place) (k : Nat) : State :=
  match p with
  | .tier t =>
    let (t', a') := s.serveAt t (32 * k)
    if Map.get false s.poison (poisonKey (.tier t') (a' / 32)) then
      (s.setPoison (.tier t') (a' / 32) false).log { time := s.cycle, kind := 0x13, addr := a' }
    else s
  | _ => s

/-- Sectors that n bytes from an address cover whole: their poison goes (R164). -/
def State.cleanSectors (s : State) (p : Place) (a n : Nat) : State :=
  ((sectorsOf a n).filter (coversSector a n)).foldl (fun s k => s.cleanSector p k) s

/-- Writes n bytes of one page: not into part of a poisoned sector (R164), nor a launch page. whole: the write is one of a
stretch that covers every sector it touches. -/
def State.writePart (s : State) (whole : Bool) (pasid va n v : Nat) : Option State :=
  match s.translateNow pasid va .write with
  | .error _ => none
  | .ok p =>
    let s1 := if whole then (sectorsOf p.addr n).foldl (fun s k => s.cleanSector p.place k) s else s.cleanSectors p.place p.addr n
    if (sectorsOf p.addr n).any (fun k => s1.poisoned p.place (32 * k)) || p.place == .launchPage then none
    else some (s1.writeBits p.place (p.addr * 8) (n * 8) v)

/-- Writes n bytes at a VA for the scheduler or the front end, at most a page of them, none of them where some cannot be
written. -/
def State.writeVa (s : State) (pasid va n v : Nat) (whole : Bool := false) : Option State :=
  let m := toPageEnd va
  if n ≤ m then s.writePart whole pasid va n v
  else (s.writePart whole pasid va m (v % 2 ^ (8 * m))).bind fun s1 => s1.writePart whole pasid (va + m) (n - m) (v / 2 ^ (8 * m))

/-! ### Pools (R110, R111, R174) -/

def granuleKey (p : Place) (a : Nat) : Nat := a / granuleBytes + (if p = .diePool then 2 ^ 20 else 0)
/-- The PASID that owns the granule of a pool byte; PASID 0 owns none (R352). -/
def State.granuleOwner (s : State) (p : Place) (a : Nat) : Nat := Map.get 0 s.granules (granuleKey p a)

/-! ### Time -/

/-- dt cycles pass in a slot: its watchdog counter runs, its budget falls by its engines with issued blocks
(R308, R310). Neither runs for a task held in place, nor the budget for an engine stopped at a breakpoint or by a step
(R336). -/
def Slot.tick (x : Slot) (dt : Nat) : Slot :=
  if x.task.isNone || x.inPlace then x
  else
    let n := (x.ctx.chains.filter fun h => !h.inflight.isEmpty && h.stop != .breakpoint && h.stop != .stepped).length
    { x with ctx := { x.ctx with wdc := x.ctx.wdc + dt, budget := x.ctx.budget.map fun v => v - (dt * n : Nat) } }

/-- dt cycles pass; the walker makes some passes of its lists, how many is open (R355, log 2). -/
def State.tick (s : State) (dt : Nat) : State :=
  if dt = 0 then s
  else { s with cycle := (s.cycle + dt) % 2 ^ 64, slots := s.slots.map fun (k, x) => (k, x.tick dt),
                mgmt := { s.mgmt with walkerPass := (s.mgmt.walkerPass + s.free (2 ^ 29 + 4) % (dt + 1)) % 2 ^ 64 } }

/-! ### Records -/

/-- The eight doublewords of a fault record (R326). -/
def FaultRec.dws (f : FaultRec) : List Nat :=
  [ wordOf [(10, f.cause), (2, f.disp.num), (1, ofBool f.prec), (1, ofBool f.bg), (1, ofBool f.held), (1, ofBool f.agt),
      (2, f.eng), (2, f.slot), (9, f.tile), (3, f.acc), (20, f.pasid), (12, 0)],
    wordOf [(57, f.task)], wordOf [(57, f.block)], f.ctr % 2 ^ 64, f.remain % 2 ^ 64, f.fva % 2 ^ 64, f.time % 2 ^ 64,
    wordOf [(32, f.seq), (5, f.bank)] ]

/-- The eight doublewords of a stop record (R331). -/
def StopRec.dws (f : StopRec) : List Nat :=
  [ wordOf [(10, f.cause), (2, f.disp.num), (1, ofBool f.orig), (3, 0), (2, f.eng), (2, f.slot), (9, f.tile), (3, f.acc),
      (20, f.pasid), (12, 0)],
    wordOf [(57, f.task)], wordOf [(57, f.block)], f.ctr % 2 ^ 64,
    wordOf [(16, min f.forks 65535), (16, f.tag), (15, f.sbp), (1, ofBool f.endf), (1, ofBool f.ret)],
    wordOf [(57, f.cursor)], f.time % 2 ^ 64, wordOf [(16, f.skid)] ]

/-- The four doublewords of a Thyme event (R342). -/
def ThymeEvent.dws (e : ThymeEvent) : List Nat :=
  [ e.time % 2 ^ 64,
    wordOf [(16, e.kind), (2, e.eng), (2, e.slot), (9, e.tile), (3, 0), (20, e.pasid), (12, 0)],
    e.addr % 2 ^ 64, e.data % 2 ^ 64 ]

/-- Where a record stands in device memory: the buffer is a ring of 4,096 records from its base (R328). -/
def FaultUnit.addrOf (u : FaultUnit) (k : Nat) : Nat := u.base + 64 * (k % 4096)

/-- A record's 64 bytes as one number. -/
def FaultRec.bytes (f : FaultRec) : Nat := f.dws.foldr (fun w n => w + 2 ^ 64 * n) 0

/-- Writes the record of a place into device memory, two whole sectors (R164). -/
def State.storeRecord (s : State) (die k : Nat) (f : FaultRec) : State :=
  let a := (s.die die).addrOf k
  { s.cleanSectors (.tier .lpddr) a 64 with lpddr := Memory.putNat s.lpddr a 64 f.bytes }

/-- Places a record in its die's buffer, in device memory too, and in a cluster's fault queue, and raises that
supervisor's interrupt (R328). -/
def State.placeRecord (s : State) (die cluster : Nat) (f : FaultRec) : State :=
  let u := s.die die
  let s1 := (s.setDie die { u with recs := Map.set {} u.recs u.tail f, tail := u.tail + 1 }).storeRecord die u.tail f
  let s2 := { s1 with faultQueues := Map.upd [] s1.faultQueues cluster (· ++ [(die, u.tail)]),
                      faultIrqs := Map.upd 0 s1.faultIrqs cluster (· + 1) }
  s2.log { time := s.cycle, pasid := f.pasid, tile := f.tile, slot := f.slot, eng := f.eng, kind := 0x20,
           addr := f.task, data := f.cause + f.seq * 2 ^ 32 }

/-- Does a record come before another: by time, then tile, then engine (R328, R329)? -/
def FaultRec.before (a b : FaultRec) : Bool :=
  decide (a.time < b.time) || (a.time == b.time && (decide (a.tile < b.tile) || (a.tile == b.tile && decide (a.eng < b.eng))))

/-- Has a record of a later tile, or of a later engine of its tile, taken its SEQ in this cycle already? -/
def FaultUnit.passed (u : FaultUnit) (cycle : Nat) (f : FaultRec) : Bool :=
  u.last.1 == cycle && (decide (f.tile < u.last.2.1) || (f.tile == u.last.2.1 && decide (f.eng < u.last.2.2)))

/-- The buffer holds 4,096 places that are not free (R328). -/
def FaultUnit.full (u : FaultUnit) : Bool := decide (u.head + 4096 ≤ u.tail)

/-- The moment of a record: SEQ follows the order of occurrence, and within a cycle the order of tiles and engines (R328). A
record that another of this cycle has passed is one of the next cycle (log 43). -/
def State.inTurn (s : State) (die : Nat) (f : FaultRec) : State := if (s.die die).passed s.cycle f then s.tick 1 else s

/-- Writes a record, or holds it when the buffer is full (R329). -/
def State.emitRecord (s0 : State) (die cluster : Nat) (f0 : FaultRec) : State :=
  let s := s0.inTurn die f0
  let u := s.die die
  let f := { f0 with time := s.cycle, seq := u.seq % 2 ^ 32 }
  let u1 := { u with seq := u.seq + 1, last := (s.cycle, f.tile, f.eng) }
  if u.full || !u.held.isEmpty then
    let s2 := s.setDie die { u1 with held := u.held ++ [(cluster, f)] }
    let s3 := { s2 with mgmt := { s2.mgmt with core3Irqs := s2.mgmt.core3Irqs + 1 },
                        faultIrqs := ((upto 8).map (· + 8 * die)).foldl (fun m c => Map.upd 0 m c (· + 1)) s2.faultIrqs }
    s3.log { time := s.cycle, kind := 0x22, addr := die, data := u.held.length + 1 }
  else (s.setDie die u1).placeRecord die cluster f

/-- Would a record of this die be held now (R329)? -/
def State.wouldHold (s : State) (die : Nat) : Bool := (s.die die).full || !(s.die die).held.isEmpty

/-- Scoreboard slots set: bit i-1 is slot i (R313, R331). -/
def Chain.sbp (h : Chain) : Nat :=
  h.inflight.foldl (fun m f => let k := (ctlOf f.instr).sbset; if k = 0 then m else m ||| 2 ^ (k - 1)) 0

/-- Forks of an engine's chain that have not joined: its memory forks, spawns and open streams. -/
def State.forkCount (s : State) (r : EngRef) : Nat :=
  (s.forks.filter fun f => f.ref.eng == r.eng && f.task == s.taskOf r).length +
  (upto 16).countP fun k =>
    match (s.ctx r).ring k with
    | some g => (r.eng == .lde && g.sub.isSome) || (r.eng == .ste && g.pull.isSome)
    | none => false

/-- Has a block begun an iteration at which a halt may find it (R331, R333)? With that iteration: a block that has faulted
stands at it, another has passed it. Blocks of class 0 and class 3 are never stopped within. -/
def InFlight.begun (f : InFlight) : Option Nat :=
  if (lParts f.instr).isNone then none
  else if f.phase = .parked then some f.ctr
  else if f.ctr = 0 then none else some (f.ctr - 1)

/-- The block of a list that began an iteration last, and that iteration (R251, R331). -/
def lastBegun : List InFlight → Option (InFlight × Nat)
  | [] => none
  | f :: l =>
    match f.begun, lastBegun l with
    | none, o => o
    | some k, none => some (f, k)
    | some k, some (g, j) => if g.lastAt < f.lastAt then some (f, k) else some (g, j)

/-- Where a stop finds a chain within a block, if within one: at the last iteration begun. Whether a breakpoint's does is open
(R333, log 45): its other blocks are left to go on. -/
def State.stopPoint (s : State) (r : EngRef) (kind : StopKind) : Option (InFlight × Nat) :=
  match kind with
  | .halted => lastBegun (s.chain r).inflight
  | .breakpoint => if s.freeBit (2 ^ 29 + 7) then lastBegun (s.chain r).inflight else none
  | _ => none

/-- Writes the stop record of an engine (R331) and keeps its chain from issuing. A stop between blocks leaves the issued
blocks to complete, so that its record names the block last completed. -/
def State.stopEngine (s : State) (r : EngRef) (kind : StopKind) (cause : Nat) (disp : Disp) (orig : Bool)
    (acc tag skid : Nat) : State :=
  let h := s.chain r
  let t := s.task (s.taskOf r)
  let (blk, ctr) := match s.stopPoint r kind with
    | some (f, k) => (f.addr, ctrOf f.instr k)
    | none => (h.lastBlk, h.lastCtr)
  let rec' : StopRec :=
    { pasid := t.pasid, acc := acc, tile := r.tile, slot := r.slot, eng := r.eng.num, orig := orig, disp := disp, cause := cause,
      task := t.va, block := blk, ctr := ctr, ret := h.retired, endf := h.endFlag, sbp := h.sbp, tag := tag,
      forks := s.forkCount r, cursor := h.cursor, time := s.cycle, skid := skid }
  (s.updSlot r.tile r.slot fun x => x.setLane r.eng { x.lane r.eng with stop := some rec' }).updChain r
    fun h => { h with stop := kind, stepBusy := false }

/-! ### Taking a fault -/

/-- What a block or agent reports of a fault, beside where it stands. late: found among the elements, not at issue;
imprecise: of work handed to a home. -/
structure BlockFault where
  cause  : Cause
  fva    : Nat := 0
  remain : Nat := 0
  acc    : Nat := 0
  bank   : Nat := 0
  ctr    : Nat := 0
  late   : Bool := false
  imprecise : Bool := false
  deriving DecidableEq, Repr, Inhabited

/-- A task's state, written into its record for its home scheduler to show (R298). A record that cannot be
written keeps its word. -/
def State.setTaskState (s : State) (n : Nat) (st : TState) : State :=
  let t := s.task n
  let s1 := s.setTask n { t with state := st, since := s.cycle }
  match s.readVa t.pasid (t.va + 0x60) 8 with
  | some w => (s1.writeVa t.pasid (t.va + 0x60) 8 (w / 16 * 16 + st.num)).getD s1
  | none => s1

/-- Raises a job's halt line (R330): HALT_LINE will halt every task of the job. -/
def State.raiseHalt (s : State) (pasid cause task : Nat) : State :=
  let p := s.pasid pasid
  if p.halting || p.halted then s
  else (s.setPasid pasid { p with halting := true, haltBy := cause }).log
    { time := s.cycle, pasid := pasid, kind := 0x21, addr := task, data := cause }

/-- A breakpoint stops the engine that meets it and every other engine of the task that runs a chain, each with a stop
record (R324, log 45). -/
def State.stopTask (s : State) (r : EngRef) (cause tag : Nat) : State :=
  Engine.all.foldl (fun s e =>
    let q := engRef r.tile r.slot e
    if e = r.eng ∨ !(s.chain q).present ∨ (s.chain q).retired ∨ (s.chain q).stop ≠ .running then s
    else s.stopEngine q .breakpoint cause .stop false 0 0 0)
    (s.stopEngine r .breakpoint cause .stop true 0 tag 0)

/-- TAKING A FAULT, for every block and every cause (R324, R326, R328 to R332). The record names the task,
block and iteration; a PARK stops the engine and makes the task park, in place when the record is held; a HALT
stops the engine with its own stop record, unless it has halted already, and raises the halt line; a STOP writes stop
records; a NOTE stops nothing. 0x081 stops its own engine alone, since engines step independently (R337), also where FLTI
raises it (DESIGN CHOICE, log 45: R324 stops the task's engines); 0x080 stops every engine of the task. -/
def State.takeFault (s : State) (r : EngRef) (block : Nat) (f : BlockFault) (disp : Disp) (prec : Bool := true) : State :=
  let n := s.taskOf r
  let t := s.task n
  let die := dieOf r.tile
  let rec' : FaultRec :=
    { pasid := t.pasid, acc := f.acc, tile := r.tile, slot := r.slot, eng := r.eng.num, prec := prec, disp := disp,
      cause := f.cause.code, task := t.va, block := block, ctr := f.ctr, remain := f.remain, fva := f.fva, bank := f.bank }
  let held := s.wouldHold die
  match disp with
  | .park =>
    let s1 := (s.emitRecord die (clusterOf r.tile) rec').updChain r fun h => { h with stop := .parked }
    let s2 := s1.updSlot r.tile r.slot fun x => { x with parking := true, inPlace := x.inPlace || held }
    if held then s2.setTaskState n .parked else s2
  | .halt =>
    let s1 := s.emitRecord die (clusterOf r.tile) rec'
    (if (s.chain r).stop = .halted then s1 else s1.stopEngine r .halted f.cause.code .halt true f.acc 0 0).raiseHalt t.pasid f.cause.code t.va
  | .stop => if f.cause = .singleStep then s.stopEngine r .stepped f.cause.code .stop true f.acc f.remain 0 else s.stopTask r f.cause.code f.remain
  | .note => s.emitRecord die (clusterOf r.tile) rec'

/-- A fault raised by the scheduler against a task in a slot (R327): budget, watchdog, park by a supervisor,
the faults of preparing a slot. -/
def State.schedulerFault (s : State) (tile slot : Nat) (cause : Cause) (fva acc : Nat) : State :=
  let n := ((s.slotAt tile slot).task).getD 0
  let t := s.task n
  let die := dieOf tile
  let disp := cause.disp
  let held := s.wouldHold die
  let s1 := s.emitRecord die (clusterOf tile)
    { pasid := t.pasid, acc := acc, tile := tile, slot := slot, agt := true, prec := false, disp := disp, cause := cause.code,
      task := t.va, fva := fva }
  match disp with
  | .park =>
    let s2 := s1.updSlot tile slot fun x => { x with parking := true, inPlace := x.inPlace || held }
    if held then s2.setTaskState n .parked else s2
  | .halt => s1.raiseHalt t.pasid cause.code t.va
  | _ => s1

/-- A NOTE record of an agent without a tile, on a die (R302, R340, R277). -/
def State.noteRecord (s : State) (die : Nat) (f : FaultRec) : State :=
  s.emitRecord die (8 * die) { f with agt := true, prec := false, disp := .note }

/-! ### The supervisor's registers and its own exception (R49, R50, R291) -/

/-- x0 reads zero. -/
def Hart.reg (h : Hart) (n : Nat) : Nat := if n = 0 then 0 else Map.get 0 h.regs n
/-- A write to x0 is discarded. -/
def Hart.setReg (h : Hart) (n v : Nat) : Hart := if n = 0 then h else { h with regs := Map.set 0 h.regs n (v % 2 ^ 64) }

/-- A HART TAKES AN EXCEPTION (RV64 privileged architecture, log 5): xepc, xcause, xtval, MPP or SPP and MPIE or SPIE in
mstatus, and the pc at xtvec's base. Delegated to supervisor mode by the cause's bit of medeleg unless the hart is in machine
mode. -/
def Hart.trap (h : Hart) (cause tval : Nat) : Hart :=
  if h.mode ≠ 3 ∧ bitAt h.medeleg cause then
    let st := putField (putField (putField h.mstatus 5 1 (bits h.mstatus 1 1)) 8 1 (if h.mode = 0 then 0 else 1)) 1 1 0
    { h with sepc := h.pc, scause := cause, stval := tval, mstatus := st, mode := 1, pc := h.stvec / 4 * 4 }
  else
    let st := putField (putField (putField h.mstatus 7 1 (bits h.mstatus 3 1)) 11 2 h.mode) 3 1 0
    { h with mepc := h.pc, mcause := cause, mtval := tval, mstatus := st, mode := 3, pc := h.mtvec / 4 * 4 }

/-- The illegal-instruction exception (R50): cause 2 with the word. -/
def Hart.trapIllegal (h : Hart) (word : Nat) : Hart := h.trap 2 word

/-- The store page fault, cause 15 with the address, which a store of the hart's own takes (R291, log 5). -/
def Hart.trapStore (h : Hart) (a : Nat) : Hart := h.trap 15 a

/-- Does the hart's own translation give an address? -/
def Hart.reaches (h : Hart) (a : Nat) : Bool := !h.barred.contains (a / 4096)

end Sys2Proof.Machine
end

