-- ==== Sys2Proof/Machine/Operands.lean ====
section
/-! DEFINITION. Every operand form: affine windows (R32 to R34), handle tiles (R35, R122 to R126), registers
(R36), rings (R172), immediates; the bytes a block touches and the rights it needs (R98, R111, R116, R168,
R169, R171); reading operands and preparing accesses (R119 to R121, R149, R150). -/

namespace Sys2Proof.Machine

abbrev Counters := Nat × Nat × Nat × Nat

/-! ### Geometry -/

def strides (x : Desc) (c : Counters) : Int :=
  c.1 * signed 32 x.st0 + c.2.1 * signed 32 x.st1 + c.2.2.1 * signed 32 x.st2 + c.2.2.2 * signed 32 x.st3

/-- BASE_addr of R32: exact, before any range check. -/
def baseAddr (s : State) (r : EngRef) (x : Desc) : Int :=
  match x.space with
  | 4 => ((s.ctx r).rbAt (bits x.base 45 3) : Int) + signed 45 x.base
  | 10 => ((bits x.base 0 26 : Nat) : Int)
  | _ => (x.base : Int)

/-- Origin of an affine window at an iteration, in bytes (R32). -/
def originAt (s : State) (r : EngRef) (x : Desc) (c : Counters) : Int := baseAddr s r x + strides x c

/-- Lines of a window: 0 to EXT2, each with positions 0 to SEG (R32). -/
def linePos (x : Desc) : List (Nat × Nat) :=
  (upto (x.ext2 + 1)).flatMap fun l => (upto (x.seg + 1)).map fun e => (l, e)

/-- Bit address of the element of a window at a line and position. -/
def elemBit (x : Desc) (o : Int) (w l e : Nat) : Int := 8 * (o + l * (x.aux * 8)) + e * w

/-- Bit addresses of the elements of a window whose origin is o, w bits each, in line then position order. -/
def elemBits (x : Desc) (o : Int) (w : Nat) : List Int := (linePos x).map fun (l, e) => elemBit x o w l e

/-- Cells of an ac window at an iteration as (row, column), in line then position order (R33, R34). -/
def cellsAt (x : Desc) (c : Counters) : List (Int × Int) :=
  let row (st : Nat) := signed 16 st
  let col (st : Nat) := signed 16 (st / 65536)
  let r0 : Int := bits x.base 0 6 + c.1 * row x.st0 + c.2.1 * row x.st1 + c.2.2.1 * row x.st2 + c.2.2.2 * row x.st3
  let k0 : Int := bits x.base 6 6 + c.1 * col x.st0 + c.2.1 * col x.st1 + c.2.2.1 * col x.st2 + c.2.2.2 * col x.st3
  (linePos x).map fun (l, e) =>
    let r := r0 + l * signed 8 x.aux
    let k := k0 + l * signed 8 (x.aux / 256)
    match bits x.base 12 2 with
    | 0 => (r, k + e) | 1 => (r + e, k) | 2 => (r + e, k + e) | _ => (r + e, k - e)

/-- Least and greatest value of c * s for c from 0 to n. -/
def spanLo (n : Nat) (st : Int) : Int := min 0 (n * st)
def spanHi (n : Nat) (st : Int) : Int := max 0 (n * st)

/-- The bytes a window covers over the whole nest, from lo to below hi; w bits an element, extra bytes
after each line. -/
def windowSpan (s : State) (r : EngRef) (b : LBlk) (x : Desc) (w extra : Nat) : Int × Int :=
  let st := [(b.b0, x.st0), (b.b1, x.st1), (b.b2, x.st2), (b.b3, x.st3)]
  let lo := st.foldl (fun a (n, v) => a + spanLo n (signed 32 v)) (baseAddr s r x)
  let hi := st.foldl (fun a (n, v) => a + spanHi n (signed 32 v)) (baseAddr s r x)
  (lo, hi + x.ext2 * (x.aux * 8) + (((x.seg + 1) * w + 7) / 8 : Nat) + extra)

/-! ### The tile media a block touches -/

/-- A stretch of the tp or wb share that a block reads or writes. -/
structure Touch where
  space : Nat
  lo    : Int
  hi    : Int
  write : Bool
  deriving DecidableEq, Repr, Inhabited

/-- Width in bits of one element of A, B and D in memory, as the form reads or writes it. -/
def widthA (cls op : Nat) (b : LBlk) : Nat :=
  if cls = 1 ∧ op = 5 then 256 else if cls = 4 ∧ op = 0x39 then 64 else memWidth b.fmt
def widthB (cls op : Nat) (b : LBlk) : Nat :=
  if b.b.space = spIx then 32
  else if (cls = 1 ∧ op = 5) ∨ (cls = 4 ∧ op = 0x3B) then 64
  else if (cls = 7 ∧ op = 7) ∨ (cls = 8 ∧ op ≤ 1) then 512
  else memWidth (fmtB cls op b)
def widthD (cls op : Nat) (b : LBlk) : Nat :=
  if cls = 1 ∧ op = 6 then 32 else if cls = 4 ∧ op = 0x3B then 64 else memWidth (fmtD cls op b)

/-- Is B written: the return window of an atomic (R145), the status word of VSTR (R216)? -/
def writesB (cls op : Nat) : Bool := (cls == 2 && decide (6 ≤ op) && decide (op ≤ 0x10)) || (cls == 4 && op == 0x3B)

/-- Metadata bytes after each line of a 2:4 structured B (R243). -/
def metaBytes (cls op : Nat) (b : LBlk) : Nat := if cls = 7 ∧ op = 1 ∧ cform b = 0 then (b.b.seg + 1) / 4 else 0

def tileSpace (sp : Nat) : Nat := if sp = spIx then spTp else sp
def isTileSpace (sp : Nat) : Bool := sp == spTp || sp == spWb || sp == spIx

/-- Windows that are checked at the start of each iteration and not at issue: the map of WINL and WPOOL (R254),
the record of DRN (R248). -/
def lateA (cls op : Nat) : Bool := cls == 8 && decide (op ≤ 1)
def lateB (cls op : Nat) : Bool := cls == 7 && op == 7

/-- The affine windows of a block in its slot's shares, over the whole nest (R98, R141, R159, R169, R178,
R183, R281); all: those checked late too. -/
def windowsOf (all : Bool) (s : State) (r : EngRef) (i : Instr) : List Touch :=
  match lParts i with
  | some (cls, op, b) =>
    let one (x : Desc) (w extra : Nat) (wr : Bool) : List Touch :=
      if isTileSpace x.space then
        let (lo, hi) := windowSpan s r b x w extra
        [{ space := tileSpace x.space, lo := lo, hi := hi, write := wr }]
      else []
    (if lateA cls op && !all then [] else one b.a (widthA cls op b) 0 false) ++
      (if lateB cls op && !all then [] else one b.b (widthB cls op b) (metaBytes cls op b) (writesB cls op)) ++ one b.d (widthD cls op b) 0 true
  | none =>
    let tp (off n : Nat) (wr : Bool) : List Touch := [{ space := spTp, lo := off, hi := (off + n : Nat), write := wr }]
    match i with
    | .brc _ cond _ _ off => if 3 ≤ cond then tp off 4 false else []
    | .brcd _ _ off => tp off 4 true
    | .patch _ len _ off => tp off (len + 1) false
    | .ldacq _ _ w64 _ _ _ _ off => tp off (if w64 = 1 then 8 else 4) true
    | .strel _ si w64 _ _ _ _ off => if si = 1 then [] else tp off (if w64 = 1 then 8 else 4) false
    | .semq _ _ off => tp off 4 true
    | .bara _ _ pw off => if pw = 1 then tp off 4 true else []
    | .barw _ _ off => tp off 4 false
    | .mhot _ _ _ _ npg off => tp off (npg + 1) true
    | .mqry _ _ _ npg off => tp off (8 * (npg + 1)) true
    | _ => []

def touches (s : State) (r : EngRef) (i : Instr) : List Touch := windowsOf false s r i

/-! ### Regions and rights (R168, R169, R171) -/

/-- The regions of a slot by number. -/
def Ctx.regionList (c : Ctx) : List (Nat × Region) :=
  c.regions.filterMap fun (k, o) => o.map fun g => (k, g)

def Ctx.ringList (c : Ctx) : List (Nat × Ring) := c.rings.filterMap fun (k, o) => o.map fun g => (k, g)

/-- The region whose interior holds a touched stretch. -/
def Ctx.regionOf (c : Ctx) (t : Touch) : Option (Nat × Region) :=
  c.regionList.find? fun (_, g) => g.space == t.space && decide ((g.off : Int) ≤ t.lo) && decide (t.hi ≤ (g.off + g.len : Nat))

/-- The rings declared over a region. -/
def Ctx.ringsOver (c : Ctx) (reg : Nat) : List (Nat × Ring) := c.ringList.filter fun (_, g) => g.reg == reg

/-- The counted waits of DW1 as (semaphore, count), summed when both name one semaphore (R27). -/
def Ctl.waits (c : Ctl) : List (Nat × Nat) :=
  if c.wcnt ≠ 0 ∧ c.w2cnt ≠ 0 ∧ c.wsem = c.w2sem then [(c.wsem, c.wcnt + c.w2cnt)]
  else (if c.wcnt ≠ 0 then [(c.wsem, c.wcnt)] else []) ++ (if c.w2cnt ≠ 0 then [(c.w2sem, c.w2cnt)] else [])

/-- The counted signals of DW1 likewise. -/
def Ctl.signals (c : Ctl) : List (Nat × Nat) :=
  if c.scnt ≠ 0 ∧ c.s2cnt ≠ 0 ∧ c.ssem = c.s2sem then [(c.ssem, c.scnt + c.s2cnt)]
  else (if c.scnt ≠ 0 then [(c.ssem, c.scnt)] else []) ++ (if c.s2cnt ≠ 0 then [(c.s2sem, c.s2cnt)] else [])

/-- The right a semaphore is bound to (R168). -/
def Ctx.boundRight (c : Ctx) (sem : Nat) : List Right :=
  c.regionList.filterMap fun (k, g) =>
    match g.b1, g.b2 with
    | some b, some b' => if b.sem = sem then some ⟨k, b.write⟩ else if b'.sem = sem then some ⟨k, b'.write⟩ else none
    | some b, none => if b.sem = sem then some ⟨k, b.write⟩ else none
    | none, some b' => if b'.sem = sem then some ⟨k, b'.write⟩ else none
    | none, none => none

/-- The region rights that a block's waits grant. -/
def Ctx.granted (c : Ctx) (ctl : Ctl) : List Right := (Ctl.waits ctl).flatMap fun (sem, _) => c.boundRight sem

/-- The ring slots that a block's waits grant at the cursors (R171): write rights by the empty semaphore,
read rights by the full one. -/
def Ctx.grantedSlots (c : Ctx) (ctl : Ctl) : List RingRight :=
  (Ctl.waits ctl).flatMap fun (sem, k) =>
    c.ringList.flatMap fun (n, g) =>
      if g.esem = sem then (upto k).map fun j => ⟨n, (g.pcur + j) % g.nslot, true⟩
      else if g.fsem = sem then (upto k).map fun j => ⟨n, (g.ccur + j) % g.nslot, false⟩
      else []

/-- Do two rights on one region conflict under its mode (R168)? -/
def rightsConflict (mode : Nat) (a b : Right) : Bool := mode == 6 || a.write || b.write

/-- The region rights that uncompleted blocks of a slot hold. -/
def Ctx.heldRights (c : Ctx) : List Right := c.chains.flatMap fun h => h.inflight.flatMap (·.rights)

/-- Does a stretch of a ring's region lie in slots that a block holds with the right it needs (R171)? -/
def slotsCover (g : Ring) (reg : Region) (n : Nat) (held : List RingRight) (t : Touch) : Bool :=
  let lo := (t.lo.toNat - reg.off) / g.slot
  let hi := (t.hi.toNat - 1 - reg.off) / g.slot
  (upto (hi + 1 - lo)).all fun j => held.any fun h => h.ring == n && h.slot == lo + j && (h.write || !t.write)

/-- The fault of one stretch, if any, in the order of R169 (1 to 3) and R171. -/
def Ctx.touchFault (c : Ctx) (e : Engine) (rights : List Right) (slots : List RingRight) (t : Touch) : Option Cause :=
  match c.regionOf t with
  | none => some .footprint
  | some (k, g) =>
    if g.mode ≤ 4 then (if g.mode = e.num + 1 then none else some .race)
    else
      match c.ringsOver k with
      | [] => if rights.any fun x => x.reg == k && (x.write || !t.write) then none else some .race
      | l => if l.any fun (n, ring) => slotsCover ring g n slots t then none else some .race

/-- Rights that a block's waits grant and that clash with rights held (order 4 of R169). -/
def Ctx.grantClash (c : Ctx) (ctl : Ctl) : Bool :=
  (c.granted ctl).any fun a =>
    c.heldRights.any fun b => a.reg == b.reg && (match c.region a.reg with | some g => rightsConflict g.mode a b | none => false)

/-- The cause of R169 and R171 that a block meets at issue, none if it may touch what it touches. -/
def rightsFault (s : State) (r : EngRef) (i : Instr) : Option Cause :=
  let c := s.ctx r
  let ctl := ctlOf i
  match (touches s r i).findSome? (c.touchFault r.eng (c.granted ctl) (c.grantedSlots ctl)) with
  | some f => some f
  | none => if c.grantClash ctl then some .race else none

/-- A window found within an iteration, under the rights the block holds (R248, R254). -/
def lateTouch (s : State) (r : EngRef) (f : InFlight) (t : Touch) : Except BlockFault Unit :=
  match (s.ctx r).touchFault r.eng f.rights f.slots t with
  | some c => .error { cause := c }
  | none => .ok ()

/-! ### Shared pools (R110, R111, R34) -/

/-- The pool an operand names, the flat address of its byte 0, and its size. -/
def poolOf (r : EngRef) (x : Desc) : Option (Place × Nat × Nat) :=
  match x.space with
  | 2 => some (.clusterPool, clusterOf r.tile * cpBytes, cpBytes)
  | 3 => some (.diePool, dieOf r.tile * dpBytes, dpBytes)
  | 10 => if bitAt x.base 47 then some (.diePool, bits x.base 42 2 * dpBytes, dpBytes)
          else some (.clusterPool, bits x.base 42 5 * cpBytes, cpBytes)
  | _ => none

/-- The bytes of each line of a pool window at an iteration. -/
def lineSpans (x : Desc) (o : Int) (w : Nat) : List (Int × Int) :=
  (upto (x.ext2 + 1)).map fun (l : Nat) => (o + l * (x.aux * 8), o + l * (x.aux * 8) + (((x.seg + 1) * w + 7) / 8 : Nat))

/-- The granules from one byte to another. -/
def granulesOf (lo hi : Nat) : List Nat := (upto (hi / granuleBytes + 1 - lo / granuleBytes)).map (· + lo / granuleBytes)

/-- Checks the pool bytes from lo to below hi of an operand: inside the pool (0x201; 0x105 for rm) and in
granules its PASID owns (0x101; 0x105 for rm). -/
def poolSpanCheck (s : State) (r : EngRef) (x : Desc) (lo hi : Int) : Except BlockFault Unit :=
  match poolOf r x with
  | none => .ok ()
  | some (p, base, size) =>
    let rm := x.space = spRm
    if lo < 0 ∨ (size : Int) < hi then .error { cause := if rm then .remoteWindow else .footprint }
    else
      let own := (s.task (s.taskOf r)).pasid
      if (granulesOf (base + lo.toNat) (base + hi.toNat - 1)).all fun g => s.granuleOwner p (g * granuleBytes) == own
      then .ok () else .error { cause := if rm then .remoteWindow else .permission }

def poolWindowCheck (s : State) (r : EngRef) (x : Desc) (w : Nat) (c : Counters) : Except BlockFault Unit :=
  match poolOf r x with
  | none => .ok ()
  | some _ => (lineSpans x (originAt s r x c) w).forM fun (lo, hi) => poolSpanCheck s r x lo hi

/-- Checks a pool window over iterations 0 to n-1 (R111: the whole footprint at issue). -/
def poolNestCheck (s : State) (r : EngRef) (b : LBlk) (x : Desc) (w : Nat) : Nat → Except BlockFault Unit
  | 0 => .ok ()
  | n + 1 =>
    match poolNestCheck s r b x w n with
    | .error e => .error e
    | .ok () => poolWindowCheck s r x w (b.counters n)

/-! ### Reading and preparing accesses in global memory -/

/-- Pieces of w bits at a bit address that do not cross a page (R72: an L6 element may). -/
def pieces (bit : Int) (w : Nat) : List (Int × Nat) :=
  let off := (bit % (pageBytes * 8 : Nat)).toNat
  if off + w ≤ pageBytes * 8 then [(bit, w)]
  else
    let n := pageBytes * 8 - off
    [(bit, n), (bit + n, w - n)]

/-- A translated piece of an element. -/
structure Piece where
  phys : Phys
  bit  : Nat
  w    : Nat
  va   : Nat
  deriving DecidableEq, Repr, Inhabited

/-- Translates one piece for its tile. -/
def pieceAt (s : State) (r : EngRef) (k : AccessKind) (bit : Int) (w : Nat) : Except Cause Piece :=
  if bit < 0 then .error .permission
  else
    let va := bit.toNat / 8
    match s.translate r.tile (s.task (s.taskOf r)).pasid va k with
    | .error c => .error c
    | .ok p => .ok { phys := p, bit := p.addr * 8 + bit.toNat % 8, w := w, va := va }

def mapE {α β ε : Type} (f : α → Except ε β) : List α → Except ε (List β)
  | [] => .ok []
  | a :: as =>
    match f a with
    | .error e => .error e
    | .ok b =>
      match mapE f as with
      | .error e => .error e
      | .ok bs => .ok (b :: bs)

def elemPieces (s : State) (r : EngRef) (k : AccessKind) (w : Nat) (bit : Int) : Except Cause (List Piece) :=
  mapE (fun p => pieceAt s r k p.1 p.2) (pieces bit w)

/-- Do the accesses of this kind to these pieces fault: on a launch page (R346), by poison (R121)? -/
def pieceFault (s : State) (k : AccessKind) (plain : Bool) (ps : List Piece) : Option Cause :=
  if !plain && ps.any fun p => p.phys.place == .launchPage then some .permission
  else if k = .read ∧ ps.any (fun p => s.poisoned p.phys.place (p.bit / 8) || s.poisoned p.phys.place ((p.bit + p.w - 1) / 8)) then
    some .poison
  else none

/-- Translates the elements of one iteration in ascending order; the first that faults names the fault, its
VA and the elements from it onward (R119, R150). left counts what stands behind a list that is cut short. -/
def translateElems (s : State) (r : EngRef) (k : AccessKind) (plain : Bool) (w : Nat) :
    List Int → Except BlockFault (List (List Piece))
  | [] => .ok []
  | bit :: rest =>
    let fail (c : Cause) (acc : Nat) : Except BlockFault (List (List Piece)) :=
      .error { cause := c, fva := wrapTo 64 (bit / 8), remain := rest.length + 1, acc := acc }
    match elemPieces s r k w bit with
    | .error c => fail c (k.walkAcc c)
    | .ok ps =>
      match pieceFault s k plain ps with
      | some c => fail c k.acc
      | none =>
        match translateElems s r k plain w rest with
        | .error e => .error e
        | .ok qs => .ok (ps :: qs)

/-- The value of an element from its pieces, low bits first. -/
def readPieces (s : State) : List Piece → Nat
  | [] => 0
  | p :: ps => s.readBits p.phys.place p.bit p.w + 2 ^ p.w * readPieces s ps

/-- Sectors of device memory touched, consecutive repeats once: those of pages with HS (R278). -/
def hotSectors (ps : List Piece) : List (Place × Nat × Nat) :=
  ps.foldl (fun acc p =>
    let k := (p.phys.place, p.bit / 8 / 32, p.phys.size)
    if p.phys.hs && acc.getLast? != some k then acc ++ [k] else acc) []

/-- The state as a Carafe translates in it, for a walk hop or a stream (R118): through its own memory-side TLB. Which Carafe
serves the access is open (log 2). -/
def State.viaCarafe (s : State) (r : EngRef) : State :=
  { s.setTile r.tile { s.tile r.tile with tlb := Map.get [] s.carafeTlb (s.free (2 ^ 86) % 16) } with clusterTlb := [] }

/-! ### Handles (R122 to R126) -/

/-- A descriptor's fields (R122). -/
def parseHandle (ws : List Nat) : Handle :=
  let d (k : Nat) := ws.getD k 0
  let str := d 5 + d 6 * 2 ^ 64 + d 7 * 2 ^ 128
  { base := bits (d 0) 0 57, pad := bits (d 1) 32 32, hpol := bits (d 1) 16 2, layout := bits (d 1) 12 4, rank := bits (d 1) 8 3,
    fmt := bits (d 1) 0 4, ext := [bits (d 2) 0 32, bits (d 2) 32 32, bits (d 3) 0 32, bits (d 3) 32 32, bits (d 4) 0 32],
    str := [0, bits str 0 48, bits str 48 48, bits str 96 48, bits str 144 48] }

def Handle.extAt (h : Handle) (j : Nat) : Nat := h.ext.getD j 1
def Handle.strAt (h : Handle) (j : Nat) : Nat := h.str.getD j 0

/-- The first row of R123: is the descriptor valid and well formed? -/
def handleValid (ws : List Nat) (h : Handle) : Bool :=
  let d (k : Nat) := ws.getD k 0
  bitAt (d 0) 63 && bits (d 0) 57 6 == 0 && bits (d 1) 18 14 == 0 && bits (d 1) 11 1 == 0 && bits (d 1) 4 4 == 0 &&
  bits (d 4) 32 32 == 0 && decide (1 ≤ h.rank) && decide (h.rank ≤ 5) && decide (h.layout ≤ 1) && decide (h.hpol ≤ 1) &&
  (decide (10 < h.fmt) || h.base % unitOf h.fmt == 0) &&
  (upto 5).all fun j => if j < h.rank then h.extAt j != 0 else h.extAt j == 1 && h.strAt j == 0

/-- Signed origin of a tile in dimension j at an iteration, and its extent (R35). -/
def tileExt (x : Desc) (j : Nat) : Nat := match j with | 0 => x.seg + 1 | 1 => x.ext2 + 1 | 2 => x.pad + 1 | _ => 1
def tileOrigin (x : Desc) (c : Counters) (j : Nat) : Int :=
  match j with
  | 0 => signed 32 x.st0 + c.1 * tileExt x 0
  | 1 => signed 32 x.st1 + c.2.1 * tileExt x 1
  | 2 => signed 32 x.st2 + c.2.2.1 * tileExt x 2
  | 3 => signed 32 x.st3 + c.2.2.2 * tileExt x 3
  | _ => signed 16 x.aux

/-- Elements of a tile (R128). -/
def tileCount (x : Desc) : Nat := tileExt x 0 * tileExt x 1 * tileExt x 2

/-- The third row of R123: the tile agrees with the descriptor's rank and packing. -/
def tileShapeOk (b : LBlk) (x : Desc) (h : Handle) : Bool :=
  let bound (j : Nat) := match j with | 0 => b.b0 | 1 => b.b1 | 2 => b.b2 | 3 => b.b3 | _ => 0
  let raw (j : Nat) : Int := tileOrigin x (0, 0, 0, 0) j
  ((upto 5).all fun j => decide (j < h.rank) || (raw j == 0 && tileExt x j == 1 && bound j == 0)) &&
  !(h.layout == 1 && (h.fmt == 7 || h.fmt == 9)) &&
  (h.fmt != 7 || (raw 0 % 2 == 0 && tileExt x 0 % 2 == 0)) && (h.fmt != 9 || (raw 0 % 4 == 0 && tileExt x 0 % 4 == 0))

/-- VA of handle descriptor index of a PASID. -/
def State.handleVa (s : State) (pasid index : Nat) : Nat := (s.pasid pasid).htable + 64 * index

/-- The descriptor words a block reads at issue (R126): memory's, or the tile's cached copy, which a rewrite
leaves in place until HINV. Which of the two is free (log 2). -/
def State.handleWords (s : State) (r : EngRef) (pasid index : Nat) : Except BlockFault (List Nat) :=
  let va := s.handleVa pasid index
  match mapE (fun k => translateElems s r .read true 64 [((va + 8 * k) * 8 : Nat)]) (upto 8) with
  | .error e => .error { e with fva := va, remain := 0 }
  | .ok pss =>
    let mem := pss.map fun ps => readPieces s (ps.flatMap id)
    match (s.tile r.tile).handles.find? fun h => h.pasid == pasid && h.index == index with
    | some h => .ok (if s.freeBit (2 ^ 34 + index) then h.words else mem)
    | none => .ok mem

/-- Reads and checks the descriptor of a th operand at issue (R123). -/
def readHandle (s : State) (r : EngRef) (b : LBlk) (x : Desc) : Except BlockFault Handle :=
  let pasid := (s.task (s.taskOf r)).pasid
  if (s.pasid pasid).hcount ≤ x.base then .error { cause := .handleInvalid }
  else
    match s.handleWords r pasid x.base with
    | .error e => .error e
    | .ok ws =>
      let h := parseHandle ws
      if !handleValid ws h then .error { cause := .handleInvalid }
      else if h.fmt ≠ b.fmt then .error { cause := .badFormat }
      else if !tileShapeOk b x h then .error { cause := .handleExtent }
      else .ok h

/-- Bit address of an element of a handle, none when it is out of extent (R124). -/
def handleElem (h : Handle) (i : List Int) : Option Int :=
  let at_ (j : Nat) : Int := i.getD j 0
  if (upto 5).all fun j => decide (0 ≤ at_ j) && decide (at_ j < h.extAt j) then
    some (8 * ((h.base : Int) + at_ 1 * h.strAt 1 + at_ 2 * h.strAt 2 + at_ 3 * h.strAt 3 + at_ 4 * h.strAt 4) + at_ 0 * memWidth h.fmt)
  else none

/-- Elements of a tile in the delivery order of R125: line then position. -/
def tileElems (x : Desc) (h : Handle) (c : Counters) : List (Option Int) :=
  let o (j : Nat) := tileOrigin x c j
  let el (i0 i1 i2 : Nat) := handleElem h [o 0 + i0, o 1 + i1, o 2 + i2, o 3, o 4]
  (upto (tileExt x 2)).flatMap fun i2 =>
    if h.layout = 0 then (upto (tileExt x 1)).flatMap fun i1 => (upto (tileExt x 0)).map fun i0 => el i0 i1 i2
    else (upto (tileExt x 0)).flatMap fun i0 => (upto (tileExt x 1)).map fun i1 => el i0 i1 i2

/-- Translates the in-extent elements of a tile, in order; the remaining extent counts all of them. -/
def translateTile (s : State) (r : EngRef) (k : AccessKind) (w : Nat) :
    List (Option Int) → Except BlockFault (List (Option (List Piece)))
  | [] => .ok []
  | none :: rest => (translateTile s r k w rest).map (none :: ·)
  | some bit :: rest =>
    let fail (c : Cause) (acc : Nat) : Except BlockFault (List (Option (List Piece))) :=
      .error { cause := c, fva := wrapTo 64 (bit / 8), remain := rest.length + 1, acc := acc }
    match elemPieces s r k w bit with
    | .error c => fail c (k.walkAcc c)
    | .ok ps =>
      match pieceFault s k (k != .atomic) ps with
      | some c => fail c k.acc
      | none => (translateTile s r k w rest).map (some ps :: ·)

/-! ### Rings as operands (R172) -/

/-- Bit address of a ring slot in its region's medium. -/
def slotBit (g : Ring) (reg : Region) (slot : Nat) : Nat := 8 * (reg.off + slot * g.slot)

/-- Medium and bit address of the slot an issued block reads for a ring operand. -/
def ringSource (s : State) (r : EngRef) (f : InFlight) (n : Nat) : Option (Nat × Nat) :=
  match (s.ctx r).ring n, f.taken.find? (·.ring == n) with
  | some g, some t => (s.ctx r).region g.reg |>.map fun reg => (reg.space, slotBit g reg t.slot)
  | _, _ => none

/-! ### Reading an operand's elements as memory bits -/

def Ctx.mediumBits (c : Ctx) (space bit w : Nat) : Nat := Memory.bits (if space = spWb then c.wb else c.tp) bit w

/-- Reads a list of bit addresses of one space, w bits each, with the sectors sampled. -/
def readBitsAt (s : State) (r : EngRef) (x : Desc) (w : Nat) (addrs : List Int) :
    Except BlockFault (List Nat × List (Place × Nat × Nat)) :=
  match x.space with
  | 4 =>
    match translateElems s r .read true w addrs with
    | .error e => .error e
    | .ok pss => .ok (pss.map (readPieces s), hotSectors (pss.flatMap id))
  | _ =>
    match poolOf r x with
    | some (p, base, _) =>
      match addrs.find? fun a => s.poisoned p (base + (a / 8).toNat) with
      | some a => .error { cause := .poison, acc := 1, fva := wrapTo 64 (a / 8) }
      | none => .ok (addrs.map fun a => s.readBits p (base * 8 + a.toNat) w, [])
    | none => .ok (addrs.map fun a => (s.ctx r).mediumBits x.space a.toNat w, [])

/-- The elements of an operand at an iteration in line then position order, w bits each: a window, a ring
slot read densely, or an immediate. -/
def readOperand (s : State) (r : EngRef) (f : InFlight) (x : Desc) (w : Nat) (c : Counters) :
    Except BlockFault (List Nat × List (Place × Nat × Nat)) :=
  match x.space with
  | 11 => .ok ([x.base], [])
  | 9 =>
    match ringSource s r f x.base with
    | none => .error { cause := .ringMisuse }
    | some (sp, bit) => .ok ((upto (x.seg + 1)).map fun e => (s.ctx r).mediumBits sp (bit + e * w) w, [])
  | _ =>
    match poolWindowCheck s r x w c with
    | .error e => .error e
    | .ok () => readBitsAt s r x w (elemBits x (originAt s r x c) w)

/-! ### Indexed targets (R132, R153) -/

/-- Byte addresses at o + x * pitch of a list of indices, none for null (R132). -/
def indexed (o : Int) (pitch : Nat) (xs : List Nat) : List (Option Int) :=
  xs.map fun x => if x = 0xFFFFFFFF then none else some (o + (x * pitch : Nat))

/-- The index list of an iteration. -/
def indexList (s : State) (r : EngRef) (f : InFlight) (b : LBlk) (k : Nat) : Except BlockFault (List Nat) :=
  (readOperand s r f b.b 32 (b.counters k)).map (·.1)

/-- The line pitch of LDXL and STXL. -/
def pitchOf (x : Desc) (w : Nat) : Nat := if x.pad = 0 then roundUp (((x.seg + 1) * w + 7) / 8) 8 else 8 * x.pad

/-- Bit addresses of the elements of the indexed lines. -/
def lineElems (x : Desc) (w : Nat) (l : List (Option Int)) : List (Option Int) :=
  l.flatMap fun a => (upto (x.seg + 1)).map fun (e : Nat) => a.map fun y => 8 * y + (e * w : Nat)

/-! ### Preparing writes -/

/-- One element of a write or an atomic: where it goes, its VA, the page size if sampled, what it does. -/
structure Elem where
  place : Place
  va    : Nat := 0
  hot   : Option Nat := none
  rm    : Bool := false
  op    : HomeOp
  deriving DecidableEq, Repr, Inhabited

/-- A write that crosses into the next sector or pool word, as an L6 element's may (R72), in its two parts: each is part of
its own unit's access (R149). -/
def Elem.parts (x : Elem) : List Elem :=
  let n := unitBytes x.place * 8 - x.op.bit % (unitBytes x.place * 8)
  match x.op.kind with
  | .write v =>
    if x.op.w ≤ n then [x]
    else [{ x with op := { x.op with w := n, kind := .write (v % 2 ^ n) } },
          { x with va := x.va + ((x.op.bit + n) / 8 - x.op.bit / 8), op := { bit := x.op.bit + n, w := x.op.w - n, kind := .write (v / 2 ^ n) } }]
  | .rmw .. => [x]

/-- Groups the elements of an iteration into accesses: one for each run of elements of one sector or pool
word. -/
def groupAccesses (ctr : Nat) (l : List Elem) : List Access :=
  ((l.flatMap Elem.parts).foldl (fun (acc : List Access) x =>
    let u := x.op.bit / 8 / unitBytes x.place
    let one : Access := { place := x.place, unit := u, va := x.va, ctr := ctr, hot := x.hot, rm := x.rm, ops := [x.op] }
    match acc with
    | a :: rest => if a.place = x.place ∧ a.unit = u then { a with ops := x.op :: a.ops } :: rest else one :: acc
    | [] => [one]) []).reverse.map fun a => { a with ops := a.ops.reverse }

def Piece.hot (p : Piece) : Option Nat := if p.phys.hs then some p.phys.size else none

/-- One write for each piece of an element, low bits first. -/
def pieceWrites (ps : List Piece) (v : Nat) : List Elem :=
  match ps with
  | [] => []
  | p :: rest =>
    { place := p.phys.place, va := p.va, hot := p.hot, op := { bit := p.bit, w := p.w, kind := .write (v % 2 ^ p.w) } } ::
      pieceWrites rest (v / 2 ^ p.w)

/-- The writes of values to bit addresses of D's space, as tile writes or as accesses (R149, R152). -/
structure Writes where
  tile   : List TileWrite := []
  memory : List Access := []
  pool   : List Access := []
  deriving DecidableEq, Repr, Inhabited

def writeBitsAt (s : State) (r : EngRef) (x : Desc) (w ctr : Nat) (addrs : List Int) (vals : List Nat) :
    Except BlockFault Writes :=
  match x.space with
  | 1 => .ok { tile := addrs.zipWith (fun a v => .tp a.toNat w v) vals }
  | 8 => .ok { tile := addrs.zipWith (fun a v => .wb a.toNat w v) vals }
  | 4 =>
    match translateElems s r .write true w addrs with
    | .error e => .error e
    | .ok pss => .ok { memory := groupAccesses ctr ((pss.zip vals).flatMap fun (ps, v) => pieceWrites ps v) }
  | _ =>
    match poolOf r x with
    | some (p, base, _) =>
      .ok { pool := groupAccesses ctr (addrs.zipWith (fun a v =>
        { place := p, rm := x.space == spRm, op := { bit := base * 8 + a.toNat, w := w, kind := .write v } }) vals) }
    | none => .ok {}

/-- Writes an operand's window of an iteration. -/
def writeOperand (s : State) (r : EngRef) (x : Desc) (w : Nat) (b : LBlk) (k : Nat) (vals : List Nat) :
    Except BlockFault Writes :=
  match poolWindowCheck s r x w (b.counters k) with
  | .error e => .error e
  | .ok () => writeBitsAt s r x w (packCtr (b.counters k)) (elemBits x (originAt s r x (b.counters k)) w) vals

/-- Is a full gm address of an operand on the unit of its format (R33: checked again at issue)? -/
def gmAligned (s : State) (r : EngRef) (x : Desc) (unit : Nat) : Bool :=
  x.space != spGm || (baseAddr s r x) % unit == 0

end Sys2Proof.Machine
end

