-- ==== Sys2Proof/Machine/Homes.lean ====
section
/-! DEFINITION. What a home does with an access: writes, store-reduce and atomic steps and updates of
completion objects (R149, R154, R156, R157, R185), poison (R164), sampling (R278). -/

namespace Sys2Proof.Machine

/-- The new value of a word: f of R154, R156 and R185. -/
def Rmw.apply (f : Rmw) (old x e : Nat) : Nat :=
  match f with
  | .add fmt sat => wrapClamp fmt sat (intVal fmt old + intVal fmt x)
  | .smin => if signed 32 x < signed 32 old then x else old
  | .smax => if signed 32 old < signed 32 x then x else old
  | .umin => min old x
  | .umax => max old x
  | .and => andN old x
  | .or => orN old x
  | .xor => xorN old x
  | .xch => x
  | .cas => if old = e then x else old
  | .fadd rm => fp32.add rm false old x
  | .fmin => fp32.minNum old x
  | .fmax => fp32.maxNum old x
  | .postAdd => (old + x) % 2 ^ 64
  | .postMax => max old x
  | .postWrite => x

/-! ### Sampling -/

/-- Homes by number: stacks H0 to H11, the LPDDR Carafes of X0 and X1, the CXL Carafes of X0 and X1 (R8, R10). -/
def homeNum (t : Tier) (a : Nat) : Nat :=
  match t with
  | .hbm => a / 2 ^ 36
  | .lpddr => 12 + a / 2 ^ 39
  | .cxl => 14 + ofBool (Config.cxlOnX1 (a / pageBytes))
  | .host => 14

/-- The Carafe that serves an address of a place, none for a pool: a peer's is that of the die whose scale-up port the
access leaves by (R10). The front end is the home of a launch page (R10), which names no Carafe: such an access is counted at
the CXL Carafe of X0 (DESIGN CHOICE, log 46). -/
def carafeOf (p : Place) (a : Nat) : Option Nat :=
  match p with
  | .tier t => some (homeNum t a)
  | .peer => some (14 + ofBool (Config.peerOnX1 (a / pageBytes)))
  | .launchPage => some 14
  | .clusterPool => none
  | .diePool => none

/-- Key of the hotness counter of the page of 2^size bytes that holds a tier address. -/
def hotKey (t : Tier) (a size : Nat) : Nat := a / 2 ^ size * 2 ^ size / pageBytes * 4 + t.num

/-- The counters with every sample due added; a counter stays at 255 (R278). -/
def Percolator.drain (p : Percolator) : Percolator :=
  { p with due := [], hot := p.due.foldl (fun m k => Map.upd 0 m k fun v => min 255 (v + 1)) p.hot }

/-- The parameters as last written come into force: at an eligible access, and as a period ends (R280). -/
def Percolator.adopt (p : Percolator) : Percolator :=
  { p with policy := { promo := p.promo, demo := p.demo, lowmark := p.lowmark, auto := p.auto } }

/-- Counts an eligible access at its home; every 2^SAMPLE-th makes a sample due (R278). -/
def State.sampleAccess (s0 : State) (p : Place) (a size : Nat) : State :=
  match p with
  | .tier t =>
    let s : State := { s0 with perc := s0.perc.adopt }
    let (t', a') := s.serveAt t a
    let h := homeNum t' a'
    let n := Map.get 0 s.perc.counts h + 1
    if n < 2 ^ s.perc.sample then { s with perc := { s.perc with counts := Map.set 0 s.perc.counts h n } }
    else
      let q := if t' = .host then s.perc.due else s.perc.due ++ [hotKey t' a' size]
      { s with perc := { s.perc with counts := Map.set 0 s.perc.counts h 0, due := q } }
  | _ => s0

/-- Samples a list of sectors read by an iteration. -/
def State.sampleAll (s : State) (l : List (Place × Nat × Nat)) : State :=
  l.foldl (fun s (p, sector, size) => s.sampleAccess p (sector * 32) size) s

/-! ### Performing an access -/

/-- Does a list of writes cover every bit of a unit of n bytes whose first bit is lo? -/
def coversUnit (lo n : Nat) (ops : List HomeOp) : Bool :=
  (ops.all fun o => match o.kind with | .write _ => true | _ => false) &&
  (upto (n * 8)).all fun i => ops.any fun o => decide (o.bit ≤ lo + i) && decide (lo + i < o.bit + o.w)

/-- One element: a write, or a serialised step that may return the old value. -/
def State.performOp (s : State) (p : Place) (o : HomeOp) : State × List TileWrite :=
  match o.kind with
  | .write v => (s.writeBits p o.bit o.w v, [])
  | .rmw f x e ret =>
    let old := s.readBits p o.bit o.w
    (s.writeBits p o.bit o.w (f.apply old x e), match ret with | some b => [.tp b o.w old] | none => [])

def State.performOps (s : State) (p : Place) : List HomeOp → State × List TileWrite
  | [] => (s, [])
  | o :: os =>
    let (s1, w1) := s.performOp p o
    let (s2, w2) := s1.performOps p os
    (s2, w1 ++ w2)

/-- The key of the unit of an access whose poison counts, where the access is ordered. -/
def State.unitKey (s : State) (a : Access) : Nat := let (p, u) := s.homeUnit a.place a.unit; poisonKey p u

/-- ACC of an access: 3 for a read-modify-write step, 2 for a write (R164). -/
def Access.acc (a : Access) : Nat := if a.ops.any fun o => match o.kind with | .write _ => false | _ => true then 3 else 2

/-- What a home has written is remembered, for the reads that are not ordered after it (R189) and the acquires that read it
(R187): s is the state before, t the state after. -/
def State.remember (s t : State) (a : Access) : State :=
  let (p, u) := s.homeUnit a.place a.unit
  let before := s.unitBits p u
  let after := t.unitBits p u
  if before = after ∧ a.rel.isNone then t
  else { t with history := { step := s.steps, place := p, unit := u, before := before, after := after, ops := a.ops, rel := a.rel } :: t.history }

/-- Performs one access at its home, in one serialised step. -/
def State.serve (s : State) (a : Access) : State × List TileWrite :=
  let (s1, w) := s.performOps a.place a.ops
  (s.remember s1 a, w)

/-- Performs one access at its home: a partial write or a step on a poisoned unit does nothing and faults,
a write of the whole unit clears its poison (R164). -/
def State.performAccess (s : State) (a : Access) : State × List TileWrite × Option BlockFault :=
  let s0 := match a.hot with | some size => s.sampleAccess a.place (a.unit * unitBytes a.place) size | none => s
  let key := s0.unitKey a
  if Map.get false s0.poison key then
    if coversUnit (a.unit * unitBytes a.place * 8) (unitBytes a.place) a.ops then
      let s1 : State := { s0 with poison := Map.set false s0.poison key false }
      let s2 := s1.log { time := s.cycle, kind := 0x13, addr := a.unit * unitBytes a.place }
      let (s3, w) := s2.serve a
      (s3, w, none)
    else (s0, [], some { cause := .poison, fva := a.va, acc := a.acc, ctr := a.ctr })
  else
    let (s1, w) := s0.serve a
    (s1, w, none)

/-- Performs accesses in order; the first fault is reported, the other accesses are performed: R164 leaves open which are
(DESIGN CHOICE, log 41). -/
def State.performAll (s : State) : List Access → State × List TileWrite × Option BlockFault
  | [] => (s, [], none)
  | a :: as =>
    let (s1, w1, f1) := s.performAccess a
    let (s2, w2, f2) := s1.performAll as
    (s2, w1 ++ w2, f1 <|> f2)

/-! ### What a read may see (R187, R189, log 54) -/

/-- Does a past access only write, with no step of an atomic or a POST? -/
def Past.plain (e : Past) : Bool := e.ops.all fun o => match o.kind with | .write _ => true | .rmw .. => false

/-- What homes have written to a unit, the latest first. -/
def State.pastOf (s : State) (p : Place) (u : Nat) : List Past := s.history.filter fun e => e.place == p && e.unit == u

/-- Is what a unit holds the latest of its past writes, and not another agent's? -/
def State.pastHolds (s : State) (p : Place) (u : Nat) : Bool := (s.pastOf p u).head?.map (·.after) == some (s.unitBits p u)

/-- The plain writes to a unit, of steps after one, that a read ordered after none of them may miss. -/
def State.mayMiss (s : State) (since : Nat) (p : Place) (u : Nat) : List Past :=
  if s.pastHolds p u then (s.pastOf p u).takeWhile fun e => e.plain && decide (since < e.step) else []

/-- A unit as such a read may find it: the latest of those writes undone. How many is open for each unit (R189, log 2). -/
def State.agedUnit (s : State) (since : Nat) (x : Place × Nat) : State :=
  let l := s.mayMiss since x.1 x.2
  match (l.take (s.free (2 ^ 88 + poisonKey x.1 x.2) % (l.length + 1))).getLast? with
  | some e => s.putUnit x.1 x.2 e.before
  | none => s

/-- Memory as the reads of an iteration find it. -/
def State.aged (s : State) (since : Nat) : State :=
  (((s.history.filter fun e => decide (since < e.step)).map fun e => (e.place, e.unit)).eraseDups).foldl (·.agedUnit since) s

theorem State.aged_none {s : State} (h : s.history = []) (since : Nat) : s.aged since = s := by simp [State.aged, h]

/-- Do two tiles lie in one instance of a scope (R187)? -/
def sameInstance (scope a b : Nat) : Bool :=
  match scope with
  | 0 => a == b
  | 1 => clusterOf a == clusterOf b
  | 2 => dieOf a == dieOf b
  | _ => true

/-- Does a past write touch w bits of its unit, of n bits, from an offset? -/
def Past.touches (e : Past) (n off w : Nat) : Bool := e.ops.any fun o => decide (o.bit % n < off + w) && decide (off < o.bit % n + o.w)

/-- Does an acquire at a scope of a word that past writes have touched synchronise with a release: of the write whose value it
reads, or of one before it where only steps of atomics and POSTs came between (R187)? A word that no remembered write has
touched may hold a release of any agent. -/
def syncsWith (tile scope n off w : Nat) : List Past → Bool
  | [] => true
  | e :: l =>
    if !e.touches n off w then syncsWith tile scope n off w l
    else
      (match e.rel with | some (t, sc) => sameInstance (min sc scope) t tile | none => false) ||
      (!e.plain && syncsWith tile scope n off w l)

/-- Does an acquire of the word of n bytes at a VA synchronise with a release? A word of another module's memory may. -/
def State.syncs (s : State) (r : EngRef) (scope : Nat) (va : Int) (n : Nat) : Bool :=
  match translateElems s r .read false (8 * n) [8 * va] with
  | .error _ => true
  | .ok pss =>
    (pss.flatMap id).any fun p =>
      let k := 8 * unitBytes p.phys.place
      let (pl, u) := s.homeUnit p.phys.place (p.bit / k)
      pl == .peer || !s.pastHolds pl u || syncsWith r.tile scope k (p.bit % k) p.w (s.pastOf pl u)

/-! ### Handing forks to homes (R12, R121, R148) -/

/-- Sectors and words that accesses touch. -/
def unitsOf (l : List Access) : List (Place × Nat) := l.map fun a => (a.place, a.unit)

/-- Does a fork of an earlier block of an engine's own chain still hold an access to this one's unit (R155)? -/
def State.ownHolds (s : State) (r : EngRef) (serial : Nat) (a : Access) : Bool :=
  s.forks.any fun g => g.task == s.taskOf r && g.ref.eng == r.eng && decide (g.serial < serial) &&
    match g.kind with | .mem fl he => (unitsOf (fl ++ he)).contains (a.place, a.unit) | .spawn .. => false

/-- Accesses that a fork of memory accesses still holds back. -/
def Fork.heldBack (f : Fork) : List Access := match f.kind with | .mem _ he => he | .spawn .. => []

/-- Accesses of forks that a Carafe has in flight. -/
def State.carafeLoad (s : State) (h : Nat) : Nat :=
  (s.forks.map fun f => match f.kind with
    | .mem fl _ => fl.countP fun a => carafeOf a.place (a.unit * unitBytes a.place) == some h
    | .spawn .. => 0).sum

/-- How many accesses at the front of a list go out: each needs an outstanding access of the tile, of which room are free,
and one of its Carafe's (R12, R121). An access to a word of a pool takes one of the tile's too, and has no Carafe (DESIGN
CHOICE, log 46: R12 speaks of sector accesses). before: the Carafes of those that go out before it. -/
def State.admitted (s : State) : Nat → List Nat → List Access → Nat
  | _, _, [] => 0
  | 0, _, _ :: _ => 0
  | room + 1, before, a :: l =>
    match carafeOf a.place (a.unit * unitBytes a.place) with
    | some h => if carafeAccesses ≤ s.carafeLoad h + before.count h then 0 else 1 + s.admitted room (h :: before) l
    | none => 1 + s.admitted room before l

/-- The accesses of a chain as homes take them: after a FENCE its writes are releases (R184). -/
def State.fenced (s : State) (r : EngRef) (l : List Access) : List Access :=
  match (s.chain r).fence with
  | none => l
  | some sc => l.map fun a => { a with rel := some (r.tile, max sc ((a.rel.map (·.2)).getD 0)) }

/-- Adds accesses to the fork of a block, or of a pull stream on a ring, as many in flight as its tile and the Carafes have
free accesses for. -/
def State.addFork (s : State) (r : EngRef) (block serial : Nat) (l0 : List Access) (pull : Option Nat := none) : State :=
  if l0.isEmpty then s
  else
    let l := s.fenced r l0
    let t := s.tile r.tile
    let same (f : Fork) : Bool := f.task == s.taskOf r && f.ref.eng == r.eng && f.block == block && f.serial == serial
    let all := ((s.forks.find? same).map Fork.heldBack).getD [] ++ l
    let n := s.admitted (tileAccesses - t.accesses) [] all
    let more (f : Fork) : Fork :=
      match f.kind with
      | .mem fl _ => if same f then { f with kind := .mem (fl ++ all.take n) (all.drop n) } else f
      | .spawn .. => f
    let f : Fork := { task := s.taskOf r, pasid := (s.task (s.taskOf r)).pasid, ref := r, block := block, serial := serial, pull := pull,
                      kind := .mem (all.take n) (all.drop n) }
    { s with forks := if s.forks.any same then s.forks.map more else s.forks ++ [f],
             tiles := Map.set {} s.tiles r.tile { t with accesses := t.accesses + (all.take n).length } }

end Sys2Proof.Machine
end

