-- ==== Sys2Proof/Machine/Storage.lean ====
section
/-! DEFINITION. Storage that checks what it delivers (R112, R114, R115, R195, R236, R237, R338; log 33): the banks of the
tile pool, what an iteration of a block reads, and what becomes of a read whose check fails. -/

namespace Sys2Proof.Machine

/-! ### Banks of the tile pool (R112, R115) -/

/-- XOR of the 5-bit chunks of a 32-bit number. -/
def fold5 (x : Nat) : Nat := (upto 7).foldl (fun h k => xorN h (bits x (5 * k) 5)) 0

/-- Does the tile run in hashed mode (R115)? -/
def Tile.inHashed (t : Tile) : Bool := t.hashed || !t.parityOut.isEmpty

/-- What hashed mode adds to the banks of a row of a slot. -/
def bankHash (s : State) (tile slot row : Nat) : Nat :=
  if (s.tile tile).inHashed then fold5 (xorN (s.slotAt tile slot).key row) else 0

/-- The bank of a tile pool offset of a slot. -/
def bankOf (s : State) (r : EngRef) (off : Nat) : Nat :=
  let p := r.slot * tpBytes + off % tpBytes
  xorN (bits p 3 5) (bankHash s r.tile r.slot (bits p 8 12))

/-- The group of a bank: eight data banks and the parity bank that holds the XOR of their words. -/
def groupOfBank (bank : Nat) : Nat := bank / 8

/-- The offset in a slot's share of the word of a row and bank, none if the row is of another slot. -/
def wordOffset (s : State) (r : EngRef) (row bank : Nat) : Option Nat :=
  if row / 1024 = r.slot then some (row % 1024 * 256 + 8 * xorN bank (bankHash s r.tile r.slot row)) else none

/-! ### What an iteration reads -/

/-- Storage that an iteration reads: stretches of the slot's tp and wb shares; stretches of a pool with the flat address of
its byte 0; cells; registers. asTile: the class lists 0x301 for its wb sources. -/
structure Reads where
  tiles  : List Touch := []
  pools  : List (Place × Nat × Int × Int) := []
  cells  : List Nat := []
  regs   : List Nat := []
  asTile : Bool := false

/-- The accumulating matrix forms, whose blocks on one cell act in chain order (R241). -/
def isAccumulating : Instr → Bool
  | .mma .. | .mmas .. | .mmd .. | .mmc .. => true
  | _ => false

/-- Forms that read old D as a third source. -/
def readsOld : Instr → Bool
  | .vfma .. | .vfms .. | .vfnma .. | .vimad .. => true
  | _ => false

/-- Forms whose D takes no merge under the mask: the mask selects or filters, or there is none (R199, R221, R223). -/
def takesNoMerge : Instr → Bool
  | .vrun _ | .vlen _ | .vst _ | .vldr _ | .vstr _ | .vsel _ | .vmcnt _ | .vmfst _ | .vrsum _ | .vrisum _ | .vrmax _ | .vrmin _
  | .vrarg _ | .vrcnt _ | .vcomp _ | .vrco _ | .vrcot _ | .vtopk _ | .vhist _ | .vdot _ | .pk4 _ => true
  | _ => false

/-- Does a form read the old elements of its register D: a window's, those a merge mask keeps, a third source (R199, R200)? -/
def readsOldD (i : Instr) (b : LBlk) : Bool := b.d.pad != 0 || readsOld i || (b.msk == 1 && b.zm == 0 && !takesNoMerge i)

/-- Key of an accumulator cell. -/
def cellKey (p : Int × Int) : Nat := (p.1 * 64 + p.2).toNat

/-- A source window of an iteration in the slot's shares or in a pool. -/
def windowReads (s : State) (r : EngRef) (f : InFlight) (x : Desc) (w extra : Nat) (c : Counters) : Reads :=
  let spans := (lineSpans x (originAt s r x c) w).map fun (lo, hi) => (lo, hi + (extra : Int))
  if isTileSpace x.space then { tiles := spans.map fun (lo, hi) => { space := tileSpace x.space, lo := lo, hi := hi, write := false } }
  else
    match poolOf r x, ringSource s r f x.base with
    | some (p, base, _), _ => { pools := spans.map fun (lo, hi) => (p, base, lo, hi) }
    | none, some (sp, bit) =>
      if x.space = spRq then { tiles := [{ space := sp, lo := bit / 8, hi := (bit / 8 + ((x.seg + 1) * w + 7) / 8 : Nat), write := false }] } else {}
    | none, none => {}

def Reads.and (a b : Reads) : Reads :=
  { tiles := a.tiles ++ b.tiles, pools := a.pools ++ b.pools, cells := a.cells ++ b.cells, regs := a.regs ++ b.regs,
    asTile := a.asTile || b.asTile }

/-- What the kth iteration of a block reads by its operands; windows that its own data places are not among them. -/
def operandReads (s : State) (r : EngRef) (f : InFlight) (k : Nat) : Reads :=
  match lParts f.instr with
  | none =>
    { tiles := (windowsOf true s r f.instr).filter (fun t => !t.write) ++
        (match f.instr with | .brcd _ _ off => [{ space := spTp, lo := off, hi := (off + 4 : Nat), write := false }] | _ => []),
      regs := match f.instr with | .patchv _ _ _ _ v => [v] | _ => [] }
  | some (cls, op, b) =>
    let c := b.counters k
    let placed : Bool := match f.instr with | .ldx _ => b.a.space == spTp | _ => lateA cls op
    let a := if placed ∨ (cls = 1 ∧ op = 5 ∧ k ≠ 0) then {} else windowReads s r f b.a (widthA cls op b) 0 c
    let v := if writesB cls op then {} else windowReads s r f b.b (widthB cls op b) (metaBytes cls op b) c
    let d := if cls = 2 ∧ (poolOf r b.d).isSome ∧ 5 ≤ op then windowReads s r f b.d 32 0 c else {}
    let reg (x : Desc) (on : Bool) : List Nat := if x.space = spV ∧ on then [x.base] else []
    let cells (x : Desc) (on : Bool) : List Nat := if x.space = spAc ∧ on then (cellsAt x c).map cellKey else []
    ((a.and v).and d).and
      { cells := cells b.a true ++ cells b.d (isAccumulating f.instr),
        regs := reg b.a true ++ reg b.b true ++ reg b.d (readsOldD f.instr b) ++ (if b.msk = 1 then [b.mreg] else []),
        asTile := cls == 2 || cls == 5 }

/-! ### Checks that fail -/

/-- Does a stretch of a medium reach into n bytes from an offset? -/
def Touch.covers (t : Touch) (space off n : Nat) : Bool := t.space == space && decide (t.lo < (off + n : Nat)) && decide ((off : Int) < t.hi)

/-- Is the word of a row and bank of the tile pool read? -/
def Reads.wordRead (q : Reads) (s : State) (r : EngRef) (row bank : Nat) : Bool :=
  match wordOffset s r row bank with
  | some off => q.tiles.any (·.covers spTp off 8)
  | none => false

/-- Is a failing word met: it is read, or needed to rebuild a word of a bank out of service? A bank out of service is
itself not read. -/
def Reads.meetsWord (q : Reads) (s : State) (r : EngRef) (row bank : Nat) : Bool :=
  let out := (s.tile r.tile).banksOut
  !out.contains bank && (q.wordRead s r row bank || out.any fun b => groupOfBank b == groupOfBank bank && q.wordRead s r row b)

/-- Can the group of a bank rebuild its word of a row (R114)? -/
def State.rebuilds (s : State) (tile row bank : Nat) : Bool :=
  let t := s.tile tile
  let g := groupOfBank bank
  !t.parityOut.contains g && !(t.banksOut.any fun b => b != bank && groupOfBank b == g) &&
  !(s.env.fails.any fun e => match e with
    | .tileWord w _ => w / 32 == row && w % 32 != bank && groupOfBank (w % 32) == g
    | .parityBank h => h == g
    | _ => false)

/-- Is a failure met by what is read? -/
def failureMet (e : Failure) (s : State) (r : EngRef) (q : Reads) : Bool :=
  let reg (n : Nat) := q.regs.contains n
  let rc (n : Nat) := ((s.ctx r).vreg n).rc
  match e with
  | .tileWord w _ => q.meetsWord s r (w / 32) (w % 32)
  | .parityBank g => decide (g < 4) && !q.tiles.isEmpty && !(s.tile r.tile).parityOut.contains g
  | .weight w _ => q.tiles.any (·.covers spWb (8 * w) 8)
  | .cell k => q.cells.contains k
  | .run n i => reg n && decide (i < rc n)
  | .runCopy n i => reg n && decide (i < rc n) && decide (rc n ≤ 511 - i) && !((s.ctx r).vreg n).lost.contains (i + 1)
  | .header n => reg n
  | .headerCopy n => reg n && !((s.ctx r).vreg n).lost.contains 0
  | .sector .. => false
  | .shared p w _ => q.pools.any fun (p', base, lo, hi) => p' == p && decide ((base : Int) + lo < (8 * w + 8 : Nat)) && decide ((8 * w : Nat) < (base : Int) + hi)

/-- Has a register a duplicate of a run with good parity (R195)? -/
def State.duplicateOk (s : State) (r : EngRef) (n i : Nat) : Bool :=
  let g := (s.ctx r).vreg n
  decide (g.rc ≤ 511 - i) && !g.lost.contains (i + 1) && !s.env.fails.contains (.runCopy n i)

/-- The fault of a failure that is met, none where the storage repairs it. A wb source of class 2 or class 5 has 0x301, which
the tables of these classes give for it (R165, R235); any other has the 0x304 of R237 (DEDUCED, log 33). -/
def State.failureFault (s : State) (r : EngRef) (q : Reads) : Failure → Option BlockFault
  | .tileWord w _ => if s.rebuilds r.tile (w / 32) (w % 32) then none else some { cause := .tilePoolError }
  | .weight _ lasting =>
    if lasting then some { cause := if q.asTile then .tilePoolError else .weightError } else none
  | .cell _ => some { cause := .registerParity }
  | .run n i => if s.duplicateOk r n i then none else some { cause := .registerParity }
  | .header n => if ((s.ctx r).vreg n).lost.contains 0 || s.env.fails.contains (.headerCopy n) then some { cause := .registerParity } else none
  | .shared p w lasting =>
    if lasting then
      some { cause := .poison, acc := 1, fva := match q.pools.find? fun e => e.1 == p with | some (_, base, _, _) => 8 * w - base | none => 0 }
    else none
  | .parityBank _ => none
  | .runCopy .. => none
  | .headerCopy _ => none
  | .sector .. => none

/-- Can every word of a bank out of service be rebuilt (R114)? -/
def Tile.whole (t : Tile) : Bool :=
  t.banksOut.all fun b => !t.parityOut.contains (groupOfBank b) && !(t.banksOut.any fun c => c != b && groupOfBank c == groupOfBank b)

/-- No check of a tile's storage fails in this turn, and every word of it can be delivered. -/
def State.calm (s : State) (r : EngRef) : Bool := s.env.fails.isEmpty && (s.tile r.tile).whole

/-- Offsets of the words of the slot's tile pool that are read. -/
def Reads.words (q : Reads) : List Nat :=
  q.tiles.flatMap fun t =>
    if t.space = spTp then (upto ((t.hi.toNat + 7) / 8 - t.lo.toNat / 8)).map fun k => 8 * (t.lo.toNat / 8 + k) else []

/-- Is a word read that its bank, out of service, does not hold and its group cannot rebuild (R114)? -/
def Reads.meetsDead (q : Reads) (s : State) (r : EngRef) : Bool :=
  q.words.any fun off =>
    let bank := bankOf s r off
    (s.tile r.tile).banksOut.contains bank && !s.rebuilds r.tile (bits (r.slot * tpBytes + off % tpBytes) 8 12) bank

/-- Storage kinds of Thyme events 0x10 and 0x11 (log 33): tile pool 0, weight buffer 1, registers 2, then the places of a
pool and of the tiers. -/
def storageKind : Place → Nat
  | .clusterPool => 4 | .diePool => 5 | .tier t => 8 + t.num | .launchPage => 6 | .peer => 7

/-- Logs a transient error of a tile's storage. -/
def State.logTransient (s : State) (r : EngRef) (addr kind : Nat) : State :=
  s.log { time := s.cycle, pasid := (s.task (s.taskOf r)).pasid, tile := r.tile, slot := r.slot, eng := r.eng.num, kind := 0x10, addr := addr, data := kind }

/-- Adds 1 to a count of items out of service (capability 0x0005): 0 banks, 1 lines, 2 granules. A count stays at 65,535. -/
def Management.outOf (m : Management) (k : Nat) : Management :=
  if bits m.outOfSvc (16 * k) 16 < 65535 then { m with outOfSvc := m.outOfSvc + 2 ^ (16 * k) } else m

/-- Reports storage that goes out of service: an event, and its count. -/
def State.logOut (s : State) (tile addr kind count : Nat) : State :=
  ({ s with mgmt := s.mgmt.outOf count } : State).log { time := s.cycle, tile := tile, kind := 0x11, addr := addr, data := kind }

/-- What a step reads from: the state, its slot as the block sees it, and the block's own pending writes. -/
structure Seen where
  s  : State
  v  : Ctx
  ws : List TileWrite := []

/-- The state with the slot as the block sees it. -/
def Seen.view (x : Seen) (r : EngRef) : State := x.s.setCtx r x.v

/-- A register of a list of writes loses a duplicate, where it holds g. -/
def dropIn (n k : Nat) (g : VReg) (l : List TileWrite) : List TileWrite :=
  l.map fun w => match w with | .vreg m h => if m = n ∧ h = g then .vreg m { h with lost := k :: h.lost } else w | _ => w

/-- Drops a duplicate of a register the block reads: in its slot where the block sees the slot's value, else in the pending
write that gives the value, the block's own or another block's that is in flight (R91). -/
def Seen.dropDuplicate (x : Seen) (r : EngRef) (n k : Nat) : Seen :=
  let g := x.v.vreg n
  let less (g : VReg) : VReg := { g with lost := k :: g.lost }
  let v := { x.v with vregs := Map.upd {} x.v.vregs n less }
  if (x.s.ctx r).vreg n = g then { x with v := v, s := x.s.updCtx r fun c => { c with vregs := Map.upd {} c.vregs n less } }
  else
    { x with v := v, ws := dropIn n k g x.ws,
             s := x.s.updCtx r fun c => c.updChains fun _ h =>
               { h with inflight := h.inflight.map fun f => { f with writes := dropIn n k g f.writes, beaten := dropIn n k g f.beaten } } }

/-- A granule goes out of service: it is never handed to another PASID (R338). -/
def State.granuleOut (s : State) (p : Place) (word : Nat) : State :=
  let key := granuleKey p (8 * word)
  if Map.get false s.granulesOut key then s
  else ({ s with granulesOut := Map.set false s.granulesOut key true } : State).logOut 0 (8 * word) (storageKind p) 2

/-- Changes the state alone. -/
def Seen.upd (x : Seen) (f : State → State) : Seen := { x with s := f x.s }

/-- What a failure that is met leaves: the event, a bank, a parity bank or a granule out of service, a dropped duplicate,
poison (R114, R195, R237, R338). -/
def Seen.repairOne (x : Seen) (r : EngRef) : Failure → Seen
  | .tileWord w lasting => x.upd fun s =>
    if !s.rebuilds r.tile (w / 32) (w % 32) then s
    else if lasting then
      let t := s.tile r.tile
      (s.setTile r.tile { t with banksOut := w % 32 :: t.banksOut }).logOut r.tile (w % 32) 0 0
    else s.logTransient r (8 * w) 0
  | .parityBank g => x.upd fun s =>
    let t := s.tile r.tile
    (s.setTile r.tile { t with parityOut := g :: t.parityOut }).logOut r.tile (32 + g) 0 0
  | .weight w lasting => x.upd fun s => if lasting then s else s.logTransient r (8 * w) 1
  | .cell _ => x
  | .run n i => x.upd fun s => if (x.view r).duplicateOk r n i then s.logTransient r (512 * n + i) 2 else s
  | .runCopy n i => (x.dropDuplicate r n (i + 1)).upd fun s => s.logTransient r (512 * n + 511 - i) 2
  | .header n => x.upd fun s => if (x.v.vreg n).lost.contains 0 || s.env.fails.contains (.headerCopy n) then s else s.logTransient r (512 * n) 2
  | .headerCopy n => (x.dropDuplicate r n 0).upd fun s => s.logTransient r (512 * n) 2
  | .shared p w lasting => x.upd fun s =>
    if lasting then ((s.setPoison p w true).granuleOut p w).log { time := s.cycle, kind := 0x12, addr := 8 * w }
    else s.log { time := s.cycle, kind := 0x10, addr := 8 * w, data := storageKind p }
  | .sector .. => x

/-- The failures of a list that what is read meets, one after another: the first that nothing repairs is the fault, and leaves
what R338 says of it (a word of a pool is poisoned in place). -/
def Seen.meet (r : EngRef) (q : Reads) : List Failure → Seen → Option BlockFault × Seen
  | [], x => (if q.meetsDead x.s r then some { cause := .tilePoolError } else none, x)
  | e :: l, x =>
    if !failureMet e (x.view r) r q then Seen.meet r q l x
    else
      match (x.view r).failureFault r q e with
      | some f => (some f, x.repairOne r e)
      | none => Seen.meet r q l (x.repairOne r e)

/-- A read: its fault, or what its repairs leave. -/
def Seen.delivers (x : Seen) (r : EngRef) (q : Reads) : Option BlockFault × Seen :=
  if x.s.calm r then (none, x) else Seen.meet r q x.s.env.fails x

theorem Seen.delivers_calm {x : Seen} {r : EngRef} (h : x.s.calm r = true) (q : Reads) : x.delivers r q = (none, x) := by
  simp [Seen.delivers, h]

end Sys2Proof.Machine
end

