-- ==== Sys2Proof/Machine/Issue.lean ====
section
/-! DEFINITION. Issue, running over the nest, and completion of blocks, said once for every form: the
conditions and checks of issue (R27, R88, R90, R93, R142, R158, R170, R172, R173, R177, R178, R185), the values a
block sees (R91), its iterations (R29, R119, R150, R172, R173) and its completion (R89, R166, R337). -/

namespace Sys2Proof.Machine

/-! ### Kinds of forms -/

/-- The draining forms (R90). -/
def isDraining : Instr → Bool
  | .endChain .. | .yieldSlot .. | .svc .. | .trap .. | .brkp .. | .flti .. | .semi .. | .regd .. | .ringd .. | .fence .. => true
  | _ => false

/-- The holding forms (R90). -/
def isHolding : Instr → Bool
  | .patch .. | .patchi .. | .patchv .. | .semi .. | .regd .. | .ringd .. | .fence .. => true
  | _ => false

/-- Forms that issue only after every earlier block of their chain has completed and its forks have joined
(R158, R160, R177). -/
def isRelease (i : Instr) : Bool :=
  match i with
  | .strel .. | .sems .. | .bara .. | .post .. => true
  | _ =>
    match lParts i with
    | some (2, op, b) => decide (6 ≤ op) && decide (op ≤ 0x10) && bits b.cx 3 1 == 1
    | _ => false

/-- Forms that may complete in the step in which they issue, so that every later block is ordered after them. -/
def isImmediate : Instr → Bool
  | .nop .. | .endChain .. | .link .. | .brc .. | .brcd .. | .yieldSlot .. | .spawn .. | .sub .. | .subc .. | .pub .. | .pubc ..
  | .patch .. | .patchi .. | .patchv .. | .flti .. | .semi .. | .semw .. | .sems .. | .regd .. | .ringd .. | .eos .. | .bari ..
  | .join .. | .barw .. => true
  | _ => false

/-! ### Ring operands (R172) -/

/-- The rings whose slots a block reads, each once. -/
def rqRings (i : Instr) : List Nat :=
  match lParts i with
  | some (cls, _, b) =>
    if cls < 4 then []
    else
      let l := (if b.a.space = spRq then [b.a.base] else []) ++ (if b.b.space = spRq then [b.b.base] else [])
      l.eraseDups
  | none => []

/-- Iterations that read one slot: those of the loops inside loop RLVL. -/
def ringPeriod (b : LBlk) : Nat :=
  match b.rlvl with
  | 0 => 1
  | 1 => b.b0 + 1
  | 2 => (b.b0 + 1) * (b.b1 + 1)
  | _ => (b.b0 + 1) * (b.b1 + 1) * (b.b2 + 1)

def periodOf (i : Instr) : Nat := match lParts i with | some (_, _, b) => ringPeriod b | none => 1
def iterationsOf (i : Instr) : Nat := match lParts i with | some (_, _, b) => b.iterations | none => 1

/-- A ring that has received a token from each producer and holds no full slot is ended (R173). -/
def Ctx.ringEnded (c : Ctx) (g : Ring) : Bool := decide (g.prod ≤ g.tokens) && c.sem g.fsem == 0

/-! ### Counts a block takes at issue -/

def Ctx.ringNeeds (c : Ctx) (i : Instr) : List (Nat × Nat) :=
  (rqRings i).filterMap fun n => (c.ring n).map fun g => (g.fsem, 1)

/-- What SEMW subtracts (R178). -/
def semwTake : Instr → List (Nat × Nat)
  | .semw _ dec sem cnt => if dec = 1 then [(sem, cnt)] else []
  | _ => []

/-- What SEMW tests. -/
def semwTest : Instr → List (Nat × Nat)
  | .semw _ _ sem cnt => [(sem, cnt)]
  | _ => []

/-- Every count the block takes at issue. -/
def Ctx.takes (c : Ctx) (i : Instr) : List (Nat × Nat) := Ctl.waits (ctlOf i) ++ c.ringNeeds i ++ semwTake i

/-- Semaphores that a block tests or takes from as it issues, each with its count. -/
def Ctx.testsOf (c : Ctx) (i : Instr) : List (Nat × Nat) := c.takes i ++ semwTest i

/-- The sum that a list asks of one semaphore. -/
def totalOf (l : List (Nat × Nat)) (n : Nat) : Nat := ((l.filter (·.1 == n)).map (·.2)).sum

/-- The semaphore conditions of issue, tested together (R27, R172, R178). -/
def Ctx.semsHold (c : Ctx) (i : Instr) : Bool :=
  ((c.takes i).all fun (n, _) => decide (totalOf (c.takes i) n ≤ c.sem n)) &&
  (semwTest i).all fun (n, k) => decide (k ≤ c.sem n)

/-- Does the block need a count of the full semaphore of an ended ring (R173)? DESIGN CHOICE (log 41): a SEMW that does is
skipped and meets no 0x204 (R178), since R173 names SEMW among the blocks that are skipped and a skipped block performs
nothing. -/
def Ctx.skips (c : Ctx) (i : Instr) : Bool :=
  c.ringList.any fun (_, g) => c.ringEnded g && (c.takes i ++ semwTest i).any fun (n, _) => n == g.fsem

/-- Subtracts the counts of the DW1 waits and moves the cursors of the rings they belong to (R88, R171). -/
def Ctx.takeWaits (c : Ctx) (ws : List (Nat × Nat)) : Ctx :=
  ws.foldl (fun c (n, k) =>
    let c1 := c.setSem n (c.sem n - k)
    c1.ringList.foldl (fun c (j, g) =>
      if g.esem = n then c.setRing j (some { g with pcur := (g.pcur + k) % g.nslot })
      else if g.fsem = n then c.setRing j (some { g with ccur := (g.ccur + k) % g.nslot })
      else c) c1) c

/-- Takes one full slot of each ring that the block consumes. -/
def Ctx.takeSlots (c : Ctx) : List Nat → Ctx × List RingRight
  | [] => (c, [])
  | n :: ns =>
    match c.ring n with
    | none => c.takeSlots ns
    | some g =>
      let c1 := (c.setSem g.fsem (c.sem g.fsem - 1)).setRing n (some { g with ccur := (g.ccur + 1) % g.nslot })
      let (c2, l) := c1.takeSlots ns
      (c2, ⟨n, g.ccur, false⟩ :: l)

/-! ### What a block sees (R91) -/

/-- Applies the pending writes of one uncompleted block as a later block of its chain may see them: each
element written or not yet, a register after some number of its writes. all: in full. -/
def Ctx.shadow (c : Ctx) (s : State) (key : Nat) (all : Bool) (ws : List TileWrite) : Ctx :=
  let nv := ws.countP fun w => match w with | .vreg .. => true | _ => false
  let cut := s.free key % (nv + 1)
  (ws.foldl (fun (acc : Ctx × Nat × Nat) w =>
    let (c, n, v) := acc
    match w with
    | .vreg .. => (if all || decide (v < cut) then c.apply w else c, n + 1, v + 1)
    | _ => (if all || s.freeBit (key + 1 + n) then c.apply w else c, n + 1, v)) (c, 0, 0)).1

/-- The place of a write with what it holds now. -/
def Ctx.present (c : Ctx) : TileWrite → TileWrite
  | .tp b w _ => .tp b w (Memory.bits c.tp b w)
  | .wb b w _ => .wb b w (Memory.bits c.wb b w)
  | .acc k _ => .acc k (c.cell k)
  | .vreg n _ => .vreg n (c.vreg n)

/-- The slot's tile-owned state as the block at an index of its chain's in-flight list sees it. What a block that is not
ordered with it has overwritten since it issued may be seen still, element by element (R91). Accumulating forms see
earlier accumulating blocks in full (R241), and every block a block that was in flight at a context switch (R92). -/
def State.viewOf (s : State) (r : EngRef) (own : Nat) : Ctx :=
  let c0 := s.ctx r
  let fl := (c0.chain r.eng).inflight
  let c := c0.shadow s (2 ^ 84) false ((fl[own]?.map (·.beaten)).getD [])
  let me := (fl[own]?.map fun f => isAccumulating f.instr).getD false
  ((upto fl.length).foldl (fun (c : Ctx) j =>
    match fl[j]? with
    | some f =>
      if j = own then c.applyAll f.writes
      else c.shadow s (2 ^ 36 * (j + 1)) (decide (j < own) && (f.saved || (me && isAccumulating f.instr))) f.writes
    | none => c) c)

/-- The state with the slot as such a block sees it: reads of its sources go here. -/
def State.seenBy (s : State) (r : EngRef) (own : Nat) : State := s.setCtx r (s.viewOf r own)

/-- The index at which the next block to issue will stand. -/
def State.nextIndex (s : State) (r : EngRef) : Nat := (s.chain r).inflight.length

/-! ### Words that issue waits for -/

/-- The address rbN + ROFF of an S-form (R141, R159, R175, R281). -/
def rbAddr (s : State) (r : EngRef) (rb roff : Nat) : Int := ((s.ctx r).rbAt rb : Int) + signed 45 roff

/-- Reads n bytes at a VA for a block: one element. -/
def readWord (s : State) (r : EngRef) (va : Int) (n : Nat) : Except BlockFault (Nat × List (Place × Nat × Nat)) :=
  match translateElems s r .read false (8 * n) [8 * va] with
  | .error e => .error e
  | .ok pss => .ok (pss.foldl (fun _ ps => readPieces s ps) 0, hotSectors (pss.flatMap id))

/-- The n-byte word of the tile pool at an offset. -/
def Ctx.tpWord (c : Ctx) (off n : Nat) : Nat := Memory.nat c.tp off n

/-- Key of a rendezvous point of an engine's cluster. -/
def pointKey (r : EngRef) (pt : Nat) : Nat := clusterOf r.tile * 64 + pt

/-- Has the phase passed the one that a waiter holds (R183)? -/
def phasePassed (phase w : Nat) : Bool :=
  let d := (phase + 65536 - w % 65536) % 65536
  decide (1 ≤ d) && decide (d ≤ 32767)

/-- The aligned word that a block watches before it issues, its bytes and its threshold (R142, R185). -/
def State.watchOf (s : State) (r : EngRef) (i : Instr) : Option (Int × Nat × Nat) :=
  (match i with
   | .ldacq _ wt w64 _ rb roff imm _ => if wt = 0 then none else some (rbAddr s r rb roff, if w64 = 1 then 8 else 4, imm)
   | .join _ _ rb roff thr => some (rbAddr s r rb roff, 8, thr)
   | _ => none).filter fun (va, n, _) => va % (n : Nat) = 0

/-- The value that the home has reported for a block that has not issued. -/
def Chain.reported (h : Chain) (i : Instr) : Option Nat := (h.report.filter (·.1 == i)).map (·.2)

/-- Conditions of issue beside R88: the watches of LDACQ and JOIN, the phase of BARW. A block that would fault
at issue does not wait. The home reports when the chain's sequencer takes its turn (watchHead), and what it has reported
stays; a value that reached the threshold and left it between two turns is reported or not as the agenda has it (R186,
log 1). -/
def State.watchHolds (s : State) (r : EngRef) : Instr → Bool
  | .barw _ pt off =>
    let p := s.point (pointKey r pt)
    if p.owner ≠ some (s.task (s.taskOf r)).pasid then true
    else phasePassed p.phase (((s.seenBy r (s.nextIndex r)).ctx r).tpWord off 4)
  | i =>
    match s.watchOf r i with
    | none => true
    | some (va, n, thr) =>
      ((s.chain r).reported i).isSome || match readWord s r va n with | .error _ => true | .ok (v, _) => decide (thr ≤ v)

/-! ### Issue conditions (R88) -/

/-- Scoreboard slots set in a chain. -/
def Chain.slotSet (h : Chain) (k : Nat) : Bool := h.inflight.any fun f => (ctlOf f.instr).sbset == k

/-- Every slot of SBWAIT, and that of SBSET, is clear. -/
def Chain.boardClear (h : Chain) (c : Ctl) : Bool :=
  ((upto 15).all fun k => !(bitAt c.sbwait k && h.slotSet (k + 1))) && (c.sbset == 0 || !h.slotSet c.sbset)

/-- May the slot's task run at all? -/
def Slot.live (x : Slot) : Bool := x.task.isSome && !x.parking && !x.inPlace && !x.cancelled && !x.yielding

/-! ### Affine footprints (R32, R33, R93) -/

/-- A set of numbers as its least and a mask of them from there: the sums of its members with 0 to n times a stride. -/
def sweep (n : Nat) (st : Int) (a : Int × Nat) : Int × Nat :=
  if st = 0 then a
  else (a.1 + min 0 (n * st), (upto (n + 1)).foldl (fun m c => orN m (a.2 * 2 ^ (c * st.natAbs))) 0)

/-- The numbers that len of them from o sweep over some loops of a count and a stride. -/
def affineFoot (space : Nat) (o : Int) (len : Nat) (loops : List (Nat × Int)) (wr : Bool) : Foot :=
  let (lo, m) := loops.foldl (fun a (n, st) => sweep n st a) (o, 2 ^ len - 1)
  { space := space, lo := lo, mask := m, write := wr }

/-- The loops of the nest with the strides of an operand. -/
def nestLoops (b : LBlk) (x : Desc) (f : Nat → Int) : List (Nat × Int) := [(b.b0, f x.st0), (b.b1, f x.st1), (b.b2, f x.st2), (b.b3, f x.st3)]

/-- The bytes that an affine window covers over the nest, w bits an element, extra bytes after each line. -/
def windowFoot (s : State) (r : EngRef) (b : LBlk) (x : Desc) (w extra space : Nat) (wr : Bool) : Foot :=
  affineFoot space (baseAddr s r x) (((x.seg + 1) * w + 7) / 8 + extra) ((x.ext2, x.aux * 8) :: nestLoops b x (signed 32)) wr

/-- The cells that an ac window covers over the nest, by their keys: a step of a row is 64, one of a column 1. -/
def cellFeet (b : LBlk) (x : Desc) (wr : Bool) : List Foot :=
  if x.space ≠ spAc then []
  else
    let st (row col : Int) : Int := 64 * row + col
    let along : Int := match bits x.base 12 2 with | 0 => st 0 1 | 1 => st 1 0 | 2 => st 1 1 | _ => st 1 (-1)
    [affineFoot spAc (st (bits x.base 0 6) (bits x.base 6 6)) 1
      ((x.seg, along) :: (x.ext2, st (signed 8 x.aux) (signed 8 (x.aux / 256))) ::
        nestLoops b x fun v => st (signed 16 v) (signed 16 (v / 65536))) wr]

/-- A stretch as a footprint. -/
def Touch.foot (t : Touch) : Foot := { space := t.space, lo := t.lo, mask := 2 ^ (t.hi - t.lo).toNat - 1, write := t.write }

/-- Have two footprints a place in common? -/
def Foot.meets (a b : Foot) : Bool :=
  a.space == b.space &&
  (if a.lo ≤ b.lo then andN (a.mask / 2 ^ (b.lo - a.lo).toNat) b.mask else andN a.mask (b.mask / 2 ^ (a.lo - b.lo).toNat)) != 0

/-- Is the remaining budget of a slot's task used up (R308)? -/
def Ctx.spent (c : Ctx) : Bool := match c.budget with | some b => decide (b ≤ 0) | none => false

/-- May the chain issue or run on? Not past a spent budget (R308). -/
def State.runnable (s : State) (r : EngRef) : Bool :=
  let h := s.chain r
  (s.slotAt r.tile r.slot).live && !(s.ctx r).spent && h.present && !h.retired && h.stop == .running

/-- May an issued block of the chain run on to its pre-emption point, its task being about to park (R332)? -/
def State.nearsPoint (s : State) (r : EngRef) (f : InFlight) : Bool :=
  let x := s.slotAt r.tile r.slot
  let h := s.chain r
  x.task.isSome && x.parking && !x.cancelled && h.present && h.stop == .running && !f.atPoint

/-- Do two accumulating blocks name a common cell (R241)? -/
def sharesCells (i j : Instr) : Bool :=
  match lParts i, lParts j with
  | some (_, _, b), some (_, _, b') =>
    isAccumulating i && isAccumulating j && (cellFeet b b.d true).any fun p => (cellFeet b' b'.d true).any p.meets
  | _, _ => false

/-- Does an issued block keep every later block of its chain waiting: was it in flight at a context switch, after which a later
reader sees its writes in full (R92)? One that waits inside for a slot of its ring does not, since a later block may have to
fill it (log 47). -/
def InFlight.heldOver (f : InFlight) : Bool := f.saved && f.phase != .ring

/-- Do the steps, and the completion, of the issued block at an index wait for an earlier accumulating block that has a cell
in common with it? Sums are made in chain order (R73, R241): the later block begins when the earlier has completed. So it is
after a block that was in flight at a context switch. -/
def Chain.waitsBehind (h : Chain) (k : Nat) : Bool :=
  match h.inflight[k]? with
  | some f => (h.inflight.take k).any fun g => g.heldOver || sharesCells g.instr f.instr
  | none => false

/-- A pending guard fault is raised in place of this block (R170). -/
def Chain.guardDue (h : Chain) (i : Instr) : Bool :=
  h.guard.isSome && ((ctlOf i).wcnt != 0 || (ctlOf i).w2cnt != 0 ||
    match i with | .semw .. => true | .barw .. => true | .join .. => true | .endChain .. => true | _ => false)

/-! ### Outstanding accesses (R12, R120, R121) -/

/-- Does an L-form read or write device memory as its iterations run (R120, R134, R149)? -/
def usesMemory (i : Instr) : Bool :=
  match i, lParts i with
  | .ldw _, _ => true
  | _, some (_, _, b) => [b.a.space, b.d.space].any fun x => x == spGm || x == spTh
  | _, none => false

/-- Is no outstanding access free for an access to one of some Carafes: none of the tile's own, or of such a Carafe? -/
def State.noEntry (s : State) (tile : Nat) (carafes : List Nat) : Bool :=
  decide (tileAccesses ≤ (s.tile tile).accesses) || carafes.any fun h => decide (carafeAccesses ≤ s.carafeLoad h)

/-- Every Carafe: a gather, a scatter or a walk places its sectors as it runs, and waits while any is full (log 46). -/
def anyCarafe : List Nat := upto 16

/-- The Carafes that serve the elements of a list. -/
def carafesOf (s : State) (r : EngRef) (k : AccessKind) (w : Nat) (l : List (Option Int)) : List Nat :=
  match translateTile s r k w l with
  | .ok pss => pss.flatMap fun o => (o.getD []).filterMap fun p => carafeOf p.phys.place p.phys.addr
  | .error _ => []

/-- The Carafes that the sectors of a block's next iteration go to. -/
def State.nextCarafes (s : State) (r : EngRef) (f : InFlight) : List Nat :=
  match f.instr, lParts f.instr with
  | .ldw _, _ => anyCarafe
  | _, some (_, _, b) =>
    if b.b.space = spIx then anyCarafe
    else
      let side (k : AccessKind) (x : Desc) : List Nat :=
        if x.space = spGm then carafesOf s r k (memWidth b.fmt) ((elemBits x (originAt s r x (b.counters f.ctr)) (memWidth b.fmt)).map some)
        else if x.space = spTh then
          match f.handle with | some h => carafesOf s r k (memWidth h.fmt) (tileElems x h (b.counters f.ctr)) | none => []
        else []
      side .read b.a ++ side .write b.d
  | _, none => []

/-- Does an issued block's next iteration wait for an outstanding access? -/
def State.entriesShort (s : State) (r : EngRef) (f : InFlight) : Bool :=
  usesMemory f.instr && s.noEntry r.tile (if s.noEntry r.tile anyCarafe then s.nextCarafes r f else [])

/-- What a block accesses of device memory as it issues, and the width of its elements: an awaited word (R141, R175), the
descriptors of its th operands (R120, R126), the bytes that a patch writes (R102). -/
def State.issueAccesses (s : State) (r : EngRef) (i : Instr) : AccessKind × Nat × List (Option Int) :=
  let patch (len tgt : Nat) := (AccessKind.write, 8 * (len + 1), [some (8 * (nearTarget (s.chain r).cursor tgt : Nat) : Int)])
  match i with
  | .ldacq _ _ w64 _ rb roff _ _ => (.read, if w64 = 1 then 64 else 32, [some (8 * rbAddr s r rb roff)])
  | .join _ _ rb roff _ => (.read, 64, [some (8 * rbAddr s r rb roff)])
  | .patch _ len tgt _ => patch len tgt
  | .patchi _ len tgt _ => patch len tgt
  | .patchv _ len tgt _ _ => patch len tgt
  | _ =>
    match lParts i with
    | some (_, _, b) =>
      (.read, 64, [b.a, b.d].flatMap fun x =>
        if x.space = spTh then (upto 8).map fun k => some ((s.handleVa (s.task (s.taskOf r)).pasid x.base + 8 * k) * 8 : Nat) else [])
    | none => (.read, 64, [])

/-- Does its issue wait for an outstanding access? -/
def State.issueShort (s : State) (r : EngRef) (i : Instr) : Bool :=
  let (k, w, l) := s.issueAccesses r i
  !l.isEmpty && s.noEntry r.tile (if s.noEntry r.tile anyCarafe then carafesOf s r k w l else [])

/-! ### Stores to one sector in chain order (R155) -/

/-- Where the kth iteration of a store writes in device memory, and the width of its elements. -/
def storeTargets (s : State) (r : EngRef) (f : InFlight) (k : Nat) : Nat × List (Option Int) :=
  match lParts f.instr with
  | some (2, op, b) =>
    let w := memWidth b.fmt
    let o := originAt s r b.d (b.counters k)
    if b.d.space = spTh then (w, match f.handle with | some h => tileElems b.d h (b.counters k) | none => [])
    else if b.d.space ≠ spGm then (w, [])
    else if b.b.space ≠ spIx then (w, (elemBits b.d o w).map some)
    else
      match indexList s r f b k with
      | .error _ => (w, [])
      | .ok xs => (w, if padD 2 op then lineElems b.d w (indexed o (pitchOf b.d w) xs) else (indexed o (w / 8) xs).map fun a => a.map (8 * ·))
  | _ => (0, [])

/-- The sectors of these elements: of their VAs, and of the places where the VAs translate to. -/
def sectorsAt (s : State) (r : EngRef) (w : Nat) (l : List (Option Int)) : List (Option Place × Int) :=
  l.flatMap fun o =>
    match o with
    | none => []
    | some bit =>
      [(none, bit / 256), (none, (bit + w - 1) / 256)] ++
      (match elemPieces s r .write w bit with
       | .ok ps => ps.flatMap fun p => [(some p.phys.place, (p.bit / 256 : Int)), (some p.phys.place, ((p.bit + p.w - 1) / 256 : Int))]
       | .error _ => [])

def isStore (i : Instr) : Bool := match lParts i with | some (2, _, _) => true | _ => false

/-- Has an earlier store of the chain, which has not run its last iteration, still to write a sector that the next iteration of
the issued block at an index writes? The forks of one chain write a sector in the order of their blocks. -/
def State.storesBehind (s : State) (r : EngRef) (k : Nat) : Bool :=
  let fl := (s.chain r).inflight
  match fl[k]? with
  | none => false
  | some f =>
    (fl.take k).any fun g =>
      g.phase != .done && isStore g.instr && isStore f.instr &&
      let mine := let (w, l) := storeTargets s r f f.ctr; sectorsAt s r w l
      (upto (iterationsOf g.instr)).any fun j =>
        decide (g.ctr ≤ j) && (let (w, l) := storeTargets s r g j; (sectorsAt s r w l).any mine.contains)

/-- May the issued block at an index run an iteration: is no earlier block in its way, and an outstanding access free? -/
def State.mayIterate (s : State) (r : EngRef) (k : Nat) : Bool :=
  !(s.chain r).waitsBehind k && !s.storesBehind r k && !((s.chain r).inflight[k]?).any (s.entriesShort r)

/-- Does a block write anything that a block's operands can name: tile-owned state, a pool, device memory? Of the L-forms all
do but those that open and close streams. -/
def writesAnything (s : State) (r : EngRef) (i : Instr) : Bool :=
  match i with
  | .sub _ | .subc _ | .pub _ | .pubc _ => false
  | .patch .. | .patchi .. | .patchv .. | .strel .. | .post .. => true
  | _ => (lParts i).isSome || (touches s r i).any (·.write)

/-- Is a block of check mode completed before the next of its chain issues, as it has no slot and writes something (R93)? -/
def loneWriter (s : State) (r : EngRef) (i : Instr) : Bool := (ctlOf i).sbset == 0 && writesAnything s r i

/-- The conditions of R88 but for counts, watches and the arbitration of R307. -/
def State.reachesIssue (s : State) (r : EngRef) (i : Instr) : Bool :=
  let c := s.ctx r
  let h := c.chain r.eng
  let check := (s.task (s.taskOf r)).check
  s.runnable r && !(c.step && h.stepBusy) &&
  h.boardClear (ctlOf i) &&
  (!(isDraining i || isRelease i) || h.inflight.isEmpty) &&
  (!isRelease i || s.forkCount r == 0) &&
  !(h.inflight.any fun f => isHolding f.instr || f.heldOver) &&
  !(check && h.inflight.any fun f => loneWriter s r f.instr) &&
  h.refusal.isNone && !h.guardDue i

/-- The conditions of R88 and those the classes add, but for the arbitration of R307. -/
def State.canIssue (s : State) (r : EngRef) (i : Instr) : Bool :=
  s.reachesIssue r i && !(s.ctx r).skips i && (s.ctx r).semsHold i && s.watchHolds r i && !s.issueShort r i

/-- What a block that has reached issue does: waits, stops at its breakpoint (R23), or issues. -/
inductive Gate where
  | wait | brk | go
  deriving DecidableEq, Repr

def State.gate (s : State) (r : EngRef) (i : Instr) : Gate :=
  if !s.canIssue r i then .wait
  else if (ctlOf i).brk = 1 ∧ !(s.chain r).passBrk then .brk
  else .go

/-! ### Check mode (R93) -/

/-- The affine window of an operand in the slot's shares, or in a pool by its flat bytes. -/
def windowFeet (s : State) (r : EngRef) (b : LBlk) (x : Desc) (w extra : Nat) (wr : Bool) : List Foot :=
  if isTileSpace x.space then [windowFoot s r b x w extra (tileSpace x.space) wr]
  else
    match poolOf r x with
    | some (p, base, _) => let t := windowFoot s r b x w 0 (if p = .diePool then spDp else spCp) wr; [{ t with lo := t.lo + base }]
    | none => []

def oneReg (n : Nat) (wr : Bool) : Foot := { space := spV, lo := n, mask := 1, write := wr }

def regFeet (x : Desc) (wr : Bool) : List Foot := if x.space = spV then [oneReg x.base wr] else []

/-- The bytes of a slot of a ring, which a block reads. -/
def Ctx.slotFoot (c : Ctx) (n slot : Nat) : List Foot :=
  match c.ring n with
  | some g =>
    match c.region g.reg with
    | some reg => [{ space := reg.space, lo := (reg.off + slot * g.slot : Nat), mask := 2 ^ g.slot - 1, write := false }]
    | none => []
  | none => []

/-- The slot that a ring operand consumes as its block issues. -/
def slotFeet (c : Ctx) (x : Desc) : List Foot :=
  if x.space ≠ spRq then [] else c.slotFoot x.base (((c.ring x.base).map (·.ccur)).getD 0)

/-- A block in flight takes slots later in its nest: they join its footprint, if that is still recorded (R93, R172). -/
def Chain.feetWith (h : Chain) (serial : Nat) (more : List Foot) : Chain :=
  { h with feet := h.feet.map fun p => if p.serial == serial then { p with parts := p.parts ++ more } else p }

/-- The whole region of the target of an ix gather or scatter in the tile pool. -/
def wholeRegion (c : Ctx) (t : Touch) : Touch :=
  match c.regionOf t with
  | some (_, g) => { t with lo := g.off, hi := (g.off + g.len : Nat) }
  | none => t

/-- The footprint of a gather's or scatter's target in the tile pool: the region that holds its window. -/
def targetFeet (s : State) (r : EngRef) (b : LBlk) (x : Desc) (wr : Bool) : List Foot :=
  let (lo, hi) := windowSpan s r b x (memWidth b.fmt) 0
  if x.space = spTp then [(wholeRegion (s.ctx r) { space := spTp, lo := lo, hi := hi, write := wr }).foot] else []

/-- The footprint of a block (R93): its affine windows, its registers and cells, the slots that it consumes as it issues, after
its waits have moved the cursors (R171). The slots that it takes later join it then. Of an ix form with its target in a cluster or die pool no region holds the target
window, and the footprint is the window of one element at its origin, swept over the nest (DESIGN CHOICE, log 28). -/
def footOf (s : State) (r : EngRef) (i : Instr) : List Foot :=
  let c := (s.ctx r).takeWaits (Ctl.waits (ctlOf i))
  match lParts i with
  | some (cls, op, b) =>
    let a := match i with | .ldx _ => targetFeet s r b b.a false | _ => windowFeet s r b b.a (widthA cls op b) 0 false
    let d := match i with | .stx _ => targetFeet s r b b.d true | _ => windowFeet s r b b.d (widthD cls op b) 0 true
    let windows := a ++ windowFeet s r b b.b (widthB cls op b) (metaBytes cls op b) (writesB cls op) ++ d
    if cls < 4 ∧ b.a.space = spRq then windows
    else
      windows ++ cellFeet b b.a false ++ cellFeet b b.d true ++ regFeet b.a false ++ regFeet b.b false ++ regFeet b.d true ++
        (if b.msk = 1 then [oneReg b.mreg false] else []) ++ slotFeet c b.a ++ slotFeet c b.b
  | none => (windowsOf true s r i).map Touch.foot ++ match i with | .patchv _ _ _ _ v => [oneReg v false] | _ => []

/-- Footprints still recorded when a block issues: those whose blocks it is not ordered after. -/
def Chain.feetAfter (h : Chain) (i : Instr) : List Footprint :=
  let c := ctlOf i
  if isDraining i then []
  else h.feet.filter fun p => !(p.hold || (p.slot != 0 && (p.slot == c.sbset || bitAt c.sbwait (p.slot - 1))))

/-- Does a footprint meet a recorded one with a write on either side? -/
def hazard (old : List Footprint) (new : List Foot) : Bool :=
  old.any fun p => p.parts.any fun a => new.any fun b => (a.write || b.write) && a.meets b

/-! ### Checks at issue -/

/-- An operand's full address is on its unit (R33). -/
def alignFault (s : State) (r : EngRef) (i : Instr) : Option BlockFault :=
  match lParts i with
  | some (cls, op, b) =>
    let one (x : Desc) (unit : Nat) : Option BlockFault :=
      if !gmAligned s r x unit then some { cause := .misalignedWindow, fva := wrapTo 64 (baseAddr s r x) }
      else if isRunImage cls op && !x.aligned unit then some { cause := .misalignedWindow } else none
    one b.a (unitA cls op b) <|> one b.b (unitB cls op b) <|> one b.d (unitD cls op b)
  | none => none

/-- The pool windows of a block over its nest (R34, R111). Targets placed by an index list are checked as they are met. -/
def poolFault (s : State) (r : EngRef) (i : Instr) : Option BlockFault :=
  match lParts i with
  | some (cls, op, b) =>
    let run (x : Desc) (w : Nat) : Option BlockFault :=
      if (poolOf r x).isSome then
        match poolNestCheck s r b x w b.iterations with | .error e => some e | .ok () => none
      else none
    run b.a (widthA cls op b) <|> (if cls = 2 ∧ b.b.space = spIx then none else run b.d (widthD cls op b))
  | none => none

/-- Ring operands read declared rings without a pull stream, no more than a slot (R161, R172). -/
def ringFault (s : State) (r : EngRef) (i : Instr) : Option Cause :=
  match lParts i with
  | some (cls, op, b) =>
    let one (x : Desc) (w : Nat) : Option Cause :=
      if cls < 4 ∨ x.space ≠ spRq then none
      else
        match (s.ctx r).ring x.base with
        | none => some .ringMisuse
        | some g => if g.pull.isSome ∨ 8 * g.slot < (x.seg + 1) * w then some .ringMisuse else none
    one b.a (widthA cls op b) <|> one b.b (widthB cls op b)
  | none => none

/-- The checks that every block meets at issue: regions and rights (R169), check mode, addresses, pools,
rings. -/
def State.issueFault (s : State) (r : EngRef) (i : Instr) : Option BlockFault :=
  match rightsFault s r i with
  | some c => some { cause := c }
  | none =>
    if (s.task (s.taskOf r)).check && hazard ((s.chain r).feetAfter i) (footOf s r i) then some { cause := .scoreboardHazard }
    else
      match ringFault s r i with
      | some c => some { cause := c }
      | none => alignFault s r i <|> poolFault s r i

/-! ### Issuing -/

/-- The address after a block (R18, R19). -/
def nextAddr (addr : Nat) (i : Instr) : Nat :=
  match lParts i with
  | some (_, _, b) => if b.lk = 1 then nearTarget addr b.next else addr + 128
  | none => addr + 32

/-- Removes the head of the queue if it is the block at the cursor. -/
def popQueue (q : List Queued) (addr : Nat) : List Queued :=
  match q with
  | x :: rest => if x.addr = addr then rest else []
  | [] => []

/-- Does the block read the tile's copy of a descriptor (R126)? Else it reads memory's sectors. -/
def State.usesCopy (s : State) (r : EngRef) (pasid index : Nat) : Bool :=
  ((s.tile r.tile).handles.any fun h => h.pasid == pasid && h.index == index) && s.freeBit (2 ^ 34 + index)

/-- The tile keeps the descriptor a block has read, and its sectors are sampled when they came from memory (R120,
R126). -/
def State.noteHandle (s : State) (r : EngRef) (x : Desc) : State :=
  let pasid := (s.task (s.taskOf r)).pasid
  let t := s.tile r.tile
  if x.space ≠ spTh ∨ s.usesCopy r pasid x.base then s
  else
    match s.handleWords r pasid x.base, translateElems s r .read true 64 ((upto 8).map fun k => ((s.handleVa pasid x.base + 8 * k) * 8 : Nat)) with
    | .ok ws, .ok pss =>
      let kept := t.handles.any fun h => h.pasid == pasid && h.index == x.base
      (if kept then s else s.setTile r.tile { t with handles := { pasid := pasid, index := x.base, words := ws } :: t.handles }).sampleAll
        (hotSectors (pss.flatMap id))
    | _, _ => s

/-- Semaphores of a slot are tested in a cycle. -/
def Slot.tests (x : Slot) (cycle : Nat) (sems : List Nat) : Slot :=
  { x with tested := sems.foldl (fun l n => Map.set 0 l n (cycle + 1)) x.tested }

/-- Does the issue of a block order what happened before it before its chain's reads from then on (R188): it takes counts that
another block has signalled, or waits for its own chain's earlier blocks? -/
def ordersIssue (i : Instr) : Bool := !(Ctl.waits (ctlOf i)).isEmpty || !(rqRings i).isEmpty || isDraining i || isRelease i

/-- Does the completion of a block (R188)? Not of one that writes nothing which another block may read through memory; an
acquire has made its own order as it read (State.acquire). -/
def ordersCompletion (i : Instr) : Bool :=
  match i with
  | .nop .. | .link .. | .brc .. | .brcd .. | .ldacq .. | .join .. => false
  | _ =>
    match lParts i with
    | some (cls, _, b) => cls == 2 || (poolOf { tile := 0, slot := 0, eng := .lde } b.d).isSome
    | none => true

/-- An acquire at a scope reads a word of n bytes: where it synchronises with a release, what happened before the release comes
before the chain's reads from then on (R187, R188). -/
def State.acquire (s : State) (r : EngRef) (scope : Nat) (va : Int) (n : Nat) : State :=
  if s.syncs r scope va n then s.updChain r fun h => { h with since := s.steps } else s

/-- The block at the cursor issues, in one step (R88): waits subtracted, rights and ring slots granted, the
block in flight with its scoreboard slot set, the cursor moved on. -/
def State.startBlock (s : State) (r : EngRef) (i : Instr) (hd : Option Handle) : State :=
  let c := s.ctx r
  let h := c.chain r.eng
  let ctl := ctlOf i
  let (c1, taken) := (c.takeWaits (Ctl.waits ctl)).takeSlots (rqRings i)
  let step : Bool := c.step && h.stepDue
  let since := if ordersIssue i then s.steps else h.since
  let f : InFlight := { addr := h.cursor, words := encode i, instr := i, serial := s.steps, handle := hd, rights := c.granted ctl,
                        slots := c.grantedSlots ctl, taken := taken, stepped := step, since := since }
  let feet := if (s.task (s.taskOf r)).check then
      h.feetAfter i ++ [{ slot := ctl.sbset, hold := isHolding i || isImmediate i || loneWriter s r i, parts := footOf s r i, serial := s.steps }]
    else []
  let h1 := { h with cursor := nextAddr h.cursor i, queue := popQueue h.queue h.cursor, inflight := h.inflight ++ [f],
                     passBrk := false, stepBusy := step, stepDue := false, headParked := false, report := none, feet := feet, since := since }
  let s0 := match lParts i with | some (_, _, b) => (s.noteHandle r b.a).noteHandle r b.d | none => s
  let s1 := s0.updSlot r.tile r.slot fun x =>
    ({ x with ctx := c1.setChain r.eng h1 } : Slot).tests s.cycle ((c.testsOf i).map (·.1))
  if ctl.trc = 1 then
    s1.log { time := s.cycle, pasid := (s.task (s.taskOf r)).pasid, tile := r.tile, slot := r.slot, eng := r.eng.num,
             kind := 1, addr := h.cursor, data := 0 }
  else s1

def setNth {α : Type} : List α → Nat → α → List α
  | [], _, _ => []
  | _ :: l, 0, x => x :: l
  | a :: l, n + 1, x => a :: setNth l n x

/-- Replaces an in-flight entry. -/
def State.setEntry (s : State) (r : EngRef) (k : Nat) (f : InFlight) : State :=
  s.updChain r fun h => { h with inflight := setNth h.inflight k f }

/-- Updates the in-flight entry at an index. -/
def State.updEntry (s : State) (r : EngRef) (k : Nat) (f : InFlight → InFlight) : State :=
  match (s.chain r).inflight[k]? with
  | some x => s.setEntry r k (f x)
  | none => s

/-! ### Completion (R89) -/

/-- Tokens and counts a ring refuses: a count of full, or a token, after the last token (R173). -/
def Ctx.ringClosed (c : Ctx) (sem : Nat) : Bool := c.ringList.any fun (_, g) => g.fsem == sem && decide (g.prod ≤ g.tokens)

/-- Adds signals, each on its own; the cause of one that is not made (R166, R173). -/
def Ctx.addSignals (c : Ctx) : List (Nat × Nat) → Ctx × Option Cause
  | [] => (c, none)
  | (n, k) :: l =>
    if c.ringClosed n then
      let (c1, e) := c.addSignals l
      (c1, some (e.getD .ringMisuse))
    else
      match c.addSem n k with
      | some c1 => c1.addSignals l
      | none =>
        let (c1, e) := c.addSignals l
        (c1, some (e.getD .semOverflow))

/-- Bytes a queued block stands in. -/
def Queued.bytes (q : Queued) : Nat := if szOf (dwAt q.words 0) = 1 then 128 else 32

/-- The queue without the first block that overlaps n bytes at t, and what follows it. -/
def keepBefore (t n : Nat) : List Queued → List Queued
  | [] => []
  | q :: l => if q.addr < t + n ∧ t < q.addr + q.bytes then [] else q :: keepBefore t n l

/-- The queue after a block has completed: a patch discards the queued copies of what it has patched (R95). -/
def keptQueue (f : InFlight) (q : List Queued) : List Queued :=
  match f.instr with
  | .patch _ len tgt _ => keepBefore (nearTarget f.addr tgt) (len + 1) q
  | .patchi _ len tgt _ => keepBefore (nearTarget f.addr tgt) (len + 1) q
  | .patchv _ len tgt _ _ => keepBefore (nearTarget f.addr tgt) (len + 1) q
  | _ => q

/-- A stepped engine stops after its block (R337). -/
def State.stepStop (s : State) (r : EngRef) : State :=
  if (s.ctx r).step && (s.chain r).stop == .running then s.stopEngine r .stepped (Cause.singleStep).code .stop true 0 0 0 else s

/-- Where a block that is not ordered with this one has written too, each element ends with either block's value (R91): what
the slot held before this block's writes stays, or not. -/
def Ctx.mixed (c0 c1 : Ctx) (s : State) (lost : List TileWrite) : Ctx :=
  ((upto lost.length).zip lost).foldl (fun c (n, w) => if s.freeBit (2 ^ 85 + n) then c.apply (c0.present w) else c) c1

/-- Do two writes make one place? -/
def TileWrite.samePlace : TileWrite → TileWrite → Bool
  | .acc k _, .acc j _ => k == j
  | .vreg n _, .vreg m _ => n == m
  | .tp b w _, .tp b' w' _ => decide (b < b' + w') && decide (b' < b + w)
  | .wb b w _, .wb b' w' _ => decide (b < b' + w') && decide (b' < b + w)
  | _, _ => false

/-- The blocks still in flight keep what a completing block overwrites, but for those that are ordered with it: they come after
it, and see no older value of what it has written (R241). -/
def InFlight.overwritten (f : InFlight) (c : Ctx) (g : InFlight) : InFlight :=
  if sharesCells g.instr f.instr then { g with beaten := g.beaten.filter fun w => !f.writes.any w.samePlace }
  else { g with beaten := g.beaten ++ f.writes.map c.present }

/-- A block completes: its home work is done, its writes become visible, its slot clears, its signals are
added, the watchdog counter is reset (R310); TRC writes its event and a stepped engine stops: after the block of its step,
or after any where it has been set to stop (R337). A fault of its home work leaves it in flight. -/
def State.completeBlock (s : State) (r : EngRef) (k : Nat) : State :=
  match (s.chain r).inflight[k]? with
  | none => s
  | some f =>
    let (s1, rets, bad) := s.performAll f.homes
    match bad with
    | some e => (s1.setEntry r k { f with homes := [], phase := .parked }).takeFault r f.addr e e.cause.disp false
    | none =>
      let c0 := s1.ctx r
      let f1 := { f with writes := f.writes ++ rets }
      let c := c0.mixed (c0.applyAll f1.writes) s f.beaten
      let h := c.chain r.eng
      let ctr := ctrOf f.instr (f.ctr - 1)
      let stops := f.stepped || !(h.stepBusy || h.stepDue)
      let h1 := { h with inflight := (h.inflight.eraseIdx k).map (f1.overwritten c0), lastBlk := f.addr, lastCtr := ctr, queue := keptQueue f h.queue,
                         stepBusy := h.stepBusy && !f.stepped, since := if ordersCompletion f.instr then s.steps else h.since,
                         fence := match f.instr with | .fence _ sc => some (max sc (h.fence.getD 0)) | _ => h.fence }
      let (c1, bad1) := ({ c.setChain r.eng h1 with wdc := 0 }).addSignals (Ctl.signals (ctlOf f.instr))
      let s2 := (s1.setCtx r c1).updSlot r.tile r.slot fun x => { x with wdActive := x.wdLimit }
      let s3 := if (ctlOf f.instr).trc = 1 then
          s2.log { time := s.cycle, pasid := (s.task (s.taskOf r)).pasid, tile := r.tile, slot := r.slot, eng := r.eng.num,
                   kind := 2, addr := f.addr, data := ctr }
        else s2
      match bad1 with
      | some e => s3.takeFault r f.addr { cause := e } e.disp
      | none => if stops then s3.stepStop r else s3

/-! ### Running over the nest -/

/-- What one iteration does: writes visible at completion, work done at homes by completion, accesses handed
to homes as the block's fork, a guard fault, sectors sampled. -/
structure IterOut where
  tile  : List TileWrite := []
  homes : List Access := []
  fork  : List Access := []
  guard : Option Guard := none
  hot   : List (Place × Nat × Nat) := []
  deriving DecidableEq, Repr, Inhabited

/-- A form's own meaning: what it checks at issue, with the descriptor it reads, and what its kth iteration
does in a state whose slot is as the block sees it. -/
structure Behaviour where
  check : State → EngRef → Except BlockFault (Option Handle) := fun _ _ => .ok none
  body  : State → EngRef → InFlight → Nat → Except BlockFault IterOut
  /-- Stretches of the tile media that the kth iteration reads where its own data place them. -/
  reads : State → EngRef → InFlight → Nat → List Touch := fun _ _ _ _ => []

/-- A run over the nest: the state, the slot as the block sees it, the block, its forked accesses so far, the
fault that stopped it. -/
structure Run where
  s     : State
  v     : Ctx
  f     : InFlight
  fork  : List Access := []
  fault : Option BlockFault := none

/-- Gives back ring slots: one count to each empty semaphore, each on its own (R166, R172). -/
def Ctx.releaseSlots (c : Ctx) : List RingRight → Ctx × Option Cause
  | [] => (c, none)
  | t :: ts =>
    match c.ring t.ring with
    | none => c.releaseSlots ts
    | some g =>
      match c.addSem g.esem 1 with
      | some c1 => c1.releaseSlots ts
      | none => let (c1, _) := c.releaseSlots ts; (c1, some .semOverflow)

/-- Is the kth iteration of a block the last that reads its slots, so that it gives them back? -/
def endsSlots (i : Instr) (k : Nat) : Bool := (k + 1) % periodOf i == 0 || k + 1 == iterationsOf i

/-- Has one of some semaphores of a slot been tested in this cycle, so that the cycle's additions to it are over (R167)? -/
def State.testsDone (s : State) (tile slot : Nat) (sems : List Nat) : Bool :=
  sems.any fun n => Map.get 0 (s.slotAt tile slot).tested n == s.cycle + 1

/-- Would the completion of a block add to semaphores whose tests of this cycle are over (R167)? It comes in a later cycle. -/
def State.signalsLate (s : State) (r : EngRef) (i : Instr) : Bool := s.testsDone r.tile r.slot ((Ctl.signals (ctlOf i)).map (·.1))

/-- Does an access of home work wait: for an outstanding access (R12, R121), for an earlier fork of its chain to write the same
unit (R155)? -/
def State.homeWaits (s : State) (r : EngRef) (f : InFlight) (a : Access) : Bool :=
  s.noEntry r.tile (carafeOf a.place (a.unit * unitBytes a.place)).toList || s.ownHolds r f.serial a

/-- Ends an iteration: its writes join the block's, the last reader of a slot gives it back. The next iteration sees them:
where a source window overlaps a destination window of the block, the value read is that of the iterations before, one of
the values R147 leaves open (DESIGN CHOICE, log 41). -/
def Run.after (x : Run) (r : EngRef) (o : IterOut) : Run :=
  let k := x.f.ctr
  let v := x.v.applyAll o.tile
  let s1 := x.s.sampleAll o.hot
  let s2 := match o.guard with
    | some g => s1.updChain r fun h => { h with guard := h.guard <|> some g }
    | none => s1
  let f := { x.f with writes := x.f.writes ++ o.tile, homes := x.f.homes ++ x.s.fenced r o.homes, cut := x.f.writes.length, ctr := k + 1,
                      lastAt := x.s.steps }
  if endsSlots f.instr k then
    let (c, bad) := (s2.ctx r).releaseSlots f.taken
    { s := s2.setCtx r c, v := v, f := { f with taken := [] }, fork := x.fork ++ o.fork,
      fault := bad.map fun e => { cause := e } }
  else { s := s2, v := v, f := f, fork := x.fork ++ o.fork }

/-- Does the engine leave its block between two iterations, for others to act? The spec gives no rate (log 2). It does where
its task is about to park (R332), and where the accesses of the iterations before leave too few free for the next (R12, R121). -/
def Run.pauses (x : Run) (r : EngRef) : Bool :=
  x.s.freeBit (2 ^ 72 + x.f.ctr) || (x.s.slotAt r.tile r.slot).parking || (x.s.addFork r x.f.addr x.f.serial x.fork).entriesShort r x.f

/-- What the kth iteration of a block reads (R114, R195). -/
def readsAt (beh : Behaviour) (s : State) (r : EngRef) (f : InFlight) (k : Nat) : Reads :=
  (operandReads s r f k).and { tiles := beh.reads s r f k }

/-- The reads of the next iteration: what their failures leave, or the fault of one that nothing repairs, before the
iteration does anything. -/
def Run.read (x : Run) (beh : Behaviour) (r : EngRef) : Run :=
  let n := x.f.writes.length
  let y : Seen := { s := x.s, v := x.v, ws := x.f.writes ++ x.f.beaten }
  let (bad, z) := y.delivers r (readsAt beh (y.view r) r x.f x.f.ctr)
  { x with s := z.s, v := z.v, f := { x.f with writes := z.ws.take n, beaten := z.ws.drop n },
           fault := bad.map fun e => { e with ctr := ctrOf x.f.instr x.f.ctr } }

/-- The state in which the next iteration reads: the slot as the block sees it (R91), device memory and pools as reads may find
them that are ordered after the writes before the block's issue alone (R189). -/
def Run.seen (x : Run) (r : EngRef) : State := (x.s.aged x.f.since).setCtx r x.v

/-- Does the next iteration come in a later cycle, as it gives ring slots back when the cycle's additions are over (R167)? -/
def Run.late (x : Run) (r : EngRef) : Bool :=
  endsSlots x.f.instr x.f.ctr &&
  x.s.testsDone r.tile r.slot (x.f.taken.filterMap fun t => ((x.s.ctx r).ring t.ring).map (·.esem))

/-- Runs iterations in nest order until the last, a fault, a wait for the next ring slot, or a point between two
iterations at which other agents act. -/
def runIters (beh : Behaviour) (r : EngRef) : Nat → Run → Run
  | 0, x => { x with f := { x.f with phase := .done } }
  | n + 1, x =>
    if !(rqRings x.f.instr).isEmpty && x.f.taken.isEmpty then { x with f := { x.f with phase := .ring } }
    else if x.late r then { x with f := { x.f with phase := .run } }
    else
      let z := x.read beh r
      if z.fault.isSome then z
      else
      match beh.body (z.seen r) r z.f z.f.ctr with
      | .error e => { z with fault := some { e with ctr := ctrOf z.f.instr z.f.ctr } }
      | .ok o =>
        let y := z.after r o
        if y.fault.isSome then y
        else if n ≠ 0 ∧ y.pauses r then { y with f := { y.f with phase := .run } }
        else runIters beh r n y

/-- Ends a run. After a fault the writes of the iterations before it are visible and handed out, and the block
stays in flight at its faulting iteration (R119, R150, R201). Of that iteration's own writes to D none has been made: R119
leaves open which of them have (DESIGN CHOICE, log 41). -/
def State.endRun (s : State) (r : EngRef) (k : Nat) (f : InFlight) (fork : List Access) (fault : Option BlockFault) : State :=
  match fault with
  | none => (s.setEntry r k f).addFork r f.addr f.serial fork
  | some e =>
    let (s1, rets, bad) := s.performAll f.homes
    let s2 := s1.updCtx r fun c => c.applyAll (f.writes ++ rets)
    let e' := bad.getD e
    let s3 := (s2.setEntry r k { f with writes := [], homes := [], cut := 0, phase := .parked, parked := e'.cause.disp == .park,
                                           lastAt := s.steps }).addFork r f.addr f.serial fork
    s3.takeFault r f.addr e' e'.cause.disp (!e'.imprecise && bad.isNone)

/-- A run over the remaining iterations of a block. -/
def State.runOver (s : State) (beh : Behaviour) (r : EngRef) (k : Nat) (f : InFlight) : Run :=
  runIters beh r (iterationsOf f.instr - f.ctr) { s := s, v := s.viewOf r k, f := f }

/-- Runs the in-flight block at an index from its next iteration. A block of a task that is about to park runs to its
pre-emption point. -/
def State.continueBlock (s : State) (beh : Behaviour) (r : EngRef) (k : Nat) : State :=
  match (s.chain r).inflight[k]? with
  | none => s
  | some f =>
    let x := s.runOver beh r k f
    x.s.endRun r k (if (s.slotAt r.tile r.slot).parking then { x.f with atPoint := true } else x.f) x.fork x.fault

/-- Index of an in-flight block that is to run on. -/
def findRun (i : Instr) : List InFlight → Nat → Option Nat
  | [], _ => none
  | f :: fs, k => if f.phase = .run ∧ f.instr = i then some k else findRun i fs (k + 1)

/-- A fault at issue: the block has not issued (R88). -/
def State.issueStop (s : State) (r : EngRef) (e : BlockFault) : State :=
  let s1 := if e.cause.disp = .park then s.updChain r fun h => { h with headParked := true } else s
  s1.takeFault r (s.chain r).cursor e e.cause.disp

/-- Stops before issue at a breakpoint (R23, R337). -/
def State.breakAt (s : State) (r : EngRef) : State :=
  s.takeFault r (s.chain r).cursor { cause := .breakpoint } .stop

/-- A block with BRK stops, or takes the halt that it would meet at issue (R336). -/
def State.breakOr (s : State) (r : EngRef) : Option BlockFault → State
  | some e => if e.cause.disp = .halt then s.issueStop r e else s.breakAt r
  | none => s.breakAt r

/-- The fault of a check, if any. -/
def errorOf {α : Type} : Except BlockFault α → Option BlockFault
  | .error e => some e
  | .ok _ => none

/-- THE MEANING OF AN L-FORM BLOCK in terms of its behaviour: it runs on, waits, stops, faults at issue, or
issues and runs its nest. -/
def State.runBlock (s : State) (beh : Behaviour) (i : Instr) : State :=
  let r := s.ref
  match findRun i (s.chain r).inflight 0 with
  | some k =>
    let goes (f : InFlight) : Bool := s.runnable r || s.nearsPoint r f
    if ((s.chain r).inflight[k]?).any goes && s.mayIterate r k then s.continueBlock beh r k else s
  | none =>
    match s.gate r i with
    | .wait => s
    | .brk => s.breakOr r (s.issueFault r i <|> errorOf (beh.check s r))
    | .go =>
      match s.issueFault r i with
      | some e => s.issueStop r e
      | none =>
        match beh.check s r with
        | .error e => s.issueStop r e
        | .ok hd =>
          let s1 := s.startBlock r i hd
          let k := s.nextIndex r
          if s.env.idle || !s1.mayIterate r k then
            s1.updEntry r k fun f => { f with phase := .run }
          else s1.continueBlock beh r k

/-- THE MEANING OF A BLOCK OF ONE STEP: what it does in the state in which it has issued, at its index of the
in-flight list. An error is a fault at issue. -/
def State.runStep (s : State) (eff : State → EngRef → Nat → Except BlockFault State) (i : Instr) : State :=
  let r := s.ref
  match s.gate r i with
  | .wait => s
  | .brk => s.breakOr r (s.issueFault r i <|> errorOf (eff (s.startBlock r i none) r (s.nextIndex r)))
  | .go =>
    match s.issueFault r i with
    | some e => s.issueStop r e
    | none =>
      let x : Seen := { s := s, v := s.viewOf r (s.nextIndex r) }
      match x.delivers r (operandReads (x.view r) r { addr := (s.chain r).cursor, words := [], instr := i } 0) with
      | (some e, y) => y.s.issueStop r e
      | (none, y) =>
        match eff (y.s.startBlock r i none) r (s.nextIndex r) with
        | .error e => y.s.issueStop r e
        | .ok s1 => s1

/-- A block of one step that completes at issue. -/
def State.runNow (s : State) (eff : State → EngRef → Nat → Except BlockFault State) (i : Instr) : State :=
  s.runStep (fun s r k => match eff s r k with | .error e => .error e | .ok s1 => .ok (s1.completeBlock r k)) i

end Sys2Proof.Machine
end

