-- ==== Sys2Proof/Machine/Waiting.lean ====
section
/-! DEFINITION. Which task a scheduler chooses (R304, R305, R309), and what the last retired chain of a task leaves
of its streams (R104). -/

namespace Sys2Proof.Machine

/-- Ready or saved: waiting for a slot (R298). -/
def TState.waits : TState → Bool
  | .ready => true | .saved => true | _ => false

/-- May the task run in a cluster? -/
def Task.allows (t : Task) (cluster : Nat) : Bool := bitAt t.aff cluster

/-- Does task a come before task b in the order of R304? -/
def Task.before (a b : Task) : Bool :=
  decide (a.prio < b.prio) || (a.prio == b.prio && (decide (a.deadline < b.deadline) || (a.deadline == b.deadline &&
    (decide (a.since < b.since) || (a.since == b.since && decide (a.home < b.home))))))

/-- The first of some tasks in that order. -/
def firstTask (s : State) : List Nat → Option Nat
  | [] => none
  | n :: l => match firstTask s l with | none => some n | some m => if (s.task m).before (s.task n) then some m else some n

/-- The tasks waiting for some cluster that c accepts; no task of a halted job is dispatched (R330). -/
def State.candidates (s : State) (c : Nat → Bool) : List Nat :=
  (s.tasks.filter fun (_, t) => t.state.waits && !(s.pasid t.pasid).halted && !(s.pasid t.pasid).halting &&
    (upto numClusters).any fun k => t.allows k && c k).map (·.1)

/-- YIELD offers its slot (R309): a save follows when a task that waits for the cluster has a higher class, or the
same class and a smaller deadline. -/
def State.offerSlot (s : State) (r : EngRef) : State :=
  let t := s.task (s.taskOf r)
  let better (n : Nat) : Bool :=
    let w := s.task n
    decide (w.prio < t.prio) || (w.prio == t.prio && decide (w.deadline < t.deadline))
  if (s.candidates (· == clusterOf r.tile)).any better then s.updSlot r.tile r.slot fun x => { x with yielding := true } else s

/-- Every chain the task names has retired. -/
def Ctx.allRetired (c : Ctx) : Bool := c.chains.all fun h => !h.present || h.retired

/-- The record of a stream left open (R104, R327). -/
def danglingRecord (s : State) (r : EngRef) (e : Engine) (x : Stream) : FaultRec :=
  let t := s.task (s.taskOf r)
  { pasid := t.pasid, acc := 6, tile := r.tile, slot := r.slot, eng := e.num, agt := true, prec := false, disp := .note,
    cause := Cause.danglingStream.code, task := t.va, block := x.block, ctr := packCtr (x.body.counters x.ctr), fva := x.block }

/-- When the last chain has retired, open streams are cancelled, each with a record (R104, R162). -/
def State.cancelDangling (s : State) (r : EngRef) : State :=
  if !(s.ctx r).allRetired then s
  else
    (s.ctx r).ringList.foldl (fun (s : State) (k, g) =>
      let s1 := match g.sub with
        | some x => s.emitRecord (dieOf r.tile) (clusterOf r.tile) (danglingRecord s r .lde x)
        | none => s
      let s2 := match g.pull with
        | some x => s1.emitRecord (dieOf r.tile) (clusterOf r.tile) (danglingRecord s r .ste x)
        | none => s1
      if g.sub.isSome || g.pull.isSome then s2.updCtx r fun c => c.setRing k (some { g with sub := none, pull := none }) else s2) s

end Sys2Proof.Machine
end

