-- ==== Sys2Proof/Machine/ChainControl.lean ====
section
/-! DEFINITION. Class 0, chain control: transfers, patches, END, YIELD, SPAWN, and the blocks that raise a cause
(R97 to R109, R368). -/

namespace Sys2Proof.Machine

/-! ### Transfers of control (R99) -/

/-- A taken transfer: every queued block is discarded and fetch restarts at the target (R87). -/
def State.jump (s : State) (r : EngRef) (target : Nat) : State := s.updChain r fun h => { h with cursor := target, queue := [] }

/-- Address of the in-flight block at an index. -/
def State.ownAddr (s : State) (r : EngRef) (k : Nat) : Nat := (((s.chain r).inflight[k]?).map (·.addr)).getD 0

/-- NOP: no effect beyond waits, signals and slot. -/
def execNop (c : Ctl) (s : State) : Host.Outcome State Fault Refusal := .next (s.runNow (fun s _ _ => .ok s) (.nop c))

/-- LINK: the cursor moves to TGT. -/
def execLink (c : Ctl) (tgt : Nat) (s : State) : Host.Outcome State Fault Refusal :=
  .next (s.runNow (fun s r _ => .ok (s.jump r tgt)) (.link c tgt))

/-- BRC: a forward branch on the end flag or on a tile pool word. -/
def execBrc (c : Ctl) (cond tgt imm off : Nat) (s : State) : Host.Outcome State Fault Refusal :=
  .next (s.runNow (fun s r k =>
    let taken := brcTaken cond (s.chain r).endFlag ((s.viewOf r k).tpWord off 4) imm
    let s1 := if cond = 1 ∨ cond = 2 then s.updChain r fun h => { h with endFlag := false } else s
    .ok (if taken then s1.jump r (nearTarget (s.ownAddr r k) tgt) else s1)) (.brc c cond tgt imm off))

/-- BRCD: decrements a nonzero counter and branches. -/
def execBrcd (c : Ctl) (tgt off : Nat) (s : State) : Host.Outcome State Fault Refusal :=
  .next (s.runNow (fun s r k =>
    let n := (s.viewOf r k).tpWord off 4
    if n = 0 then .ok s
    else .ok ((s.updEntry r k fun f => { f with writes := [.tp (8 * off) 32 (n - 1)] }).jump r (nearTarget (s.ownAddr r k) tgt)))
    (.brcd c tgt off))

/-! ### Patching (R95, R102) -/

/-- The access that writes n bytes of a block in device memory, in one sector. -/
def State.patchAccess (s : State) (r : EngRef) (k tgt n v : Nat) : Except BlockFault (List Access) :=
  match translateElems s r .write false (8 * n) [8 * (nearTarget (s.ownAddr r k) tgt : Nat)] with
  | .error e => .error e
  | .ok pss => .ok (groupAccesses 0 ((pss.flatMap id).flatMap fun p => pieceWrites [p] v))

/-- A patch makes its write and completes (R95). Where a fork of its own chain has still to write the sector, the write
follows it, as a global store's does (R155), and the block waits; another module's memory takes it as a fork. -/
def State.patchBytes (s : State) (r : EngRef) (k tgt n v : Nat) : Except BlockFault State :=
  match s.patchAccess r k tgt n v with
  | .error e => .error e
  | .ok l =>
    if l.any fun a => a.place == .peer then .ok ((s.addFork r (s.ownAddr r k) s.steps l).completeBlock r k)
    else if l.any (s.ownHolds r s.steps) then .ok (s.updEntry r k fun f => { f with homes := l })
    else
      match s.performAll l with
      | (_, _, some e) => .error e
      | (s1, _, none) => .ok (s1.completeBlock r k)

/-- PATCH: bytes of the tile pool. -/
def execPatch (c : Ctl) (len tgt off : Nat) (s : State) : Host.Outcome State Fault Refusal :=
  .next (s.runStep (fun s r k => s.patchBytes r k tgt (len + 1) ((s.viewOf r k).tpWord off (len + 1))) (.patch c len tgt off))

/-- PATCHI: an immediate. -/
def execPatchi (c : Ctl) (len tgt imm : Nat) (s : State) : Host.Outcome State Fault Refusal :=
  .next (s.runStep (fun s r k => s.patchBytes r k tgt (len + 1) imm) (.patchi c len tgt imm))

/-- PATCHV: the low bytes of a logical element of a register. -/
def execPatchv (c : Ctl) (len tgt elem vreg : Nat) (s : State) : Host.Outcome State Fault Refusal :=
  .next (s.runStep (fun s r k =>
    let g := (s.viewOf r k).vreg vreg
    if !g.valid then .error { cause := .formatTag }
    else if g.len ≤ elem then .error { cause := .lengthMismatch }
    else s.patchBytes r k tgt (len + 1) (Runs.at_ g.runs elem % 2 ^ (8 * (len + 1)))) (.patchv c len tgt elem vreg))

/-! ### END, YIELD, SPAWN -/

/-- END (R103): retires its chain. Its cursor stays at the END. -/
def execEndChain (c : Ctl) (s : State) : Host.Outcome State Fault Refusal :=
  .next (s.runNow (fun s r k =>
    let a := s.ownAddr r k
    .ok ((s.updChain r fun h => { h with retired := true, queue := [], cursor := a }).cancelDangling r)) (.endChain c))

/-- YIELD (R106): refills the budget before the deadline and offers the slot. -/
def execYieldSlot (c : Ctl) (s : State) : Host.Outcome State Fault Refusal :=
  .next (s.runNow (fun s r _ =>
    let t := s.task (s.taskOf r)
    let s1 := if s.cycle < t.deadline then s.updCtx r fun c => { c with budget := t.fullBudget } else s
    .ok (s1.offerSlot r)) (.yieldSlot c))

/-- SPAWN (R107): queues a record with the cluster's scheduler as a fork. -/
def execSpawn (c : Ctl) (rb roff inh : Nat) (s : State) : Host.Outcome State Fault Refusal :=
  .next (s.runNow (fun s r k =>
    let va := wrapTo 64 (rbAddr s r rb roff)
    if va % 128 ≠ 0 then .error { cause := .misalignedWindow, fva := va }
    else .ok { s with forks := s.forks ++ [{ task := s.taskOf r, pasid := (s.task (s.taskOf r)).pasid, ref := r,
                                             block := s.ownAddr r k, kind := .spawn va (inh == 1) }] }) (.spawn c rb roff inh))

/-! ### Blocks that raise a cause (R108, R368) -/

/-- A block that stops its engine by a cause of its own: it issues, raises it, and completes when the engine
resumes, in a cycle whose additions to the semaphores it signals are not over (R167). -/
def State.runRaise (s : State) (raise : State → EngRef → Nat → Except BlockFault State) (i : Instr) : State :=
  match findRun i (s.chain s.ref).inflight 0 with
  | some k => if s.runnable s.ref && !s.signalsLate s.ref i then s.completeBlock s.ref k else s
  | none => s.runStep raise i

/-- Parks the block in flight and takes the fault. -/
def State.raiseCause (s : State) (r : EngRef) (k : Nat) (f : BlockFault) (d : Disp) : State :=
  (s.updEntry r k fun x => { x with phase := .parked, parked := d == .park }).takeFault r (s.ownAddr r k) f d

/-- SVC: supervisor call. -/
def execSvc (c : Ctl) (svcno arg : Nat) (s : State) : Host.Outcome State Fault Refusal :=
  .next (s.runRaise (fun s r k => .ok (s.raiseCause r k { cause := .supervisorCall, remain := svcno, fva := arg } .park)) (.svc c svcno arg))

/-- TRAP. -/
def execTrap (c : Ctl) (tno arg : Nat) (s : State) : Host.Outcome State Fault Refusal :=
  .next (s.runRaise (fun s r k => .ok (s.raiseCause r k { cause := .trap tno, remain := tno, fva := arg } .park)) (.trap c tno arg))

/-- BRKP: a breakpoint; TAG goes to the stop record. -/
def execBrkp (c : Ctl) (tag : Nat) (s : State) : Host.Outcome State Fault Refusal :=
  .next (s.runRaise (fun s r k => .ok (s.raiseCause r k { cause := .breakpoint, remain := tag } .stop)) (.brkp c tag))

/-- Causes of encodings, debugging and translation that a block may name in FLTI (R325, R368). -/
def lowCauses : List Cause :=
  [ .illegalClass, .illegalOpcode, .reservedField, .wrongEngine, .badFormat, .backwardBrc, .misalignedBlock, .spaceNotPermitted,
    .misalignedWindow, .shapeMismatch, .windowGeometry, .breakpoint, .singleStep, .notPresent, .permission, .pasidInvalid,
    .handleInvalid, .handleExtent, .remoteWindow, .peerUnreachable, .tableMalformed ]

/-- Causes of the classes and of semaphores, budgets and supervisors likewise. -/
def midCauses : List Cause :=
  [ .pinnedConflict, .race, .footprint, .guard, .regionOverlap, .ringMisuse, .bindingConflict, .runOverflow, .lengthMismatch,
    .formatTag, .badScale, .scoreboardHazard, .badTolerance, .badMetadata, .semOverflow, .semInvalid, .barrierReinit,
    .danglingStream, .rendezvousMisuse, .budget, .watchdog, .supervisorCall, .spawnRefused ]

/-- Causes of cancels, completion and storage likewise. -/
def highCauses : List Cause :=
  [ .cancelled, .parkedBySupervisor, .successorInvalid, .dependenceUnderflow, .poison, .tilePoolError, .registerParity, .link,
    .weightError ]

/-- Every cause that FLTI may name but for the traps and the reasons of an abort. -/
def plainCauses : List Cause := lowCauses ++ (midCauses ++ highCauses)

/-- The cause of a code that FLTI may name. -/
def causeOf (code : Nat) : Option Cause :=
  if 0x040 ≤ code ∧ code ≤ 0x07F then some (.trap (code - 0x040))
  else if 0x180 ≤ code ∧ code ≤ 0x187 then some (.migrationAbort (code - 0x180))
  else plainCauses.find? fun c => c.code == code

/-- REMAIN of a record that FLTI makes: the number of a trap, which its cause names (R327); the other causes' own values are
of no block, and zero. -/
def fltiRemain : Cause → Nat
  | .trap n => n
  | _ => 0

/-- FLTI (R108, R368): raises a named cause, in a privileged task. A NOTE stops nothing: the block completes when its record
is written, at once unless the record is held. -/
def execFlti (c : Ctl) (cause val : Nat) (s : State) : Host.Outcome State Fault Refusal :=
  .next (s.runRaise (fun s r k =>
    if !(s.task (s.taskOf r)).priv then .error { cause := .permission }
    else
      match causeOf cause with
      | none => .error { cause := .reservedField }
      | some x =>
        if x.disp = .note then
          let s1 := s.takeFault r (s.ownAddr r k) { cause := x, remain := fltiRemain x, fva := val } .note
          .ok (if s.wouldHold (dieOf r.tile) then s1.updEntry r k fun f => { f with phase := .waiting } else s1.completeBlock r k)
        else .ok (s.raiseCause r k { cause := x, remain := fltiRemain x, fva := val } x.disp)) (.flti c cause val))

end Sys2Proof.Machine
end

