-- ==== Sys2Proof/Machine/Vector.lean ====
section
/-! DEFINITION. What the VXE forms share: operands as logical sequences (R76, R196), result lengths (R197),
elementwise computation (R198), masks (R199), register destinations (R200, R201). -/

namespace Sys2Proof.Machine

/-- What one iteration of a form does. -/
abbrev Body := State → EngRef → InFlight → Nat → Except BlockFault IterOut

abbrev Hot := List (Place × Nat × Nat)

def bad {α : Type} (c : Cause) : Except BlockFault α := .error { cause := c }

/-! ### Operands -/

/-- Origin of a windowed register operand at an iteration, in elements (R36). -/
def regOrigin (x : Desc) (c : Counters) : Int := strides x c

/-- Is an operand a windowed register (R36)? R197 has a length mismatch met at issue, or for windows at the iteration's start.
The model takes the registers with W = 1 for these windows: a tp or wb window has the same length in every iteration, which is
known as the block issues, so its mismatch is met there (DESIGN CHOICE, log 29). -/
def windowed (x : Desc) : Bool := x.space == spV && x.pad != 0

/-- A length that is wrong at the start of an iteration: of a window (R196, R197, R200). -/
def badWindow {α : Type} : Except BlockFault α := .error { cause := .lengthMismatch, late := true }

/-- A register's elements under a format, through its window (R196). Bits above the format's width are ignored (R62). Tag and
valid bit are looked at as the block issues and not again (R76, tagsOk). -/
def Ctx.regSeq (c : Ctx) (x : Desc) (fmt : Nat) (ctr : Counters) : Except BlockFault Runs :=
  let g := c.vreg x.base
  let vals := mapRuns (· % 2 ^ fmtWidth fmt) g.runs
  if x.pad = 0 then .ok vals
  else
    let o := regOrigin x ctr
    if o < 0 ∨ (g.len : Int) < o + (x.seg + 1 : Nat) then badWindow
    else .ok (takeRuns (dropRuns vals o.toNat) (x.seg + 1))

/-- Negate and absolute value of an element (R220): a float format's change its sign bit and no other, also in an element
wider than the format. -/
def signModify (mcls fmt v : Nat) : Nat :=
  if fmt = 1 ∨ fmt = 2 ∨ fmt = 3 then
    let at_ := fmtWidth fmt - 1
    putField v at_ 1 (if mcls = 5 then 1 - bits v at_ 1 else 0)
  else if mcls = 5 then wrapTo (fmtWidth fmt) (-(intVal fmt v))
  else wrapTo (fmtWidth fmt) ((intVal fmt v).natAbs)

/-- A memory element as a run value: any nonzero byte of a BOOL reads as 1 (R33). -/
def loadVal (fmt v : Nat) : Nat := if fmt = 10 then ofBool (v != 0) else v

/-- A run value as a memory element. -/
def storeVal (fmt v : Nat) : Nat := v % 2 ^ fmtWidth fmt

/-- A data operand's logical sequence in a format, modifier applied (R196, R218). A sign modifier follows the format sfmt
(R220). -/
def operandSeq (s : State) (r : EngRef) (f : InFlight) (x : Desc) (fmt : Nat) (ctr : Counters) (sfmt : Nat := fmt) :
    Except BlockFault (Runs × Hot) :=
  let raw : Except BlockFault (Runs × Hot) :=
    if x.space = spV then (s.ctx r).regSeq x fmt ctr |>.map fun v => (v, [])
    else (readOperand s r f x (if x.space = spIm then 32 else memWidth fmt) ctr).map fun (l, h) => (runsOf (l.map (loadVal fmt)), h)
  match raw with
  | .error e => .error e
  | .ok (v, h) =>
    match permuteRuns x.mod v with
    | none => if windowed x then badWindow else bad .lengthMismatch
    | some w =>
      let mcls := bits x.mod 0 4
      .ok (if 5 ≤ mcls then mergeRuns (mapRuns (signModify mcls sfmt) w) else w, h)

/-- The result length of R197, none for a mismatch. -/
def resultLen (ls : List Nat) : Option Nat :=
  match ls with
  | [] => none
  | n :: rest =>
    if rest.all (· == n) then some n
    else
      match ls.filter (· != 1) with
      | m :: others => if others.all (· == m) && ls.length == others.length + 2 then some m else none
      | [] => none

/-- An operand of length 1 repeated over the result (R197). -/
def broadcast (n : Nat) (v : Runs) : Runs := if v.total = 1 then [((v.headD (0, 1)).1, n)] else v

/-- The mask of a block, of length n (R199). -/
def maskSeq (s : State) (r : EngRef) (b : LBlk) (n : Nat) : Except BlockFault (Option Runs) :=
  if b.msk = 0 then .ok none
  else
    let g := (s.ctx r).vreg b.mreg
    if g.len ≠ n then bad .lengthMismatch
    else .ok (some (mapRuns (· % 2) g.runs))

/-- Every mask element as 1 where the block is not masked. -/
def maskOr (n : Nat) (m : Option Runs) : Runs := m.getD [(1, n)]

/-- Old D as a source or under a merge mask: of length n (R199, R200). -/
def oldSeq (s : State) (r : EngRef) (b : LBlk) (tag n : Nat) (ctr : Counters) : Except BlockFault Runs :=
  match (s.ctx r).regSeq b.d tag ctr with
  | .error e => .error e
  | .ok v => if v.total = n then .ok v else if windowed b.d then badWindow else bad .lengthMismatch

/-! ### Results -/

/-- The tag of the mask. -/
def maskTagOk (s : State) (r : EngRef) (b : LBlk) : Bool :=
  let m := (s.ctx r).vreg b.mreg
  b.msk == 0 || (m.valid && m.tag == 10)

/-- A D whose old elements the block reads is valid, and carries the result's tag. Under a raw result (tag 0) the tag of a D
that is merge-masked or a source is not looked at (R76), whole or windowed; that of a windowed D which no merge mask names is,
since R200 asks for the result's tag and R76 gives such a D no format: the model's reading (DEDUCED, log 29). -/
def oldTagOk (s : State) (r : EngRef) (b : LBlk) (tag : Nat) : Bool :=
  let g := (s.ctx r).vreg b.d.base
  b.d.space != spV || (g.valid && (g.tag == tag || (tag == 0 && (b.d.pad == 0 || (b.msk == 1 && b.zm == 0)))))

/-- Applies the mask to a result of length n (R199). -/
def applyMask (s : State) (r : EngRef) (b : LBlk) (tag n : Nat) (ctr : Counters) (y : Runs) : Except BlockFault Runs :=
  match maskSeq s r b n with
  | .error e => .error e
  | .ok none => .ok (mergeRuns y)
  | .ok (some m) =>
    if b.zm = 1 then .ok (mergeRuns (mapRuns (fun (v, on) => if on = 1 then v else 0) (alignRuns y m)))
    else
      match oldSeq s r b tag n ctr with
      | .error e => .error e
      | .ok d => .ok (mergeRuns (mapRuns (fun ((v, on), o) => if on = 1 then v else o) (alignRuns (alignRuns y m) d)))

/-- The run overflow of a register's runs (R201). -/
def overflowFault (runs : Runs) : BlockFault :=
  { cause := .runOverflow, remain := runs.total - runs.overflowAt, fva := runs.length }

/-- Writes a register destination, whole or windowed (R198, R200, R201). A result of no elements leaves the
register empty; one of more than 65,536, which no register holds (R193), is a length mismatch (log 41). -/
def writeReg (s : State) (r : EngRef) (x : Desc) (tag : Nat) (ctr : Counters) (y : Runs) : Except BlockFault TileWrite :=
  if x.pad = 0 then
    (if 65536 < y.total then bad .lengthMismatch
     else if 512 < y.length then .error (overflowFault y)
     else if y.isEmpty then .ok (.vreg x.base {})
     else .ok (.vreg x.base { runs := y, tag := tag, valid := true }))
  else
    let g := (s.ctx r).vreg x.base
    let o := regOrigin x ctr
    if o < 0 ∨ (g.len : Int) < o + (x.seg + 1 : Nat) ∨ y.total ≠ x.seg + 1 then badWindow
    else
      let whole := spliceRuns g.runs o.toNat (x.seg + 1) y
      if 512 < whole.length then .error (overflowFault whole)
      else .ok (.vreg x.base { g with runs := whole, lost := [] })

/-- Writes a pool window with a sequence, element n of the window taking element n (R215). on: which elements
are written. -/
def poolWrites (s : State) (r : EngRef) (x : Desc) (w : Nat) (ctr : Counters) (vals : List Nat) (on : List Bool) : List TileWrite :=
  ((elemBits x (originAt s r x ctr) w).zip (vals.zip on)).filterMap fun (a, v, o) =>
    if o then some (if x.space = spWb then .wb a.toNat w v else .tp a.toNat w v) else none

/-- A VXE result goes to its destination: a register, or a pool window in its format (R254). -/
def finishVec (s : State) (r : EngRef) (b : LBlk) (tag n : Nat) (ctr : Counters) (y : Runs) (hot : Hot) : Except BlockFault IterOut :=
  match applyMask s r b tag n ctr y with
  | .error e => .error e
  | .ok out =>
    match writeReg s r b.d tag ctr out with
    | .error e => .error e
    | .ok w => .ok { tile := [w], hot := hot }

/-- A fault found among the elements (R83, R230) is met before D is written, after every fault met at issue. -/
def elementFault (e : Option BlockFault) (o : Except BlockFault IterOut) : Except BlockFault IterOut :=
  match e, o with
  | none, _ => o
  | some x, .ok _ => .error { x with late := true }
  | some x, .error y => .error (if y.cause = .runOverflow then { x with late := true } else y)

/-- A result to which no mask applies. -/
def finishPlain (s : State) (r : EngRef) (b : LBlk) (tag : Nat) (ctr : Counters) (y : Runs) (hot : Hot) : Except BlockFault IterOut :=
  match writeReg s r b.d tag ctr (mergeRuns y) with
  | .error e => .error e
  | .ok w => .ok { tile := [w], hot := hot }

/-! ### Behaviours -/

/-- The entry that a block would have, for the checks made at issue. -/
def wouldBe (s : State) (r : EngRef) (i : Instr) : InFlight :=
  { addr := (s.chain r).cursor, words := [], instr := i, rights := (s.ctx r).granted (ctlOf i),
    slots := (s.ctx r).grantedSlots (ctlOf i), taken := ((s.ctx r).takeSlots (rqRings i)).2 }

/-- A length operand lies in 1 to 65,536. -/
def lengthOk (n : Nat) : Bool := decide (1 ≤ n) && decide (n ≤ 65536)

/-- A length operand, read as UINT32 (R221). One that has not one element, or a value out of range, is a length mismatch,
0x241: the spec gives the range, and no outcome for a B of several elements (DESIGN CHOICE, log 29). -/
def lengthOperand (s : State) (r : EngRef) (f : InFlight) (b : LBlk) (k : Nat) : Except BlockFault Nat :=
  match operandSeq s r f b.b 8 (b.counters k) b.fmt with
  | .error e => .error e
  | .ok (v, _) =>
    let n := (v.headD (0, 1)).1
    if v.total ≠ 1 ∨ !lengthOk n then bad .lengthMismatch else .ok n

/-- A float tolerance that is negative or NaN. An integer tolerance is unsigned (log 29). -/
def badTol (fmt t : Nat) : Bool :=
  match floatOf fmt with
  | some f => (f.value t).isNan || FVal.lt (f.value t) (.fin false 0 0)
  | none => false

/-- Is the tolerance of some iteration of VRCOT bad (R231: met at issue)? -/
def anyBadTol (s : State) (r : EngRef) (f : InFlight) (b : LBlk) : Bool :=
  (upto b.iterations).any fun k =>
    match operandSeq s r f b.b b.fmt (b.counters k) with
    | .ok (t, _) => badTol b.fmt (t.headD (0, 1)).1
    | .error _ => false

/-- The tag of a form's result (R198, R213, R222 to R227, R232, R234). -/
def resultTag (i : Instr) (b : LBlk) : Nat :=
  match i with
  | .vcmp _ | .vicmp _ => 10
  | .vmcnt _ | .vmfst _ | .vrarg _ | .vrcnt _ | .vtopk _ => 8
  | .vrsum _ | .vrisum _ | .vdot _ => b.dfmt
  | .vmov _ => if b.dfmt = 0 then b.fmt else b.dfmt
  | _ => match lParts i with | some (6, _, _) => b.dfmt | _ => b.fmt

/-- Every register operand carries its format (R76, R199, R200). -/
def tagsOk (s : State) (r : EngRef) (i : Instr) (b : LBlk) : Bool :=
  let (cls, op) := match lParts i with | some (c, o, _) => (c, o) | none => (0, 0)
  let reg (x : Desc) (fmt : Nat) : Bool :=
    let g := (s.ctx r).vreg x.base
    x.space != spV || (g.valid && (fmt == 0 || g.tag == fmt))
  reg b.a b.fmt && reg b.b (fmtB cls op b) && maskTagOk s r b && (!readsOldD i b || oldTagOk s r b (resultTag i b))

/-- Does a whole operand have a length that the block cannot use, whatever the windows beside it hold (R214, R218, R232)? -/
def wholeLengthBad (s : State) (r : EngRef) (f : InFlight) (i : Instr) (b : LBlk) : Bool :=
  let isLength (e : BlockFault) : Bool := e.cause == .lengthMismatch && !e.late
  let misfit (x : Desc) (fmt : Nat) : Bool :=
    !windowed x && (match operandSeq s r f x fmt (b.counters 0) with | .error e => isLength e | .ok _ => false)
  let (cls, op) := match lParts i with | some (c, o, _) => (c, o) | none => (0, 0)
  match i with
  | .vldr _ | .vstr _ => false
  | .vbcst _ | .vlen _ => !lengthOk b.b.base || misfit b.a b.fmt
  | .vtopk _ | .vhist _ =>
    misfit b.a b.fmt || (!windowed b.b && (match lengthOperand s r f b 0 with | .error e => isLength e | .ok _ => false))
  | _ => misfit b.a b.fmt || (b.b.space != spNone && misfit b.b (fmtB cls op b))

/-- Is a fault of the first iteration met at issue: a tolerance, lengths of operands that are all whole (R197, R231)? So is
the length of a mask or of a merged D of WPOOL, whose own length NP·C comes from the record of the first iteration: R259 gives
the mismatch no moment of its own, and the model takes the first iteration's with the block's issue (DESIGN CHOICE, log 29). -/
def atIssue (i : Instr) (b : LBlk) (e : BlockFault) : Bool :=
  e.cause == .badTolerance ||
  (e.cause == .lengthMismatch && !e.late && !windowed b.a && !windowed b.b && !(readsOld i && windowed b.d))

/-- The behaviour of a VXE form: tags, tolerances and the lengths of whole operands are met at issue. -/
def vecBehaviour (i : Instr) (b : LBlk) (body : Body) : Behaviour where
  check s r :=
    let v := s.seenBy r (s.nextIndex r)
    let f := wouldBe s r i
    let tolerances : Bool := match i with | .vrcot _ => anyBadTol v r f b | _ => false
    if !tagsOk v r i b then bad .formatTag
    else
    match body v r f 0 with
    | .ok _ => if tolerances then bad .badTolerance else .ok none
    | .error e =>
      if atIssue i b e then .error e
      else if wholeLengthBad v r f i b then bad .lengthMismatch
      else if tolerances then bad .badTolerance else .ok none
  body := body

/-- An elementwise form (R198): F of A, B and old D at each position. fmtA, fmtB: the formats of the sources. -/
def elemBody (b : LBlk) (fmtA fmtB tag : Nat) (useB readD : Bool) (F : Nat → Nat → Nat → Nat) : Body := fun s r f k =>
  let ctr := b.counters k
  match operandSeq s r f b.a fmtA ctr with
  | .error e => .error e
  | .ok (a, h1) =>
    match if useB then operandSeq s r f b.b fmtB ctr else .ok (a, []) with
    | .error e => .error e
    | .ok (v, h2) =>
      match if readD then (s.ctx r).regSeq b.d tag ctr else .ok v with
      | .error e => .error e
      | .ok d =>
        match resultLen ([a.total] ++ (if useB then [v.total] else []) ++ (if readD then [d.total] else [])) with
        | none => bad .lengthMismatch
        | some n =>
          let y := mapRuns (fun ((x, z), o) => F x z o) (alignRuns (alignRuns (broadcast n a) (broadcast n v)) (broadcast n d))
          finishVec s r b tag n ctr y (h1 ++ h2)

end Sys2Proof.Machine
end

