-- ==== Sys2Proof/Machine/Load.lean ====
section
/-! DEFINITION. Class 1, loads (R127 to R143): copies, gathers, walks, threshold scans, subscriptions, LDACQ. -/

namespace Sys2Proof.Machine

/-- The writes of an iteration as what it does: pool writes are performed by completion. -/
def loaded (w : Writes) (hot : Hot) : IterOut := { tile := w.tile, homes := w.pool, hot := hot }

/-! ### Copies (R131) -/

/-- Does D's window or A's match the tile (R131, R146)? -/
def tileMatches (th win : Desc) (h : Handle) : Bool :=
  win.count == tileCount th && win.seg == (if h.layout = 0 then th.seg else th.ext2)

/-- Reads and checks the descriptor of a copy between a tile and a window. -/
def tileCheck (b : LBlk) (th win : Desc) (s : State) (r : EngRef) : Except BlockFault (Option Handle) :=
  match readHandle s r b th with
  | .error e => .error e
  | .ok h => if tileMatches th win h then .ok (some h) else bad .handleExtent

/-- The elements of a tile, padding where out of extent (R124). -/
def readTile (s : State) (r : EngRef) (x : Desc) (h : Handle) (ctr : Counters) : Except BlockFault (List Nat × Hot) :=
  match translateTile s r .read (memWidth h.fmt) (tileElems x h ctr) with
  | .error e => .error e
  | .ok l =>
    .ok (l.map fun o => match o with | some ps => readPieces s ps | none => h.pad % 2 ^ memWidth h.fmt,
         if h.hpol = 0 then hotSectors (l.flatMap fun o => o.getD []) else [])

def tileLoadBody (b : LBlk) : Body := fun s r f k =>
  match f.handle with
  | none => .ok {}
  | some h =>
    match readTile s r b.a h (b.counters k) with
    | .error e => .error e
    | .ok (l, hot) => (writeOperand s r b.d (memWidth b.fmt) b k l).map fun w => loaded w hot

def copyBody (b : LBlk) : Body := fun s r f k =>
  match readOperand s r f b.a (memWidth b.fmt) (b.counters k) with
  | .error e => .error e
  | .ok (l, hot) => (writeOperand s r b.d (memWidth b.fmt) b k l).map fun w => loaded w hot

/-- LDT: a tile of a handle into a pool window. -/
def execLdt (b : LBlk) (s : State) : Host.Outcome State Fault Refusal :=
  .next (s.runBlock { check := tileCheck b b.a b.d, body := tileLoadBody b } (.ldt b))

/-- LDG: a global-memory window into a pool window. -/
def execLdg (b : LBlk) (s : State) : Host.Outcome State Fault Refusal := .next (s.runBlock { body := copyBody b } (.ldg b))

/-- LDGR: a cluster, die or remote pool window into the tile. -/
def execLdgr (b : LBlk) (s : State) : Host.Outcome State Fault Refusal := .next (s.runBlock { body := copyBody b } (.ldgr b))

/-- LDWB: a tile or window into the weight buffer. -/
def execLdwb (b : LBlk) (s : State) : Host.Outcome State Fault Refusal :=
  .next (s.runBlock (if b.a.space = spTh then { check := tileCheck b b.a b.d, body := tileLoadBody b } else { body := copyBody b }) (.ldwb b))

def fillBody (b : LBlk) : Body := fun s r _ k =>
  (writeOperand s r b.d (memWidth b.fmt) b k (List.replicate b.d.count b.a.base)).map fun w => loaded w []

/-- LDF: an immediate into every element. -/
def execLdf (b : LBlk) (s : State) : Host.Outcome State Fault Refusal := .next (s.runBlock { body := fillBody b } (.ldf b))

/-! ### Gathers and scatters in the tile pool (R115, R117) -/

/-- Does an element lie in the interior of the region that holds the origin? -/
def inRegion (s : State) (r : EngRef) (o : Int) (esize : Nat) (a : Int) : Bool :=
  match (s.ctx r).regionOf { space := spTp, lo := o, hi := o + esize, write := false } with
  | some (_, g) => decide ((g.off : Int) ≤ a) && decide (a + esize ≤ (g.off + g.len : Nat))
  | none => false

/-- The guard fault of the first element of a list that lies outside. -/
def guardOf (s : State) (r : EngRef) (f : InFlight) (b : LBlk) (k : Nat) (o : Int) (esize : Nat) (l : List (Option Int)) : Option Guard :=
  match l.findIdx? fun a => match a with | some x => !inRegion s r o esize x | none => false with
  | none => none
  | some j =>
    let off := wrapTo 18 ((l.getD j none).getD 0)
    some { bank := bankOf s r off, off := off, block := f.addr, ctr := packCtr (b.counters k), rest := l.length - j }

def ldxBody (b : LBlk) : Body := fun s r f k =>
  let w := memWidth b.fmt
  let o := originAt s r b.a (b.counters k)
  match indexList s r f b k with
  | .error e => .error e
  | .ok xs =>
    let l := indexed o (w / 8) xs
    if b.a.space = spTp then
      let vals := l.map fun a => match a with
        | some x => if inRegion s r o (w / 8) x then (s.ctx r).mediumBits spTp (8 * x).toNat w else 0
        | none => 0
      (writeOperand s r b.d w b k vals).map fun wr => { loaded wr [] with guard := guardOf s r f b k o (w / 8) l }
    else
      match translateTile s r .read w (l.map fun a => a.map (8 * ·)) with
      | .error e => .error e
      | .ok pss =>
        let vals := pss.map fun p => match p with | some ps => readPieces s ps | none => 0
        (writeOperand s r b.d w b k vals).map fun wr => loaded wr (hotSectors (pss.flatMap fun p => p.getD []))

/-- What a gather from the tile pool reads where its indices place it. -/
def ldxReads (b : LBlk) (s : State) (r : EngRef) (f : InFlight) (k : Nat) : List Touch :=
  let o := originAt s r b.a (b.counters k)
  let n := memWidth b.fmt / 8
  match indexList s r f b k with
  | .error _ => []
  | .ok xs =>
    if b.a.space ≠ spTp then []
    else (indexed o n xs).filterMap fun a => a.bind fun x =>
      if inRegion s r o n x then some { space := spTp, lo := x, hi := x + n, write := false } else none

/-- LDX (R132, R117): gathers elements. -/
def execLdx (b : LBlk) (s : State) : Host.Outcome State Fault Refusal :=
  .next (s.runBlock { body := ldxBody b, reads := ldxReads b } (.ldx b))

def ldxlBody (b : LBlk) : Body := fun s r f k =>
  let w := memWidth b.fmt
  match indexList s r f b k with
  | .error e => .error e
  | .ok xs =>
    match translateTile s r .read w (lineElems b.a w (indexed (originAt s r b.a (b.counters k)) (pitchOf b.a w) xs)) with
    | .error e => .error { e with remain := (e.remain + b.a.seg) / (b.a.seg + 1) }
    | .ok pss =>
      let vals := pss.map fun p => match p with | some ps => readPieces s ps | none => 0
      (writeOperand s r b.d w b k vals).map fun wr => loaded wr (hotSectors (pss.flatMap fun p => p.getD []))

/-- LDXL (R132): gathers lines. -/
def execLdxl (b : LBlk) (s : State) : Host.Outcome State Fault Refusal := .next (s.runBlock { body := ldxlBody b } (.ldxl b))

/-! ### Walks (R133, R134) -/

/-- A walk record of 256 bits. -/
structure WalkRec where
  mode  : Nat
  hops  : Nat
  nxoff : Nat
  foff  : Nat
  wbase : Nat
  key   : Nat
  rowva : Nat
  colva : Nat
  deriving DecidableEq, Repr

def walkOf (v : Nat) : WalkRec :=
  let at_ (off lo n : Nat) := bits v (8 * off + lo) n
  { colva := at_ 0 0 64, rowva := at_ 8 0 64, key := at_ 0x10 0 64, mode := at_ 0x18 0 8, hops := at_ 0x18 8 8,
    nxoff := at_ 0x18 16 16, foff := at_ 0x18 32 16, wbase := at_ 0x18 16 32 }

/-- The first check of a record (R133). -/
def walkOk (v : Nat) : Bool :=
  let q := walkOf v
  bits v (8 * 0x18 + 48) 16 == 0 && decide (q.mode ≤ 1) && q.hops != 0 &&
  (if q.mode = 0 then q.key == 0 && q.rowva == 0 && q.colva == 0 && q.nxoff % 8 == 0
   else decide (q.rowva < vaLimit) && decide (q.colva < vaLimit))

def walkers (b : LBlk) (q : WalkRec) : Nat := if q.mode = 0 then b.b.count else b.b.seg + 1

/-- The checks of LDW at issue, in order; the record read is kept. -/
def walkCheck (b : LBlk) (s : State) (r : EngRef) : Except BlockFault (Option Handle) :=
  let v := ((s.viewOf r (s.nextIndex r)).mediumBits spTp (8 * originAt s r b.a (0, 0, 0, 0)).toNat 256)
  let q := walkOf v
  if !walkOk v then bad .reservedField
  else if b.b.space ≠ (if q.mode = 0 then spTp else spIx) then bad .spaceNotPermitted
  else if q.mode = 1 ∧ b.fmt ≠ 8 then bad .badFormat
  else if b.d.seg + 1 ≠ walkers b q ∨ b.d.ext2 + 1 ≠ q.hops then bad .shapeMismatch
  else .ok (some { record := v })

/-- One pointer chase: the values of its hops from h on. -/
def chase (s : State) (r : EngRef) (q : WalkRec) (fmt : Nat) : Nat → Nat → Except BlockFault (List Nat × Hot)
  | 0, _ => .ok ([], [])
  | h + 1, p =>
    if p = 0 then (chase s r q fmt h 0).map fun (l, t) => (0 :: l, t)
    else if p % 8 ≠ 0 ∨ (p + q.foff) % unitOf fmt ≠ 0 then .error { cause := .misalignedWindow, fva := p }
    else
      match translateElems s r .read false (memWidth fmt) [(8 * (p + q.foff) : Nat)], readWord s r (p + q.nxoff : Nat) 8 with
      | .error e, _ => .error e
      | _, .error e => .error e
      | .ok pss, .ok (p1, t2) =>
        match chase s r q fmt h p1 with
        | .error e => .error e
        | .ok (l, t) => .ok (pss.foldl (fun _ ps => readPieces s ps) 0 :: l, hotSectors (pss.flatMap id) ++ t2 ++ t)

/-- One random walk of walker w from vertex x: the hops from h of n on. R134 gives an alignment and 0x009 for the pointers and
fields of mode 0 alone: of mode 1 a ROWVA or COLVA off a multiple of 4 is accepted, and the words are read where they lie (DESIGN
CHOICE, log 41). -/
def randomWalk (s : State) (r : EngRef) (q : WalkRec) (w : Nat) : Nat → Nat → Nat → Except BlockFault (List Nat × Hot)
  | 0, _, _ => .ok ([], [])
  | n + 1, h, x =>
    if x = 0xFFFFFFFF then (randomWalk s r q w n (h + 1) x).map fun (l, t) => (0xFFFFFFFF :: l, t)
    else
      match readWord s r (q.rowva + 4 * x : Nat) 4, readWord s r (q.rowva + 4 * x + 4 : Nat) 4 with
      | .error e, _ => .error e
      | _, .error e => .error e
      | .ok (lo, t1), .ok (hi, t2) =>
        if hi ≤ lo then (randomWalk s r q w n (h + 1) 0xFFFFFFFF).map fun (l, t) => (0xFFFFFFFF :: l, t1 ++ t2 ++ t)
        else
          let H := mix (xorN q.key ((q.wbase + w) % 2 ^ 32 * 2 ^ 32 + h))
          let j := (hi - lo) * (H / 2 ^ 32) / 2 ^ 32
          match readWord s r (q.colva + 4 * (lo + j) : Nat) 4 with
          | .error e => .error e
          | .ok (y, t3) => (randomWalk s r q w n (h + 1) y).map fun (l, t) => (y :: l, t1 ++ t2 ++ t3 ++ t)

/-- Every walk in turn; a fault counts the walkers from its own. -/
def walkAll (one : Nat → Nat → Except BlockFault (List Nat × Hot)) : Nat → List Nat → Except BlockFault (List (List Nat) × Hot)
  | _, [] => .ok ([], [])
  | w, p :: ps =>
    match one w p with
    | .error e => .error { e with remain := ps.length + 1 }
    | .ok (l, t) => (walkAll one (w + 1) ps).map fun (ls, ts) => (l :: ls, t ++ ts)

def ldwBody (b : LBlk) : Body := fun s r f k =>
  let q := walkOf ((f.handle.map (·.record)).getD 0)
  match readOperand s r f b.b (if q.mode = 0 then 64 else 32) (b.counters k) with
  | .error e => .error e
  | .ok (starts, _) =>
    let v := s.viaCarafe r
    match walkAll (fun w p => if q.mode = 0 then chase v r q b.fmt q.hops p else randomWalk v r q w q.hops 1 p) 0 starts with
    | .error e => .error e
    | .ok (ls, hot) =>
      (writeOperand s r b.d (memWidth b.fmt) b k ((upto q.hops).flatMap fun h => ls.map fun l => l.getD h 0)).map fun w => loaded w hot

/-- LDW (R134): pointer chases or random steps. -/
def execLdw (b : LBlk) (s : State) : Host.Outcome State Fault Refusal :=
  .next (s.runBlock { check := walkCheck b, body := ldwBody b } (.ldw b))

/-! ### Threshold scan (R135) -/

/-- a ≥ threshold in a format. -/
def reaches (fmt a t : Nat) : Bool :=
  match floatOf fmt with
  | some f => let x := f.value a; let y := f.value t; !x.isNan && !y.isNan && !FVal.lt x y
  | none => decide (intVal fmt t ≤ intVal fmt a)

def ldqBody (b : LBlk) : Body := fun s r f k =>
  match readOperand s r f b.a (memWidth b.fmt) (b.counters k) with
  | .error e => .error e
  | .ok (l, hot) =>
    let hits := ((upto l.length).zip l).filter fun (_, a) => reaches b.fmt a b.b.base
    let c := (b.d.seg - 1) / 2
    let words := [hits.length, min hits.length c] ++ (hits.take c).flatMap fun (n, a) => [n, a]
    .ok { tile := (elemBits b.d (originAt s r b.d (b.counters k)) 32).zipWith (fun a v => .tp a.toNat 32 v) words, hot := hot }

/-- LDQ (R135). -/
def execLdq (b : LBlk) (s : State) : Host.Outcome State Fault Refusal := .next (s.runBlock { body := ldqBody b } (.ldq b))

/-! ### Subscriptions (R136, R140) -/

/-- A ring gets an end-of-stream token, unless it has them all (R173). -/
def Ctx.addToken (c : Ctx) (n : Nat) : Option Ctx :=
  match c.ring n with
  | none => none
  | some g => if g.prod ≤ g.tokens then none else some (c.setRing n (some { g with tokens := g.tokens + 1 }))

/-- SUB (R136): opens a subscription. -/
def execSub (b : LBlk) (s : State) : Host.Outcome State Fault Refusal :=
  .next (s.runNow (fun s r k =>
    let c := s.ctx r
    match readHandle s r b b.a with
    | .error e => .error e
    | .ok h =>
      if b.d.seg + 1 ≠ tileCount b.a then bad .shapeMismatch
      else
        match c.ring b.d.base with
        | none => bad .ringMisuse
        | some g =>
          if 8 * g.slot < tileCount b.a * memWidth b.fmt ∨ g.sub.isSome then bad .ringMisuse
          else .ok (s.setCtx r (c.setRing b.d.base (some { g with sub := some { block := s.ownAddr r k, body := b, handle := h } })))) (.sub b))

/-- SUBC (R140): closes a subscription, with its token. A slot that the subscription has taken is first finished and
signalled: SUBC then completes when the delivery has sent the token. -/
def execSubc (b : LBlk) (s : State) : Host.Outcome State Fault Refusal :=
  .next (s.runStep (fun s r k =>
    let c := s.ctx r
    match c.ring b.d.base with
    | none => bad .ringMisuse
    | some g =>
      match g.sub with
      | none => .ok (s.completeBlock r k)
      | some x =>
        if x.took.isSome then
          .ok ((s.setCtx r (c.setRing b.d.base (some { g with sub := some { x with closing := true } }))).updEntry r k
            fun f => { f with phase := .waiting })
        else
          match (c.setRing b.d.base (some { g with sub := none })).addToken b.d.base with
          | some c1 => .ok ((s.setCtx r c1).completeBlock r k)
          | none => bad .ringMisuse) (.subc b))

/-! ### Acquire load (R142) -/

/-- LDACQ (R142): a word read with acquire at SCOPE (R187); the value that its home has reported, where it is held for its threshold by
the issue conditions. -/
def execLdacq (c : Ctl) (wt w64 scope rb roff imm off : Nat) (s : State) : Host.Outcome State Fault Refusal :=
  let reported := (s.chain s.ref).reported (.ldacq c wt w64 scope rb roff imm off)
  .next (s.runStep (fun s r k =>
    let n := if w64 = 1 then 8 else 4
    let va := rbAddr s r rb roff
    if va % (n : Nat) ≠ 0 then .error { cause := .misalignedWindow, fva := wrapTo 64 va }
    else
      match reported.elim (readWord s r va n) fun v => .ok (v, []) with
      | .error e => .error e
      | .ok (v, hot) => .ok (((s.acquire r scope va n).sampleAll hot).updEntry r k fun f => { f with writes := [.tp (8 * off) (8 * n) v] }))
    (.ldacq c wt w64 scope rb roff imm off))

end Sys2Proof.Machine
end

