-- ==== Sys2Proof/Machine/Store.lean ====
section
/-! DEFINITION. Class 2, stores (R144 to R165): copies, scatters, store-reduce, atomics, STREL, pull streams. -/

namespace Sys2Proof.Machine

/-- Writes as what an iteration does: device memory is the block's fork, pools are written by completion (R148). -/
def stored (w : Writes) (hot : Hot) : IterOut := { tile := w.tile, homes := w.pool, fork := w.memory, hot := hot }

/-! ### Copies (R152) -/

/-- Writes of values to the translated elements of a tile; an element out of extent writes nothing. -/
def tileWrites (ctr : Nat) (pss : List (Option (List Piece))) (vals : List Nat) : List Access :=
  groupAccesses ctr ((pss.zip vals).flatMap fun (o, v) => match o with | some ps => pieceWrites ps v | none => [])

def sttBody (b : LBlk) : Body := fun s r f k =>
  match f.handle with
  | none => .ok {}
  | some h =>
    match readOperand s r f b.a (memWidth b.fmt) (b.counters k) with
    | .error e => .error e
    | .ok (l, hot) =>
      match translateTile (s.viaCarafe r) r .write (memWidth b.fmt) (tileElems b.d h (b.counters k)) with
      | .error e => .error e
      | .ok pss => .ok { fork := tileWrites (packCtr (b.counters k)) pss l, hot := hot }

/-- STT: a pool window into a tile of a handle, whose translation is done at the Carafe (R150). -/
def execStt (b : LBlk) (s : State) : Host.Outcome State Fault Refusal :=
  .next (s.runBlock { check := tileCheck b b.d b.a, body := sttBody b } (.stt b))

def storeBody (b : LBlk) : Body := fun s r f k =>
  match readOperand s r f b.a (memWidth b.fmt) (b.counters k) with
  | .error e => .error e
  | .ok (l, hot) => (writeOperand s r b.d (memWidth b.fmt) b k l).map fun w => stored w hot

/-- An STG iteration may bring a launch line (R346). -/
def stgBody (b : LBlk) : Body := fun s r f k =>
  (storeBody b s r f k).map fun o => { o with fork := o.fork.map fun a => { a with line := true } }

/-- STG: a pool window into global memory. -/
def execStg (b : LBlk) (s : State) : Host.Outcome State Fault Refusal := .next (s.runBlock { body := stgBody b } (.stg b))

/-- STGR: a tile window into a cluster, die or remote pool. -/
def execStgr (b : LBlk) (s : State) : Host.Outcome State Fault Refusal := .next (s.runBlock { body := storeBody b } (.stgr b))

/-! ### Scatters (R153) -/

def stxBody (b : LBlk) : Body := fun s r f k =>
  let w := memWidth b.fmt
  let o := originAt s r b.d (b.counters k)
  match readOperand s r f b.a w (b.counters k), indexList s r f b k with
  | .error e, _ => .error e
  | _, .error e => .error e
  | .ok (vals, hot), .ok xs =>
    let l := indexed o (w / 8) xs
    if b.d.space = spTp then
      let writes := (l.zip vals).filterMap fun (a, v) => match a with
        | some x => if inRegion s r o (w / 8) x then some (TileWrite.tp (8 * x).toNat w v) else none
        | none => none
      .ok { tile := writes, hot := hot, guard := guardOf s r f b k o (w / 8) l }
    else
      match translateTile s r .write w (l.map fun a => a.map (8 * ·)) with
      | .error e => .error e
      | .ok pss => .ok { fork := tileWrites (packCtr (b.counters k)) pss vals, hot := hot }

/-- STX: scatters elements. -/
def execStx (b : LBlk) (s : State) : Host.Outcome State Fault Refusal := .next (s.runBlock { body := stxBody b } (.stx b))

def stxlBody (b : LBlk) : Body := fun s r f k =>
  let w := memWidth b.fmt
  match readOperand s r f b.a w (b.counters k), indexList s r f b k with
  | .error e, _ => .error e
  | _, .error e => .error e
  | .ok (vals, hot), .ok xs =>
    match translateTile s r .write w (lineElems b.d w (indexed (originAt s r b.d (b.counters k)) (pitchOf b.d w) xs)) with
    | .error e => .error e
    | .ok pss => .ok { fork := tileWrites (packCtr (b.counters k)) pss vals, hot := hot }

/-- STXL: scatters lines. -/
def execStxl (b : LBlk) (s : State) : Host.Outcome State Fault Refusal := .next (s.runBlock { body := stxlBody b } (.stxl b))

/-- Accesses that are releases at a scope (R187). -/
def releases (r : EngRef) (scope : Nat) (l : List Access) : List Access := l.map fun a => { a with rel := some (r.tile, scope) }

/-! ### Store-reduce and atomics (R154, R156) -/

/-- A step on one 32-bit word: its operation and operands. -/
structure Step where
  f   : Rmw
  x   : Nat
  e   : Nat := 0
  ret : Option Nat := none
  deriving DecidableEq, Repr

/-- Steps at byte addresses of global memory, in order (none: a null index). Each word lies in one sector. -/
def memorySteps (s : State) (r : EngRef) (ctr : Nat) (addrs : List (Option Int)) (steps : List Step) : Except BlockFault (List Access) :=
  match translateTile s r .atomic 32 (addrs.map fun a => a.map (8 * ·)) with
  | .error e => .error e
  | .ok pss =>
    .ok (groupAccesses ctr ((pss.zip steps).filterMap fun (o, t) => match o with
      | some (p :: _) => some { place := p.phys.place, va := p.va, hot := p.hot, op := { bit := p.bit, w := 32, kind := .rmw t.f t.x t.e t.ret } }
      | _ => none))

/-- Checks the words of n targets against the pool and its granules: the first that fails, with its remaining extent. -/
def poolStepsCheck (s : State) (r : EngRef) (x : Desc) (n : Nat) : List (Nat × Option Int) → Except BlockFault Unit
  | [] => .ok ()
  | (_, none) :: l => poolStepsCheck s r x n l
  | (j, some a) :: l =>
    match poolSpanCheck s r x a (a + 4) with
    | .error e => .error { e with remain := n - j }
    | .ok () => poolStepsCheck s r x n l

/-- Steps at byte offsets of a pool, each checked against the pool and its granules (R111). -/
def poolSteps (s : State) (r : EngRef) (x : Desc) (ctr : Nat) (addrs : List (Option Int)) (steps : List Step) : Except BlockFault (List Access) :=
  match poolOf r x with
  | none => .ok []
  | some (p, base, _) =>
    match poolStepsCheck s r x addrs.length ((upto addrs.length).zip addrs) with
    | .error e => .error e
    | .ok () =>
      .ok (groupAccesses ctr ((addrs.zip steps).filterMap fun (o, t) => o.map fun a =>
        { place := p, rm := x.space == spRm, op := { bit := (base + a.toNat) * 8, w := 32, kind := .rmw t.f t.x t.e t.ret } }))

def stepsAt (s : State) (r : EngRef) (x : Desc) (ctr : Nat) (addrs : List (Option Int)) (steps : List Step) : Except BlockFault (List Access) :=
  if x.space = spGm then memorySteps s r ctr addrs steps else poolSteps s r x ctr addrs steps

/-- f of STRD by OPX and format (R154). -/
def strdOp (b : LBlk) : Rmw :=
  match b.opx, b.fmt with
  | 0, 1 => .fadd b.rm
  | 0, fmt => .add fmt (b.sat == 1)
  | 1, 1 => .fmin
  | 1, 4 => .smin
  | 1, _ => .umin
  | _, 1 => .fmax
  | _, 4 => .smax
  | _, _ => .umax

/-- Byte addresses of D's window elements. -/
def wordAddrs (s : State) (r : EngRef) (x : Desc) (ctr : Counters) : List (Option Int) :=
  (elemBits x (originAt s r x ctr) 32).map fun a => some (a / 8)

def strdBody (b : LBlk) : Body := fun s r f k =>
  let ctr := b.counters k
  match readOperand s r f b.a 32 ctr, (if b.b.space = spIx then indexList s r f b k else .ok []) with
  | .error e, _ => .error e
  | _, .error e => .error e
  | .ok (vals, hot), .ok xs =>
    let addrs := if b.b.space = spIx then indexed (originAt s r b.d ctr) 4 xs else wordAddrs s r b.d ctr
    match stepsAt s r b.d (packCtr ctr) addrs (vals.map fun v => { f := strdOp b, x := v }) with
    | .error e => .error e
    | .ok l => .ok (if b.d.space = spGm then { fork := l, hot := hot } else { homes := l, hot := hot })

/-- STRD (R154): combines elements at their homes. -/
def execStrd (b : LBlk) (s : State) : Host.Outcome State Fault Refusal := .next (s.runBlock { body := strdBody b } (.strd b))

/-- Operand pairs of an atomic: the immediate for all, the elements, or (for compare-and-swap) expected and new. -/
def atomOperands (b : LBlk) (cas : Bool) (vals : List Nat) : List (Nat × Nat) :=
  if b.a.space = spIm then List.replicate b.d.count (0, b.a.base)
  else if cas then (upto b.d.count).map fun n => (vals.getD (2 * n) 0, vals.getD (2 * n + 1) 0)
  else vals.map fun v => (0, v)

def atomBody (b : LBlk) (f : Rmw) : Body := fun s r fl k =>
  let ctr := b.counters k
  match readOperand s r fl b.a 32 ctr with
  | .error e => .error e
  | .ok (vals, hot) =>
    let back : List (Option Nat) :=
      if b.b.space = spNone then List.replicate b.d.count none
      else (elemBits b.b (originAt s r b.b ctr) 32).map fun a => some a.toNat
    let steps := ((atomOperands b (f == .cas) vals).zip back).map fun ((e, x), ret) => ({ f := f, x := x, e := e, ret := ret } : Step)
    match stepsAt s r b.d (packCtr ctr) (wordAddrs s r b.d ctr) steps with
    | .error e => .error e
    | .ok l0 =>
      let l := if bits b.cx 3 1 = 1 then releases r (bits b.cx 0 3) l0 else l0
      .ok (if b.b.space = spNone then { fork := l, hot := hot } else { homes := l, hot := hot })

def runAtom (i : Instr) (b : LBlk) (f : Rmw) (s : State) : State := s.runBlock { body := atomBody b f } i

/-- ATADD. -/
def execAtadd (b : LBlk) (s : State) : Host.Outcome State Fault Refusal := .next (runAtom (.atadd b) b (.add b.fmt (b.sat == 1)) s)
/-- ATSMIN. -/
def execAtsmin (b : LBlk) (s : State) : Host.Outcome State Fault Refusal := .next (runAtom (.atsmin b) b .smin s)
/-- ATSMAX. -/
def execAtsmax (b : LBlk) (s : State) : Host.Outcome State Fault Refusal := .next (runAtom (.atsmax b) b .smax s)
/-- ATUMIN. -/
def execAtumin (b : LBlk) (s : State) : Host.Outcome State Fault Refusal := .next (runAtom (.atumin b) b .umin s)
/-- ATUMAX. -/
def execAtumax (b : LBlk) (s : State) : Host.Outcome State Fault Refusal := .next (runAtom (.atumax b) b .umax s)
/-- ATAND. -/
def execAtand (b : LBlk) (s : State) : Host.Outcome State Fault Refusal := .next (runAtom (.atand b) b .and s)
/-- ATOR. -/
def execAtor (b : LBlk) (s : State) : Host.Outcome State Fault Refusal := .next (runAtom (.ator b) b .or s)
/-- ATXOR. -/
def execAtxor (b : LBlk) (s : State) : Host.Outcome State Fault Refusal := .next (runAtom (.atxor b) b .xor s)
/-- ATXCH. -/
def execAtxch (b : LBlk) (s : State) : Host.Outcome State Fault Refusal := .next (runAtom (.atxch b) b .xch s)
/-- ATCAS. -/
def execAtcas (b : LBlk) (s : State) : Host.Outcome State Fault Refusal := .next (runAtom (.atcas b) b .cas s)
/-- ATFADD. -/
def execAtfadd (b : LBlk) (s : State) : Host.Outcome State Fault Refusal := .next (runAtom (.atfadd b) b (.fadd b.rm) s)

/-! ### Release store (R160) -/

/-- The access that writes or updates one word of n bytes at a VA. -/
def wordAccess (s : State) (r : EngRef) (k : AccessKind) (va : Int) (n : Nat) (kind : HomeKind) : Except BlockFault (List Access) :=
  match translateElems s r k false (8 * n) [8 * va] with
  | .error e => .error e
  | .ok pss => .ok (groupAccesses 0 ((pss.flatMap id).map fun p =>
      { place := p.phys.place, va := p.va, hot := p.hot, op := { bit := p.bit, w := p.w, kind := kind } }))

/-- An access that is performed by its block's completion (R148, R160, R185). -/
def State.handOver (s : State) (r : EngRef) (k : Nat) (l : List Access) : State :=
  s.updEntry r k fun f => { f with homes := s.fenced r l }

/-- STREL (R160): a word written with release at SCOPE. -/
def execStrel (c : Ctl) (si w64 scope rb roff imm off : Nat) (s : State) : Host.Outcome State Fault Refusal :=
  .next (s.runStep (fun s r k =>
    let n := if w64 = 1 then 8 else 4
    let va := rbAddr s r rb roff
    let v := if si = 1 then imm else (s.viewOf r k).tpWord off n
    if va % (n : Nat) ≠ 0 then .error { cause := .misalignedWindow, fva := wrapTo 64 va }
    else
      match wordAccess s r .write va n (.write v) with
      | .error e => .error e
      | .ok l => .ok (s.handOver r k (releases r scope l))) (.strel c si w64 scope rb roff imm off))

/-! ### Pull streams (R161, R163) -/

/-- PUB (R161): opens a pull stream. -/
def execPub (b : LBlk) (s : State) : Host.Outcome State Fault Refusal :=
  .next (s.runNow (fun s r k =>
    let c := s.ctx r
    match readHandle s r b b.d with
    | .error e => .error e
    | .ok h =>
      match c.ring b.a.base with
      | none => bad .ringMisuse
      | some g =>
        if 8 * g.slot < tileCount b.d * memWidth b.fmt ∨ g.pull.isSome then bad .ringMisuse
        else .ok (s.setCtx r (c.setRing b.a.base (some { g with pull := some { block := s.ownAddr r k, body := b, handle := h } })))) (.pub b))

/-- Accesses to memory that a chain has handed to homes and that have not joined. -/
def State.memForks (s : State) (r : EngRef) : Bool :=
  s.forks.any fun f => f.task == s.taskOf r && f.ref.eng == r.eng && match f.kind with | .mem .. => true | .spawn .. => false

/-- Has a ring's pull stream ended with every write at its home (R163)? -/
def State.pullOver (s : State) (r : EngRef) (ring : Nat) : Bool :=
  (match (s.ctx r).ring ring with | some g => g.pull.isNone | none => true) &&
  !(s.forks.any fun f => f.task == s.taskOf r && f.pull == some ring)

/-- A pull stream as PUBC leaves it: closing while it has a slot to finish, else gone. -/
def Stream.closed (x : Stream) : Option Stream := if x.took.isSome then some { x with closing := true } else none

/-- PUBC (R163): closes a pull stream, which finishes the slot it has taken; slots still full stay full. It completes when
the stream's writes are visible. -/
def execPubc (b : LBlk) (s : State) : Host.Outcome State Fault Refusal :=
  .next (s.runStep (fun s r k =>
    let c := s.ctx r
    match c.ring b.a.base with
    | none => bad .ringMisuse
    | some g =>
      let s1 := s.setCtx r (c.setRing b.a.base (some { g with pull := g.pull.bind Stream.closed }))
      if g.pull.isSome && !s1.pullOver r b.a.base then .ok (s1.updEntry r k fun f => { f with phase := .waiting })
      else .ok (s1.completeBlock r k)) (.pubc b))

end Sys2Proof.Machine
end

