-- ==== Sys2Proof/Machine/Sync.lean ====
section
/-! DEFINITION. Class 3, synchronisation (R166 to R192): semaphores, regions, rings, rendezvous points, fences and
completion objects. -/

namespace Sys2Proof.Machine

/-! ### Semaphores (R166, R178, R179) -/

/-- A semaphore of a declared ring. -/
def Ctx.ringSem (c : Ctx) (sem : Nat) : Bool := c.ringList.any fun (_, g) => g.fsem == sem || g.esem == sem

/-- SEMI: sets a count. -/
def execSemi (c : Ctl) (sem val : Nat) (s : State) : Host.Outcome State Fault Refusal :=
  .next (s.runNow (fun s r _ =>
    if (s.ctx r).ringSem sem then bad .ringMisuse else .ok (s.updCtx r fun c => c.setSem sem val)) (.semi c sem val))

/-- SEMQ: writes a count to a word of the tile pool. -/
def execSemq (c : Ctl) (sem off : Nat) (s : State) : Host.Outcome State Fault Refusal :=
  .next (s.runStep (fun s r k =>
    .ok (s.updEntry r k fun f => { f with writes := [.tp (8 * off) 32 ((s.ctx r).sem sem)] })) (.semq c sem off))

/-- SEMW: its condition is one of issue; DEC subtracts CNT. -/
def execSemw (c : Ctl) (dec sem cnt : Nat) (s : State) : Host.Outcome State Fault Refusal :=
  .next (s.runNow (fun s r _ =>
    if (s.ctx r).ringSem sem then bad .ringMisuse
    else .ok (if dec = 1 then s.updCtx r fun c => c.setSem sem (c.sem sem - cnt) else s)) (.semw c dec sem cnt))

/-- The tasks of a PASID saved from a slot, by number. -/
def State.savedFrom (s : State) (pasid key : Nat) : List Nat :=
  (s.tasks.filter fun (_, t) => t.pasid == pasid && t.place == some key && t.saved.isSome && t.state.live).map (·.1)

/-- Adds a count to a semaphore of a slot, or the cause that prevents it (R166, R173). -/
def Ctx.signalOne (c : Ctx) (sem cnt : Nat) : Except Cause Ctx :=
  if c.ringClosed sem then .error .ringMisuse
  else match c.addSem sem cnt with | none => .error .semOverflow | some c1 => .ok c1

/-- Adds a count to a semaphore of a slot for a PASID: where its task is resident, or held for a task saved from it;
none where no task of the PASID is dispatched to it (R179). -/
def State.signalSlot (s : State) (pasid tile slot sem cnt : Nat) : Option (Except Cause State) :=
  let x := s.slotAt tile slot
  let here := match x.task with | some n => (s.task n).pasid == pasid | none => false
  if here then some ((x.ctx.signalOne sem cnt).map fun c => s.setSlot tile slot { x with ctx := c })
  else
    match s.savedFrom pasid (slotKey tile slot) with
    | [] => none
    | l =>
      let n := l.getD (s.free (2 ^ 35) % l.length) 0
      let t := s.task n
      let held := Map.get 0 t.remote sem
      some (match (t.saved.getD {}).signalOne sem (held + cnt) with
        | .error e => .error e
        | .ok _ => .ok (s.setTask n { t with remote := Map.set 0 t.remote sem (held + cnt) }))

/-- SEMS: adds a count to a semaphore of its own slot or of another slot of its die. -/
def execSems (c : Ctl) (rmt slot tile sem cnt : Nat) (s : State) : Host.Outcome State Fault Refusal :=
  .next (s.runStep (fun s r k =>
    let (t, u) := if rmt = 1 then (tile, slot) else (r.tile, r.slot)
    if dieOf t ≠ dieOf r.tile then bad .remoteWindow
    else
      match s.signalSlot (s.task (s.taskOf r)).pasid t u sem cnt with
      | none => bad .remoteWindow
      | some (.error e) => .ok (s.raiseCause r k { cause := e } e.disp)
      | some (.ok s1) => .ok (s1.completeBlock r k)) (.sems c rmt slot tile sem cnt))

/-! ### Regions (R116, R168, R180) -/

/-- Bytes of a share. -/
def shareBytes (space : Nat) : Nat := if space = spWb then wbBytes else tpBytes

/-- Is a region placed as R116 demands beside the others? -/
def Ctx.placeOk (c : Ctx) (n : Nat) (g : Region) : Bool :=
  decide (64 ≤ g.off) && decide (g.off + g.len + 64 ≤ shareBytes g.space) &&
  c.regionList.all fun (k, h) => k == n || h.space != g.space ||
    decide (g.off + g.len + 64 ≤ h.off - 64) || decide (h.off + h.len + 64 ≤ g.off - 64)

/-- Is a semaphore bound in a region other than n? -/
def Ctx.boundElsewhere (c : Ctx) (n sem : Nat) : Bool :=
  c.regionList.any fun (k, g) => k != n && ((g.b1.map (·.sem)) == some sem || (g.b2.map (·.sem)) == some sem)

/-- Do a region's bindings keep the rules of R168? -/
def Ctx.bindOk (c : Ctx) (n : Nat) (g : Region) : Bool :=
  let free (b : Option Binding) : Bool := match b with | none => true | some x => !c.boundElsewhere n x.sem && !c.ringSem x.sem
  free g.b1 && free g.b2 && !(g.b1.isSome && (g.b1.map (·.sem)) == (g.b2.map (·.sem)))

/-- Declares a region. -/
def Ctx.declare (c : Ctx) (n : Nat) (g : Region) : Except Cause Ctx :=
  if !c.placeOk n g then .error .regionOverlap
  else if !c.bindOk n g then .error .bindingConflict
  else .ok (c.setRegion n (some g))

/-- The region that REGD's fields describe. -/
def regionOfFields (b2v b2w b2sem b1v b1w b1sem mode space len off : Nat) : Region :=
  { mode := mode, space := space, off := off, len := len,
    b1 := if b1v = 1 then some { sem := b1sem, write := b1w == 1 } else none,
    b2 := if b2v = 1 then some { sem := b2sem, write := b2w == 1 } else none }

/-- What REGD does to a slot: region n is declared, replaced or, with no region, removed. DESIGN CHOICE (log 41): a right
that REGD's own waits have just granted counts as held, and removing a region that is not declared does nothing (R180). -/
def Ctx.regd (c : Ctx) (n : Nat) (g : Option Region) : Except Cause Ctx :=
  let old := (c.region n).isSome
  if old && c.heldRights.any fun h => h.reg == n then .error .regionOverlap
  else if old && !(c.ringsOver n).isEmpty then .error .ringMisuse
  else match g with | none => .ok (c.setRegion n none) | some x => c.declare n x

/-- An effect on a slot as an effect of a block. -/
def State.onSlot (s : State) (r : EngRef) (e : Except Cause Ctx) : Except BlockFault State :=
  match e with | .error x => bad x | .ok c => .ok (s.setCtx r c)

/-- REGD: declares, replaces or removes a region. -/
def execRegd (c : Ctl) (b2v b2w b2sem b1v b1w b1sem mode space reg len off : Nat) (s : State) : Host.Outcome State Fault Refusal :=
  .next (s.runNow (fun s r _ =>
    s.onSlot r ((s.ctx r).regd reg (if mode = 0 then none else some (regionOfFields b2v b2w b2sem b1v b1w b1sem mode space len off))))
    (.regd c b2v b2w b2sem b1v b1w b1sem mode space reg len off))

/-! ### Rings (R173, R181, R182) -/

/-- May the ring be declared over its region? -/
def Ctx.ringOk (c : Ctx) (g : Ring) : Bool :=
  (match c.region g.reg with
   | some x => x.mode == 6 && x.b1.isNone && x.b2.isNone && decide (g.nslot * g.slot ≤ x.len)
   | none => false) &&
  decide (0 < g.slot) && decide (0 < g.prod) && g.fsem != g.esem && !c.boundElsewhere 64 g.fsem && !c.boundElsewhere 64 g.esem

/-- What RINGD does to a slot: ring n is declared, or removed where it has no slots. Removing one that is not declared does
nothing: the spec names no outcome for it (DESIGN CHOICE, log 41). -/
def Ctx.ringd (c : Ctx) (n : Nat) (g : Ring) : Except Cause Ctx :=
  match c.ring n with
  | some old => if g.nslot ≠ 0 ∨ old.sub.isSome ∨ old.pull.isSome then .error .ringMisuse else .ok (c.setRing n none)
  | none =>
    if g.nslot = 0 then .ok c
    else if !c.ringOk g then .error .ringMisuse
    else .ok (((c.setSem g.fsem 0).setSem g.esem g.nslot).setRing n (some g))

/-- The ring that RINGD's fields describe. -/
def ringOfFields (prod esem fsem reg slot64 nslot : Nat) : Ring :=
  { reg := reg, nslot := nslot, slot := slot64 * 64, fsem := fsem, esem := esem, prod := prod }

/-- RINGD: declares or removes a ring. -/
def execRingd (c : Ctl) (prod esem fsem reg ring slot64 nslot : Nat) (s : State) : Host.Outcome State Fault Refusal :=
  .next (s.runNow (fun s r _ => s.onSlot r ((s.ctx r).ringd ring (ringOfFields prod esem fsem reg slot64 nslot)))
    (.ringd c prod esem fsem reg ring slot64 nslot))

/-- EOS: one token to a ring of its own slot. -/
def execEos (c : Ctl) (ring : Nat) (s : State) : Host.Outcome State Fault Refusal :=
  .next (s.runStep (fun s r k =>
    if ((s.ctx r).ring ring).isNone then bad .ringMisuse
    else
      match (s.ctx r).addToken ring with
      | none => .ok (s.raiseCause r k { cause := .ringMisuse } .halt)
      | some c => .ok ((s.setCtx r c).completeBlock r k)) (.eos c ring))

/-! ### Rendezvous points (R183) -/

/-- One arrival at a point: its phase moves on with the last. -/
def Point.arrive (p : Point) : Point :=
  if p.arr + 1 = p.exp then { p with arr := 0, phase := (p.phase + 1) % 65536 } else { p with arr := p.arr + 1 }

/-- BARI: takes a free point. -/
def execBari (c : Ctl) (pt exp : Nat) (s : State) : Host.Outcome State Fault Refusal :=
  .next (s.runNow (fun s r _ =>
    if (s.point (pointKey r pt)).owner.isSome then bad .barrierReinit
    else .ok (s.setPoint (pointKey r pt) { owner := some (s.task (s.taskOf r)).pasid, exp := exp })) (.bari c pt exp))

/-- Does the engine's task own the point? -/
def State.ownsPoint (s : State) (r : EngRef) (pt : Nat) : Bool :=
  (s.point (pointKey r pt)).owner == some (s.task (s.taskOf r)).pasid

/-- BARA: arrives, and writes the phase of the arrival where PW is 1. -/
def execBara (c : Ctl) (pt pw off : Nat) (s : State) : Host.Outcome State Fault Refusal :=
  .next (s.runStep (fun s r k =>
    let p := s.point (pointKey r pt)
    if !s.ownsPoint r pt then bad .rendezvousMisuse
    else .ok ((s.setPoint (pointKey r pt) p.arrive).updEntry r k fun f =>
      { f with writes := if pw = 1 then [.tp (8 * off) 32 p.phase] else [] })) (.bara c pt pw off))

/-- BARW: its condition is one of issue. -/
def execBarw (c : Ctl) (pt off : Nat) (s : State) : Host.Outcome State Fault Refusal :=
  .next (s.runNow (fun s r _ => if !s.ownsPoint r pt then bad .rendezvousMisuse else .ok s) (.barw c pt off))

/-! ### Fences and completion objects (R184, R185) -/

/-- FENCE: in flight until the writes before it are visible; BLOCK_COMPLETE tests that. -/
def execFence (c : Ctl) (scope : Nat) (s : State) : Host.Outcome State Fault Refusal :=
  .next (s.runStep (fun s r k => .ok (s.updEntry r k fun f => { f with phase := .waiting })) (.fence c scope))

/-- The step of POST. -/
def postOp (op : Nat) : Rmw :=
  match op with | 0 => .postAdd | 1 => .postMax | _ => .postWrite

/-- POST: one serialised step at the home of a completion object, with release at SCOPE. -/
def execPost (c : Ctl) (op scope rb roff val : Nat) (s : State) : Host.Outcome State Fault Refusal :=
  .next (s.runStep (fun s r k =>
    let va := rbAddr s r rb roff
    if va % 8 ≠ 0 then .error { cause := .misalignedWindow, fva := wrapTo 64 va }
    else
      match wordAccess s r .atomic va 8 (.rmw (postOp op) val 0 none) with
      | .error e => .error e
      | .ok l => .ok (s.handOver r k (releases r scope l))) (.post c op scope rb roff val))

/-- JOIN: its condition, that the home has reported a value, is one of issue; an acquire at SCOPE of that value (R187). -/
def execJoin (c : Ctl) (scope rb roff thr : Nat) (s : State) : Host.Outcome State Fault Refusal :=
  let reported := (s.chain s.ref).reported (.join c scope rb roff thr)
  .next (s.runNow (fun s r _ =>
    let va := rbAddr s r rb roff
    if va % 8 ≠ 0 then .error { cause := .misalignedWindow, fva := wrapTo 64 va }
    else
      match reported.elim (readWord s r va 8) fun v => .ok (v, []) with
      | .error e => .error e
      | .ok (_, hot) => .ok ((s.acquire r scope va 8).sampleAll hot)) (.join c scope rb roff thr))

end Sys2Proof.Machine
end

