-- ==== Sys2Proof/Machine/Tier.lean ====
section
/-! DEFINITION. Class 9, the tier class (R281 to R290), and what its forms share with the Percolator: requests,
aborts and their records (R272, R276, R277). -/

namespace Sys2Proof.Machine

/-! ### Motion entries and requests -/

/-- The motion entry of a page. -/
def State.motionOf (s : State) (pasid va : Nat) : Option Motion := s.perc.motions.find? fun m => m.pasid == pasid && m.va == va

def Requester.same (a b : Requester) : Bool := a.task == b.task && a.block == b.block

/-- Is a request of a block that waits for its pages of it? One from before a save is so no longer (R364). -/
def Requester.waitsAs (w q : Requester) : Bool := w.sync && w.same q

/-- Has a MIGRS asked for a page that some VAs name, which is still queued or in motion? -/
def State.asked (s : State) (q : Requester) (page : Nat → Bool) : Bool :=
  (s.perc.queue.any fun m => page m.va && m.by_.any (·.waitsAs q)) ||
  s.perc.motions.any fun m => m.pasid == q.pasid && page m.va && m.by_.any (·.waitsAs q)

/-- The slot a task occupies. -/
def State.slotOf (s : State) (n : Nat) : Option (Nat × Nat) :=
  match (s.task n).place with
  | some k => if (s.slotAt (k / 4) (k % 4)).task = some n then some (k / 4, k % 4) else none
  | none => none

/-- The slot's contents of a task where they are: in its slot, or as saved. -/
def State.ctxOf (s : State) (n : Nat) : Option Ctx :=
  match s.slotOf n with | some (tile, slot) => some (s.slotAt tile slot).ctx | none => (s.task n).saved

/-- Records that the Percolator holds for a die: with 64 it accepts no request for it (R329). -/
def FaultUnit.heldBackground (u : FaultUnit) : Nat := (u.held.filter fun (_, f) => f.bg).length

/-- Puts a request in the queue of the asking tile's die, none while the queue is full or the Percolator accepts nothing for
the die (R272, R284, R329). -/
def State.ask (s : State) (q : Requester) (va : Nat) (t : Tier) : Option State :=
  let d := dieOf q.ref.tile
  if percQueueDepth ≤ (s.perc.queue.filter (·.die == d)).length ∨ 64 ≤ (s.die d).heldBackground then none
  else some { s with perc := { s.perc with queue := s.perc.queue ++ [{ die := d, pasid := q.pasid, va := va, tier := t, by_ := some q }] } }

/-- The cause of a reason of R276; reason 16 is the pinned conflict 0x190. -/
def reasonCode (reason : Nat) : Nat := 0x180 + reason

/-- A background record (R277): of a block's request, or of the Percolator's own for a page of a die. -/
def State.backgroundRecord (s : State) (pasid va code die : Nat) (q : Option Requester) : State :=
  let f : FaultRec := { pasid := pasid, agt := true, bg := true, prec := false, disp := .note, cause := code, remain := 1, fva := va }
  match q with
  | some w =>
    s.emitRecord (dieOf w.ref.tile) (clusterOf w.ref.tile)
      { f with task := (s.task w.task).va, block := w.block, tile := w.ref.tile, slot := w.ref.slot, eng := w.ref.eng.num }
  | none => s.emitRecord die (8 * die) f

/-- Does a requester's block wait for its pages (R285)? Not while its task is away, or parked in place (R298, R329, R364). -/
def State.awaits (s : State) (q : Requester) : Bool :=
  q.sync && match s.slotOf q.task with
    | some (tile, slot) => !(s.slotAt tile slot).inPlace && (((s.slotAt tile slot).ctx).chain q.ref.eng).inflight.any fun f => f.addr == q.block && f.phase != .parked
    | none => false

/-- The requests of a task that goes away are those of a block that waits no longer: what strikes them is background, and the
block asks again after the restore (R364). -/
def State.detach (s : State) (n : Nat) : State :=
  let away (w : Requester) : Requester := if w.task = n then { w with sync := false } else w
  { s with perc := { s.perc with queue := s.perc.queue.map fun m => { m with by_ := m.by_.map away },
                                 motions := s.perc.motions.map fun m => { m with by_ := m.by_.map away } } }

/-- A request cannot be met: a waiting MIGRS will fault, any other request writes a background record (R277). -/
def State.refuseMove (s : State) (pasid va reason die : Nat) (q : Option Requester) : State :=
  match q with
  | some w =>
    if s.awaits w then { s with perc := { s.perc with aborts := s.perc.aborts ++ [{ va := va, reason := reason, who := w }] } }
    else s.backgroundRecord pasid va (reasonCode reason) die q
  | none => s.backgroundRecord pasid va (reasonCode reason) die none

/-- The die to whose buffer a record about a home goes (R277). -/
def homeDie (t : Tier) (a : Nat) : Nat := match t with | .hbm => a / 2 ^ 36 / 3 % numDies | _ => 0

/-- A motion aborts (R276): copying stops, and each request it carries is answered, but after a teardown (R290). -/
def State.abortMotion (s : State) (pasid va reason : Nat) : State :=
  match s.motionOf pasid va with
  | none => s
  | some m =>
    let s0 : State := { s with perc := { s.perc with motions := s.perc.motions.map fun x =>
      if x.pasid = pasid ∧ x.va = va then { x with state := .aborted, reason := reason, by_ := [], own := false } else x } }
    let s1 := s0.log { time := s.cycle, pasid := pasid, kind := 0x31, addr := va, data := reasonCode reason }
    if reason = 4 then s1
    else
      let d := homeDie m.srcTier m.src
      let s2 := m.by_.foldl (fun s q => s.refuseMove pasid va reason d (some q)) s1
      if m.own then s2.refuseMove pasid va reason d none else s2

/-! ### Ranges (R281, R283) -/

/-- What one page of a range does: the block goes on, waits for the Percolator, or faults. -/
inductive PageOut where
  | next (s : State)
  | wait (s : State)
  | fault (s : State) (f : BlockFault)

/-- A page's step over the state, the block's index in flight and the page's number. -/
abbrev PageStep := State → EngRef → Nat → Nat → PageOut

/-- A fault at page j of n: of the walk to the page's leaf entry, or of its migration (log 44). -/
def pageFault (c : Cause) (va j n : Nat) : BlockFault :=
  { cause := c, fva := va, remain := n - j, ctr := j, acc := match c with | .pinnedConflict => 0 | .migrationAbort _ => 0 | _ => 5 }

/-- One page of an in-flight block; n pages in all. The writes of the pages before a fault are visible. -/
def State.runPage (s : State) (r : EngRef) (k n : Nat) (page : PageStep) : State :=
  match (s.chain r).inflight[k]? with
  | none => s
  | some f =>
    match page s r k f.ctr with
    | .next s1 => s1.updEntry r k fun f => { f with ctr := f.ctr + 1, phase := if n ≤ f.ctr + 1 then .done else .run }
    | .wait s1 => s1.updEntry r k fun f => { f with phase := .waiting }
    | .fault s1 e =>
      let w := (((s1.chain r).inflight[k]?).map (·.writes)).getD []
      ((s1.updCtx r fun c => c.applyAll w).updEntry r k fun f => { f with writes := [], phase := .parked, parked := e.cause.disp == .park }).takeFault r f.addr e e.cause.disp

/-- The meaning of a block over a range of n pages, and extra steps after the last. -/
def State.runTier (s : State) (i : Instr) (rb roff n extra : Nat) (page : Nat → PageStep) : State :=
  let va (s : State) := rbAddr s s.ref rb roff
  match findRun i (s.chain s.ref).inflight 0 with
  | some k => if s.runnable s.ref then s.runPage s.ref k (n + extra) (page (va s).toNat) else s
  | none =>
    s.runStep (fun s r k =>
      if va s % (pageBytes : Nat) ≠ 0 then .error { cause := .misalignedWindow, fva := wrapTo 64 (va s) }
      else if va s < 0 ∨ (vaLimit : Int) < va s + (n * pageBytes : Nat) then .error { cause := .permission, fva := wrapTo 64 (va s) }
      else .ok (s.runPage r k (n + extra) (page (va s).toNat))) i

/-- VA of page j of a range. -/
def pageVa (va j : Nat) : Nat := va + j * pageBytes

/-- Is page j the first unit of its leaf's page that the range meets? -/
def firstUnit (va j size : Nat) : Bool := j == 0 || pageVa va j % 2 ^ size == 0

/-- The page that holds a unit. -/
def wholePage (va size : Nat) : Nat := va / 2 ^ size * 2 ^ size

def Walk.tierOf (w : Walk) : Tier := Tier.ofNum (bits w.leaf 60 2)
/-- The page's address in its tier. -/
def Walk.frame (w : Walk) : Nat := bits w.leaf 16 32 * pageBytes
/-- A page of another module's memory (R268). -/
def Walk.isPeer (w : Walk) : Bool := bits w.leaf 60 2 == 2 && bitAt w.leaf 47

/-- Does the page lie in a tier, in no motion? -/
def State.restsIn (s : State) (pasid va : Nat) (w : Walk) (t : Tier) : Bool :=
  w.tierOf == t && !w.isPeer && (s.motionOf pasid (wholePage va w.size)).isNone

/-- The block of an entry as a requester. -/
def State.requester (s : State) (r : EngRef) (k : Nat) (sync : Bool) : Requester :=
  let n := s.taskOf r
  { ref := r, task := n, pasid := (s.task n).pasid, block := s.ownAddr r k, sync := sync }

/-! ### MIGR and MIGRS (R284, R285) -/

/-- One page of MIGR. -/
def migrPage (t : Tier) (n va : Nat) : PageStep := fun s r k j =>
  let q := s.requester r k false
  let a := pageVa va j
  match s.walk q.pasid a with
  | .error .notPresent => .next s
  | .error c => .fault s (pageFault c a j n)
  | .ok w =>
    if !firstUnit va j w.size || s.restsIn q.pasid a w t then .next s
    else match s.ask q (wholePage a w.size) t with | some s1 => .next s1 | none => .wait s

/-- MIGR: queues a request for each page. -/
def execMigr (c : Ctl) (dtier rb roff npg : Nat) (s : State) : Host.Outcome State Fault Refusal :=
  .next (s.runTier (.migr c dtier rb roff npg) rb roff (npg + 1) 0 (migrPage (Tier.ofNum dtier) (npg + 1)))

/-- Asks for page j of a MIGRS where it has to move and has not been asked for. -/
def State.askPage (s : State) (q : Requester) (t : Tier) (va j : Nat) : State :=
  let a := pageVa va j
  match s.walk q.pasid a with
  | .error _ => s
  | .ok w =>
    if !firstUnit va j w.size || s.restsIn q.pasid a w t || bitAt w.leaf 58 || s.asked q (· == wholePage a w.size) then s
    else (s.ask q (wholePage a w.size) t).getD s

/-- Abort notes whose blocks have stopped waiting become background records (R277, R285). -/
def State.flushWhere (s : State) (p : Requester → Bool) : State :=
  (s.perc.aborts.filter fun x => p x.who).foldl (fun s x => s.backgroundRecord x.who.pasid x.va (reasonCode x.reason) 0 (some x.who))
    { s with perc := { s.perc with aborts := s.perc.aborts.filter fun x => !p x.who } }

def State.flushNotes (s : State) (q : Requester) : State := s.flushWhere (·.same q)

/-- Those of a task. -/
def State.flushTask (s : State) (n : Nat) : State := s.flushWhere fun w => w.task == n

/-- The cause of an abort note. -/
def noteCause (reason : Nat) : Cause := if reason = 16 then .pinnedConflict else .migrationAbort reason

/-- Is a VA that of the page, of any size, that holds a unit? -/
def holdsUnit (a va : Nat) : Bool := va == a || va == wholePage a 21 || va == wholePage a 30

/-- One page of MIGRS. A page that it has asked for is looked at again when its motion has ended or aborted. Which later pages
it asks for beforehand is open (log 2). A pinned page faults with 0x190 as the block looks at it, before the Percolator judges a
request: so does a pinned page of more than 64 KiB, for which the request of a MIGR would give 0x186 (State.judge). R276 and R285
give both causes and no order of them (DESIGN CHOICE, log 55). -/
def migrsPage (t : Tier) (n va : Nat) : PageStep := fun s r k j =>
  let q := s.requester r k true
  let a := pageVa va j
  let stop (s : State) (c : Cause) : PageOut := .fault (s.flushNotes q) (pageFault c a j n)
  let wait (s : State) : PageOut :=
    .wait (((upto n).filter fun m => m == j || decide (j < m) && s.freeBit (2 ^ 33 + m)).foldl (fun s m => s.askPage q t va m) s)
  match s.perc.aborts.find? fun x => x.who.same q && holdsUnit a x.va with
  | some x =>
    stop { s with perc := { s.perc with aborts := s.perc.aborts.filter fun y => !(y.who.same q && holdsUnit a y.va) } } (noteCause x.reason)
  | none =>
    if s.asked q (holdsUnit a) then wait s
    else
      match s.walk q.pasid a with
      | .error c => stop s c
      | .ok w =>
        if !firstUnit va j w.size || s.restsIn q.pasid a w t then .next s
        else if bitAt w.leaf 58 && (s.motionOf q.pasid a).isNone then stop s .pinnedConflict
        else wait s

/-- MIGRS: completes when every page of the range rests in the tier. -/
def execMigrs (c : Ctl) (dtier rb roff npg : Nat) (s : State) : Host.Outcome State Fault Refusal :=
  .next (s.runTier (.migrs c dtier rb roff npg) rb roff (npg + 1) 0 (migrsPage (Tier.ofNum dtier) (npg + 1)))

/-! ### MPIN, MUNPIN and MADV (R286) -/

/-- Writes a leaf entry at its home. -/
def State.setLeaf (s : State) (w : Walk) (e : Nat) : State := s.writeBits (.tier w.tier) (w.addr * 8) 64 e

/-- One page of MPIN: a page in motion ends its motion first. -/
def mpinPage (n va : Nat) : PageStep := fun s r _ j =>
  let pasid := (s.task (s.taskOf r)).pasid
  let a := pageVa va j
  match s.walk pasid a with
  | .error c => .fault s (pageFault c a j n)
  | .ok w =>
    if !firstUnit va j w.size then .next s
    else if (s.motionOf pasid (wholePage a w.size)).isSome then .wait s
    else .next (s.setLeaf w (putField w.leaf 58 1 1))

/-- MPIN: pins the pages of a range. -/
def execMpin (c : Ctl) (rb roff npg : Nat) (s : State) : Host.Outcome State Fault Refusal :=
  .next (s.runTier (.mpin c rb roff npg) rb roff (npg + 1) 0 (mpinPage (npg + 1)))

/-- One page whose leaf is rewritten; a page that is not present is skipped. -/
def leafPage (f : Nat → Nat) (n va : Nat) : PageStep := fun s r _ j =>
  let a := pageVa va j
  match s.walk (s.task (s.taskOf r)).pasid a with
  | .error .notPresent => .next s
  | .error c => .fault s (pageFault c a j n)
  | .ok w => if firstUnit va j w.size then .next (s.setLeaf w (f w.leaf)) else .next s

/-- MUNPIN: unpins the pages of a range. -/
def execMunpin (c : Ctl) (rb roff npg : Nat) (s : State) : Host.Outcome State Fault Refusal :=
  .next (s.runTier (.munpin c rb roff npg) rb roff (npg + 1) 0 (leafPage (fun e => putField e 58 1 0) (npg + 1)))

/-- The leaf under the advice of an OPX. -/
def advise (adv e : Nat) : Nat :=
  match adv with
  | 0 => putField (putField e 57 1 0) 54 3 0
  | 1 => putField e 57 1 1
  | _ => putField e 54 3 (adv - 1)

/-- MADV: advice for the pages of a range. -/
def execMadv (c : Ctl) (adv rb roff npg : Nat) (s : State) : Host.Outcome State Fault Refusal :=
  .next (s.runTier (.madv c adv rb roff npg) rb roff (npg + 1) 0 (leafPage (advise adv) (npg + 1)))

/-! ### MABRT (R287) -/

/-- One page of MABRT; a last step waits until no page of the range is in motion. -/
def mabrtPage (n va : Nat) : PageStep := fun s r _ j =>
  let pasid := (s.task (s.taskOf r)).pasid
  if j < n then
    match s.motionOf pasid (pageVa va j) with
    | some m => .next (if m.state = .moving then s.abortMotion pasid (pageVa va j) 5 else s)
    | none => .next s
  else if s.perc.motions.any fun m => m.pasid == pasid && decide (va ≤ m.va) && decide (m.va < va + n * pageBytes) then .wait s
  else .next s

/-- MABRT: aborts the migrations of a range that are in motion. -/
def execMabrt (c : Ctl) (rb roff npg : Nat) (s : State) : Host.Outcome State Fault Refusal :=
  .next (s.runTier (.mabrt c rb roff npg) rb roff (npg + 1) 1 (mabrtPage (npg + 1)))

/-! ### MHOT and MQRY (R288) -/

/-- Where the accesses to a page's frame are served, for its hotness counter. -/
def State.hotKeyOf (s : State) (w : Walk) : Nat := let (t, a) := s.serveAt w.tierOf w.frame; hotKey t a w.size

/-- HOT of a page; a page of host memory has none. -/
def State.hotOf (s : State) (w : Walk) : Nat := if w.tierOf = .host then 0 else Map.get 0 s.perc.drain.hot (s.hotKeyOf w)

/-- HOT of unit j: read once, at the first unit of a page; the block keeps it, and later units report it. -/
def State.hotUnit (s : State) (r : EngRef) (k va j : Nat) (w : Walk) : Nat :=
  if firstUnit va j w.size then s.hotOf w else (((s.chain r).inflight[k]?).map (·.hot)).getD 0

/-- A unit is reported: the block's write of it, with the HOT of its page. -/
def State.reportUnit (s : State) (r : EngRef) (k : Nat) (w : TileWrite) (hot : Nat) : PageOut :=
  .next (s.updEntry r k fun f => { f with writes := f.writes ++ [w], hot := hot })

/-- One page of MHOT. -/
def mhotPage (clr off n va : Nat) : PageStep := fun s r k j =>
  let a := pageVa va j
  let put (s : State) (v : Nat) : PageOut := s.reportUnit r k (.tp (8 * (off + j)) 8 v) v
  match s.walk (s.task (s.taskOf r)).pasid a with
  | .error .notPresent => put s 0
  | .error c => .fault s (pageFault c a j n)
  | .ok w =>
    let v := s.hotUnit r k va j w
    if clr = 1 ∧ firstUnit va j w.size then put { s with perc := { s.perc.drain with hot := Map.set 0 s.perc.drain.hot (s.hotKeyOf w) 0 } } v
    else put s v

/-- MHOT: reads hotness counters. -/
def execMhot (c : Ctl) (clr rb roff npg off : Nat) (s : State) : Host.Outcome State Fault Refusal :=
  .next (s.runTier (.mhot c clr rb roff npg off) rb roff (npg + 1) 0 (mhotPage clr off (npg + 1)))

/-- STATE, DTIER and MAP of a page's motion. -/
def motionFields (m : Option Motion) : Nat × Nat × Nat :=
  match m with
  | none => (0, 0, 0)
  | some m =>
    match m.state with
    | .moving => (1, m.dstTier.num, m.map)
    | .committing => (2, m.dstTier.num, 2 ^ 32 - 1)
    | .aborted => (3, m.dstTier.num, m.map)

/-- The record of MQRY for a present page. -/
def queryRecord (m : Option Motion) (w : Walk) (hot : Nat) : Nat :=
  let (st, dt, map) := motionFields m
  let psz := match w.size with | 16 => 0 | 21 => 1 | _ => 2
  wordOf [(32, map), (2, psz), (6, 0), (8, hot), (4, 0), (3, bits w.leaf 54 3), (1, bits w.leaf 57 1), (1, bits w.leaf 58 1), (2, dt),
    (2, bits w.leaf 60 2), (3, st)]

/-- One page of MQRY. -/
def mqryPage (off n va : Nat) : PageStep := fun s r k j =>
  let pasid := (s.task (s.taskOf r)).pasid
  let a := pageVa va j
  let put (v hot : Nat) : PageOut := s.reportUnit r k (.tp (8 * (off + 8 * j)) 64 v) hot
  match s.walk pasid a with
  | .error .notPresent => put (4 * 2 ^ 61) 0
  | .error c => .fault s (pageFault c a j n)
  | .ok w => let hot := s.hotUnit r k va j w; put (queryRecord (s.motionOf pasid (wholePage a w.size)) w hot) hot

/-- MQRY: one record for each page. -/
def execMqry (c : Ctl) (rb roff npg off : Nat) (s : State) : Host.Outcome State Fault Refusal :=
  .next (s.runTier (.mqry c rb roff npg off) rb roff (npg + 1) 0 (mqryPage off (npg + 1)))

end Sys2Proof.Machine
end

