-- ==== Sys2Proof/Machine/VectorArith.lean ====
section
/-! DEFINITION. Class 4, vector arithmetic: element functions of R204 to R212, moves and construction (R213,
R214), pack and unpack (R215, R216), and one meaning for each form. -/

namespace Sys2Proof.Machine

/-! ### Floating-point element functions -/

def fmtOf (fmt : Nat) : FFmt := (floatOf fmt).getD fp32

/-- One operand NaN: the canonical NaN; else g. -/
def nanOr (f : FFmt) (a : Nat) (g : FVal → Nat) : Nat := let v := f.value a; if v.isNan then f.nanCode else g v

/-- VRNDI (R204): a rounded to an integral value, its sign kept. -/
def rndi (f : FFmt) (rm a : Nat) : Nat :=
  nanOr f a fun v =>
    match v with
    | .fin s m e => f.fl rm false (.fin s (roundInt rm s m e).natAbs 0)
    | w => f.fl rm false w

/-- floor(log2 |a|) of a nonzero finite value. -/
def log2Of (m : Nat) (e : Int) : Int := e + bitLen m - 1

/-- VEXPX (R205). -/
def expx (f : FFmt) (a : Nat) : Nat :=
  nanOr f a fun v =>
    match v with
    | .fin _ m e => if m = 0 then f.withSign true f.infCode else f.fl rmRNE false (FVal.ofInt (log2Of m e))
    | _ => f.infCode

/-- VMANT (R205). -/
def mant (f : FFmt) (a : Nat) : Nat :=
  nanOr f a fun v =>
    match v with
    | .fin s m e => if m = 0 then a % 2 ^ f.width else f.fl rmRNE false (.fin s m (e - log2Of m e))
    | _ => f.nanCode

/-- VCPYS (R205). -/
def copySign (f : FFmt) (a b : Nat) : Nat :=
  nanOr f a fun _ => f.withSign (!(f.value b).isNan && bitAt b (f.width - 1)) (a % f.signBit)

/-- VEXPINS (R206). -/
def expins (f : FFmt) (rm : Nat) (sat : Bool) (a b : Nat) : Nat :=
  match f.value a, f.value b with
  | .nan, _ => f.nanCode
  | _, .nan => f.nanCode
  | x, .inf false => f.fl rm sat (FVal.mul x (.inf false))
  | x, .inf true => f.fl rm sat (FVal.mul x (.fin false 0 0) |> fun v => match x with | .inf _ => .nan | _ => v)
  | x, .fin t n g => f.fl rm sat (FVal.scale (clampInt (-512) 512 (roundInt rmRTZ t n g)) x)

/-- VFEXP2 (R207): Horner from c7 down. -/
def fexp2 (x : Nat) : Nat :=
  match fp32.value x with
  | .fin _ _ _ =>
    [0x39218489, 0x3AAEC3FF, 0x3C1D955B, 0x3D635847, 0x3E75FDF0, 0x3F317218, 0x3F800000].foldl (fun p c => fma32 p x c) 0x377FE5FE
  | _ => fp32.nanCode

/-- One step of VRCP's iteration (R208). -/
def rcpStep (m y : Nat) : Nat := let e := fma32 (neg32 m) y 0x3F800000; fma32 y e y

/-- VRCP (R208). -/
def rcp (a : Nat) : Nat :=
  nanOr fp32 a fun v =>
    match v with
    | .inf s => fp32.withSign s 0
    | .fin s m e =>
      if m = 0 then fp32.withSign s fp32.infCode
      else
        let j := log2Of m e
        let mc := fp32.fl rmRNE false (.fin false m (e - j))
        let y := rcpStep mc (rcpStep mc (rcpStep mc (rcpStep mc (0x7EF311C3 - mc))))
        fp32.withSign s (fp32.fl rmRNE false (FVal.scale (-j) (fp32.value y)))
    | .nan => fp32.nanCode

/-- One step of VRSQ's iteration (R209). -/
def rsqStep (h y : Nat) : Nat :=
  let t := fp32.mul rmRNE false y y
  let e := fma32 (neg32 h) t 0x3FC00000
  fp32.mul rmRNE false y e

/-- VRSQ (R209). -/
def rsq (a : Nat) : Nat :=
  nanOr fp32 a fun v =>
    match v with
    | .inf s => if s then fp32.nanCode else 0
    | .fin s m e =>
      if m = 0 then fp32.withSign s fp32.infCode
      else if s then fp32.nanCode
      else
        let j := log2Of m e / 2
        let mc := fp32.fl rmRNE false (.fin false m (e - 2 * j))
        let h := fp32.fl rmRNE false (.fin false m (e - 2 * j - 1))
        let y := rsqStep h (rsqStep h (rsqStep h (0x5F375A86 - mc / 2)))
        fp32.fl rmRNE false (FVal.scale (-j) (fp32.value y))
    | .nan => fp32.nanCode

/-- VLOG2F (R210). -/
def log2f (a : Nat) : Nat :=
  nanOr fp32 a fun v =>
    match v with
    | .inf s => if s then fp32.nanCode else fp32.infCode
    | .fin s m e =>
      if m = 0 then fp32.withSign true fp32.infCode
      else if s then fp32.nanCode
      else
        let j := log2Of m e
        let m0 := fp32.fl rmRNE false (.fin false m (e - j))
        let (mc, ex) := if 0x3FB504F3 < m0 then (m0 - 2 ^ 23, j + 1) else (m0, j)
        let t := fp32.sub rmRNE false mc 0x3F800000
        let q := fp32.div rmRNE false (fp32.value t) (fp32.value (fp32.add rmRNE false mc 0x3F800000))
        let z := fp32.mul rmRNE false q q
        let p := [0x3DE38E39, 0x3E124925, 0x3E4CCCCD, 0x3EAAAAAB, 0x3F800000].foldl (fun p g => fma32 p z g) 0x3DBA2E8C
        let w := fp32.mul rmRNE false q p
        fma32 w 0x4038AA3B (fp32.fl rmRNE false (FVal.ofInt ex))
    | .nan => fp32.nanCode

/-! ### Integer element functions (R212) -/

def shiftLeft (w a n : Nat) : Nat := if w ≤ n then 0 else a * 2 ^ n % 2 ^ w
def shiftRight (w a n : Nat) : Nat := if w ≤ n then 0 else a / 2 ^ n
/-- Arithmetic shift: the exact value divided by a power of two, toward minus infinity. -/
def shiftArith (fmt a n : Nat) : Nat := wrapTo (fmtWidth fmt) (intVal fmt a / (2 ^ min n 64 : Nat))
def mulHigh (fmt a b : Nat) : Nat :=
  wrapTo (fmtWidth fmt) (signed (fmtWidth fmt) a * signed (fmtWidth fmt) b / (2 ^ fmtWidth fmt : Nat))

/-! ### Elementwise forms -/

/-- Runs an elementwise form over its block. -/
def runElem (i : Instr) (b : LBlk) (tag : Nat) (useB readD : Bool) (F : Nat → Nat → Nat → Nat) (s : State) : State :=
  s.runBlock (vecBehaviour i b (elemBody b b.fmt b.fmt tag useB readD F)) i

/-- VADD (R204): fl(a + b). -/
def execVadd (b : LBlk) (s : State) : Host.Outcome State Fault Refusal :=
  .next (runElem (.vadd b) b b.fmt true false (fun x z _ => (fmtOf b.fmt).add b.rm (b.sat == 1) x z) s)

/-- VSUB (R204): fl(a - b). -/
def execVsub (b : LBlk) (s : State) : Host.Outcome State Fault Refusal :=
  .next (runElem (.vsub b) b b.fmt true false (fun x z _ => (fmtOf b.fmt).sub b.rm (b.sat == 1) x z) s)

/-- VMUL (R204): fl(a b). -/
def execVmul (b : LBlk) (s : State) : Host.Outcome State Fault Refusal :=
  .next (runElem (.vmul b) b b.fmt true false (fun x z _ => (fmtOf b.fmt).mul b.rm (b.sat == 1) x z) s)

/-- VDIV (R204): fl(a / b). -/
def execVdiv (b : LBlk) (s : State) : Host.Outcome State Fault Refusal :=
  .next (runElem (.vdiv b) b b.fmt true false (fun x z _ => (fmtOf b.fmt).div b.rm (b.sat == 1) ((fmtOf b.fmt).value x) ((fmtOf b.fmt).value z)) s)

/-- VFMA (R204): fl(a b + d). -/
def execVfma (b : LBlk) (s : State) : Host.Outcome State Fault Refusal :=
  .next (runElem (.vfma b) b b.fmt true true (fun x z d => (fmtOf b.fmt).fma b.rm (b.sat == 1) x z d) s)

/-- VFMS (R204): fl(a b - d). -/
def execVfms (b : LBlk) (s : State) : Host.Outcome State Fault Refusal :=
  .next (runElem (.vfms b) b b.fmt true true (fun x z d => (fmtOf b.fmt).fl b.rm (b.sat == 1) (FVal.add b.rm (FVal.mul ((fmtOf b.fmt).value x) ((fmtOf b.fmt).value z)) (FVal.neg ((fmtOf b.fmt).value d)))) s)

/-- VFNMA (R204): fl(d - a b). -/
def execVfnma (b : LBlk) (s : State) : Host.Outcome State Fault Refusal :=
  .next (runElem (.vfnma b) b b.fmt true true (fun x z d => (fmtOf b.fmt).fl b.rm (b.sat == 1) (FVal.add b.rm ((fmtOf b.fmt).value d) (FVal.neg (FVal.mul ((fmtOf b.fmt).value x) ((fmtOf b.fmt).value z))))) s)

/-- VSQRT (R204): fl(sqrt a). -/
def execVsqrt (b : LBlk) (s : State) : Host.Outcome State Fault Refusal :=
  .next (runElem (.vsqrt b) b b.fmt false false (fun x _ _ => (fmtOf b.fmt).sqrt b.rm ((fmtOf b.fmt).value x)) s)

/-- VRNDI (R204): a rounded to an integral value. -/
def execVrndi (b : LBlk) (s : State) : Host.Outcome State Fault Refusal :=
  .next (runElem (.vrndi b) b b.fmt false false (fun x _ _ => rndi (fmtOf b.fmt) b.rm x) s)

/-- VMIN (R205): minimumNumber. -/
def execVmin (b : LBlk) (s : State) : Host.Outcome State Fault Refusal :=
  .next (runElem (.vmin b) b b.fmt true false (fun x z _ => (fmtOf b.fmt).minNum x z) s)

/-- VMAX (R205): maximumNumber. -/
def execVmax (b : LBlk) (s : State) : Host.Outcome State Fault Refusal :=
  .next (runElem (.vmax b) b b.fmt true false (fun x z _ => (fmtOf b.fmt).maxNum x z) s)

/-- VABS (R205): the sign bit cleared. -/
def execVabs (b : LBlk) (s : State) : Host.Outcome State Fault Refusal :=
  .next (runElem (.vabs b) b b.fmt false false (fun x _ _ => nanOr (fmtOf b.fmt) x fun _ => x % (fmtOf b.fmt).signBit) s)

/-- VNEG (R205): the sign bit inverted. -/
def execVneg (b : LBlk) (s : State) : Host.Outcome State Fault Refusal :=
  .next (runElem (.vneg b) b b.fmt false false (fun x _ _ => nanOr (fmtOf b.fmt) x fun _ => xorN x (fmtOf b.fmt).signBit) s)

/-- VCPYS (R205): the magnitude of a with the sign of b. -/
def execVcpys (b : LBlk) (s : State) : Host.Outcome State Fault Refusal :=
  .next (runElem (.vcpys b) b b.fmt true false (fun x z _ => copySign (fmtOf b.fmt) x z) s)

/-- VEXPX (R205): the exponent as a float. -/
def execVexpx (b : LBlk) (s : State) : Host.Outcome State Fault Refusal :=
  .next (runElem (.vexpx b) b b.fmt false false (fun x _ _ => expx (fmtOf b.fmt) x) s)

/-- VMANT (R205): the significand. -/
def execVmant (b : LBlk) (s : State) : Host.Outcome State Fault Refusal :=
  .next (runElem (.vmant b) b b.fmt false false (fun x _ _ => mant (fmtOf b.fmt) x) s)

/-- VEXPINS (R206): a scaled by a power of two. -/
def execVexpins (b : LBlk) (s : State) : Host.Outcome State Fault Refusal :=
  .next (runElem (.vexpins b) b b.fmt true false (fun x z _ => expins (fmtOf b.fmt) b.rm (b.sat == 1) x z) s)

/-- VFEXP2 (R207): 2^f by the fixed polynomial. -/
def execVfexp2 (b : LBlk) (s : State) : Host.Outcome State Fault Refusal :=
  .next (runElem (.vfexp2 b) b b.fmt false false (fun x _ _ => fexp2 x) s)

/-- VRCP (R208): the reciprocal by the fixed iteration. -/
def execVrcp (b : LBlk) (s : State) : Host.Outcome State Fault Refusal :=
  .next (runElem (.vrcp b) b b.fmt false false (fun x _ _ => rcp x) s)

/-- VRSQ (R209): the reciprocal square root by the fixed iteration. -/
def execVrsq (b : LBlk) (s : State) : Host.Outcome State Fault Refusal :=
  .next (runElem (.vrsq b) b b.fmt false false (fun x _ _ => rsq x) s)

/-- VLOG2F (R210): the logarithm by the fixed series. -/
def execVlog2f (b : LBlk) (s : State) : Host.Outcome State Fault Refusal :=
  .next (runElem (.vlog2f b) b b.fmt false false (fun x _ _ => log2f x) s)

/-- VMOV (R213): the elements copied, under DFMT where it is given. -/
def execVmov (b : LBlk) (s : State) : Host.Outcome State Fault Refusal :=
  .next (runElem (.vmov b) b (if b.dfmt = 0 then b.fmt else b.dfmt) false false (fun x _ _ => x % 2 ^ fmtWidth (if b.dfmt = 0 then b.fmt else b.dfmt)) s)

/-- VIADD (R212): a + b, wrapped or clamped. -/
def execViadd (b : LBlk) (s : State) : Host.Outcome State Fault Refusal :=
  .next (runElem (.viadd b) b b.fmt true false (fun x z _ => wrapClamp b.fmt (b.sat == 1) (intVal b.fmt x + intVal b.fmt z)) s)

/-- VISUB (R212): a - b, wrapped or clamped. -/
def execVisub (b : LBlk) (s : State) : Host.Outcome State Fault Refusal :=
  .next (runElem (.visub b) b b.fmt true false (fun x z _ => wrapClamp b.fmt (b.sat == 1) (intVal b.fmt x - intVal b.fmt z)) s)

/-- VIMUL (R212): a b, wrapped or clamped. -/
def execVimul (b : LBlk) (s : State) : Host.Outcome State Fault Refusal :=
  .next (runElem (.vimul b) b b.fmt true false (fun x z _ => wrapClamp b.fmt (b.sat == 1) (intVal b.fmt x * intVal b.fmt z)) s)

/-- VIMAD (R212): a b + d, exact, one wrap or clamp. -/
def execVimad (b : LBlk) (s : State) : Host.Outcome State Fault Refusal :=
  .next (runElem (.vimad b) b b.fmt true true (fun x z d => wrapClamp b.fmt (b.sat == 1) (intVal b.fmt x * intVal b.fmt z + intVal b.fmt d)) s)

/-- VIMULH (R212): the high half of the signed product. -/
def execVimulh (b : LBlk) (s : State) : Host.Outcome State Fault Refusal :=
  .next (runElem (.vimulh b) b b.fmt true false (fun x z _ => mulHigh b.fmt x z) s)

/-- VIMULHU (R212): the high half of the unsigned product. -/
def execVimulhu (b : LBlk) (s : State) : Host.Outcome State Fault Refusal :=
  .next (runElem (.vimulhu b) b b.fmt true false (fun x z _ => x * z / 2 ^ fmtWidth b.fmt) s)

/-- VIMIN (R212): the signed smaller. -/
def execVimin (b : LBlk) (s : State) : Host.Outcome State Fault Refusal :=
  .next (runElem (.vimin b) b b.fmt true false (fun x z _ => if signed (fmtWidth b.fmt) z < signed (fmtWidth b.fmt) x then z else x) s)

/-- VIMAX (R212): the signed larger. -/
def execVimax (b : LBlk) (s : State) : Host.Outcome State Fault Refusal :=
  .next (runElem (.vimax b) b b.fmt true false (fun x z _ => if signed (fmtWidth b.fmt) x < signed (fmtWidth b.fmt) z then z else x) s)

/-- VUMIN (R212): the unsigned smaller. -/
def execVumin (b : LBlk) (s : State) : Host.Outcome State Fault Refusal :=
  .next (runElem (.vumin b) b b.fmt true false (fun x z _ => min x z) s)

/-- VUMAX (R212): the unsigned larger. -/
def execVumax (b : LBlk) (s : State) : Host.Outcome State Fault Refusal :=
  .next (runElem (.vumax b) b b.fmt true false (fun x z _ => max x z) s)

/-- VAND (R212): bitwise and. -/
def execVand (b : LBlk) (s : State) : Host.Outcome State Fault Refusal :=
  .next (runElem (.vand b) b b.fmt true false (fun x z _ => andN x z) s)

/-- VOR (R212): bitwise or. -/
def execVor (b : LBlk) (s : State) : Host.Outcome State Fault Refusal :=
  .next (runElem (.vor b) b b.fmt true false (fun x z _ => orN x z) s)

/-- VXOR (R212): bitwise xor. -/
def execVxor (b : LBlk) (s : State) : Host.Outcome State Fault Refusal :=
  .next (runElem (.vxor b) b b.fmt true false (fun x z _ => xorN x z) s)

/-- VNOT (R212): bitwise not. -/
def execVnot (b : LBlk) (s : State) : Host.Outcome State Fault Refusal :=
  .next (runElem (.vnot b) b b.fmt false false (fun x _ _ => 2 ^ fmtWidth b.fmt - 1 - x) s)

/-- VSHL (R212): a shifted left by b. -/
def execVshl (b : LBlk) (s : State) : Host.Outcome State Fault Refusal :=
  .next (runElem (.vshl b) b b.fmt true false (fun x z _ => shiftLeft (fmtWidth b.fmt) x z) s)

/-- VSHR (R212): a shifted right by b with zero fill. -/
def execVshr (b : LBlk) (s : State) : Host.Outcome State Fault Refusal :=
  .next (runElem (.vshr b) b b.fmt true false (fun x z _ => shiftRight (fmtWidth b.fmt) x z) s)

/-- VSRA (R212): a shifted right by b with sign fill. -/
def execVsra (b : LBlk) (s : State) : Host.Outcome State Fault Refusal :=
  .next (runElem (.vsra b) b b.fmt true false (fun x z _ => shiftArith b.fmt x z) s)

/-- VCLZ (R212): the count of leading zero bits. -/
def execVclz (b : LBlk) (s : State) : Host.Outcome State Fault Refusal :=
  .next (runElem (.vclz b) b b.fmt false false (fun x _ _ => fmtWidth b.fmt - bitLen x) s)

/-- VPOP (R212): the count of one bits. -/
def execVpop (b : LBlk) (s : State) : Host.Outcome State Fault Refusal :=
  .next (runElem (.vpop b) b b.fmt false false (fun x _ _ => popCount (fmtWidth b.fmt) x) s)

/-! ### Construction (R214) -/

def bcastBody (b : LBlk) : Body := fun s r f k =>
  match operandSeq s r f b.a b.fmt (b.counters k) with
  | .error e => .error e
  | .ok (a, h) =>
    if a.total ≠ 1 ∨ !lengthOk b.b.base then bad .lengthMismatch
    else finishVec s r b b.fmt b.b.base (b.counters k) (broadcast b.b.base a) h

/-- VBCST (R214): one element repeated L times. -/
def execVbcst (b : LBlk) (s : State) : Host.Outcome State Fault Refusal :=
  .next (s.runBlock (vecBehaviour (.vbcst b) b (bcastBody b)) (.vbcst b))

/-- The runs of VIOTA: L elements from a on, one more after every S. -/
def iotaRuns (fmt a L S : Nat) : Runs :=
  (upto ((L + S - 1) / S)).map fun (j : Nat) => (wrapTo (fmtWidth fmt) (intVal fmt a + j), min S (L - j * S))

def iotaBody (b : LBlk) : Body := fun s r f k =>
  match operandSeq s r f b.a b.fmt (b.counters k) with
  | .error e => .error e
  | .ok (a, h) =>
    let L := bits b.b.base 0 16 + 1
    if a.total ≠ 1 then bad .lengthMismatch
    else finishVec s r b b.fmt L (b.counters k) (iotaRuns b.fmt (a.headD (0, 1)).1 L (bits b.b.base 16 16 + 1)) h

/-- VIOTA (R214): a stepped sequence of length L. -/
def execViota (b : LBlk) (s : State) : Host.Outcome State Fault Refusal :=
  .next (s.runBlock (vecBehaviour (.viota b) b (iotaBody b)) (.viota b))

def vrunBody (b : LBlk) : Body := fun s r f k =>
  match operandSeq s r f b.a b.fmt (b.counters k) with
  | .error e => .error e
  | .ok (a, h1) =>
    match operandSeq s r f b.b 8 (b.counters k) b.fmt with
    | .error e => .error e
    | .ok (v, h2) =>
      let y : Runs := (alignRuns a v).map fun ((x, n), m) => (x, n * m)
      if a.total ≠ v.total ∨ !lengthOk y.total then bad .lengthMismatch
      else finishPlain s r b b.fmt (b.counters k) y (h1 ++ h2)

/-- VRUN (R214): each element of A repeated by the count in B. -/
def execVrun (b : LBlk) (s : State) : Host.Outcome State Fault Refusal :=
  .next (s.runBlock (vecBehaviour (.vrun b) b (vrunBody b)) (.vrun b))

def vlenBody (b : LBlk) : Body := fun s r f k =>
  match operandSeq s r f b.a b.fmt (b.counters k) with
  | .error e => .error e
  | .ok (a, h) =>
    let L := b.b.base
    if !lengthOk L then bad .lengthMismatch
    else finishPlain s r b b.fmt (b.counters k) (takeRuns a L ++ [(0, L - a.total)]) h

/-- VLEN (R214): A cut or extended by zero bits to length L. -/
def execVlen (b : LBlk) (s : State) : Host.Outcome State Fault Refusal :=
  .next (s.runBlock (vecBehaviour (.vlen b) b (vlenBody b)) (.vlen b))

/-! ### Pack and unpack (R215, R216) -/

/-- VLD (R215): a window read densely into a register. -/
def execVld (b : LBlk) (s : State) : Host.Outcome State Fault Refusal :=
  .next (runElem (.vld b) b b.fmt false false (fun x _ _ => x) s)

/-- A sequence written densely to D's pool window in a format, under the mask. -/
def storeWindow (s : State) (r : EngRef) (b : LBlk) (fmt : Nat) (ctr : Counters) (a : Runs) (h : Hot) : Except BlockFault IterOut :=
  match maskSeq s r b a.total with
  | .error e => .error e
  | .ok m =>
    let on := (maskOr a.total m).elems
    let vals := a.elems.zipWith (fun v o => if o = 1 then storeVal fmt v else 0) on
    .ok { tile := poolWrites s r b.d (memWidth fmt) ctr vals (on.map fun o => o == 1 || b.zm == 1), hot := h }

def vstBody (b : LBlk) : Body := fun s r f k =>
  match operandSeq s r f b.a b.fmt (b.counters k) with
  | .error e => .error e
  | .ok (a, h) => if a.total ≠ b.d.count then bad .lengthMismatch else storeWindow s r b b.fmt (b.counters k) a h

/-- VST (R215): a register's elements written densely into a window. -/
def execVst (b : LBlk) (s : State) : Host.Outcome State Fault Refusal :=
  .next (s.runBlock (vecBehaviour (.vst b) b (vstBody b)) (.vst b))

/-- A record of a raw run image as a run. -/
def recordRun (w : Nat) : Nat × Nat := (bits w 0 32, bits w 32 16 + 1)

def vldrBody (b : LBlk) : Body := fun s r f k =>
  match readOperand s r f b.a 64 (b.counters k) with
  | .error e => .error e
  | .ok (l, h) =>
    let runs : Runs := l.map recordRun
    if 65536 < runs.total then bad .lengthMismatch
    else .ok { tile := [.vreg b.d.base { runs := runs, tag := b.fmt, valid := true }], hot := h }

/-- VLDR (R216): a raw run image loaded without merging. -/
def execVldr (b : LBlk) (s : State) : Host.Outcome State Fault Refusal :=
  .next (s.runBlock (vecBehaviour (.vldr b) b (vldrBody b)) (.vldr b))

/-- A run as a record of a raw run image. -/
def runRecord (v n : Nat) : Nat := wordOf [(32, v), (16, n - 1)]
/-- The status word of VSTR. -/
def statusWord (g : VReg) : Nat := wordOf [(17, g.len), (15, 0), (10, g.rc), (6, 0), (4, g.tag)]

def vstrBody (b : LBlk) : Body := fun s r _ k =>
  let g := (s.ctx r).vreg b.a.base
  let ctr := b.counters k
  if b.d.seg + 1 < g.rc then bad .lengthMismatch
  else
    let recs := (elemBits b.d (originAt s r b.d ctr) 64).zipWith (fun a (v, n) => TileWrite.tp a.toNat 64 (runRecord v n)) g.runs
    let st := if b.b.space = spNone then [] else [TileWrite.tp (8 * (originAt s r b.b ctr).toNat) 64 (statusWord g)]
    .ok { tile := recs ++ st }

/-- VSTR (R216): a register's runs stored as a raw run image, with its status word. -/
def execVstr (b : LBlk) (s : State) : Host.Outcome State Fault Refusal :=
  .next (s.runBlock (vecBehaviour (.vstr b) b (vstrBody b)) (.vstr b))

end Sys2Proof.Machine
end

