-- ==== Sys2Proof/Machine/Frame.lean ====
section
/-! DEFINITION. The context frame (R312 to R314): what a save writes, and what a save and a restore keep of a slot. -/

namespace Sys2Proof.Machine

/-- n bytes at an offset of the frame with their value. -/
abbrev Chunk := Nat × Nat × Nat

/-! ### State areas (R313) -/

/-- Bit e of a mask is set where the chain of engine e satisfies p. -/
def Ctx.chainMask (c : Ctx) (p : Chain → Bool) : Nat :=
  Engine.all.foldl (fun m e => if p (c.chain e) then m + 2 ^ e.num else m) 0

/-- BUDG of a remaining budget. -/
def budgWord (b : Option Int) : Nat := match b with | none => 2 ^ 63 - 1 | some v => wrapTo 64 v

def headerChunks (t : Task) (c : Ctx) : List Chunk :=
  [ (0x00, 8, wordOf [(57, t.va)]), (0x08, 8, wordOf [(4, t.state.num), (28, 0), (20, t.pasid)]), (0x10, 8, budgWord c.budget),
    (0x18, 8, wordOf [(33, c.wdc)]),
    (0x20, 8, wordOf [(1, ofBool c.step), (3, 0), (4, c.chainMask (·.stop == .stepped)), (4, c.chainMask (·.stop == .breakpoint))]) ] ++
  (upto 27).map fun k => (0x28 + 8 * k, 8, 0)

def chainChunks (e : Engine) (h : Chain) : List Chunk :=
  let a := 0x100 + 256 * e.num
  let g := h.guard.getD { bank := 0, off := 0, block := 0, ctr := 0, rest := 0 }
  let v := h.refusal.getD { status := 0, block := 0, recVa := 0 }
  [ (a, 8, wordOf [(57, h.cursor), (4, 0), (1, ofBool h.present), (1, ofBool h.endFlag), (1, ofBool h.retired)]),
    (a + 0x08, 8, wordOf [(15, h.sbp), (1, 0), (4, min 8 h.inflight.length)]),
    (a + 0x10, 8, wordOf [(18, g.off), (14, 0), (5, g.bank), (26, 0), (1, ofBool h.guard.isSome)]),
    (a + 0x18, 8, wordOf [(57, g.block)]),
    (a + 0x20, 8, wordOf [(8, v.status), (55, 0), (1, ofBool h.refusal.isSome)]),
    (a + 0x28, 8, wordOf [(57, v.block)]), (a + 0x30, 8, wordOf [(57, v.recVa)]), (a + 0x38, 8, g.rest) ] ++
  (upto 24).map fun k => (a + 0x40 + 8 * k, 8, 0)

/-- DW2 and DW3 of the REGD or RINGD that an instruction encodes. -/
def operandWords (i : Instr) : Nat × Nat := let ws := encode i; (dwAt ws 2, dwAt ws 3)

def regionChunks (n : Nat) (g : Option Region) : List Chunk :=
  let bv (b : Option Binding) := ofBool b.isSome
  let bw (b : Option Binding) := match b with | some x => ofBool x.write | none => 0
  let bs (b : Option Binding) := match b with | some x => x.sem | none => 0
  let (p, q) := match g with
    | none => operandWords (.regd {} 0 0 0 0 0 0 0 0 n 0 0)
    | some x => operandWords (.regd {} (bv x.b2) (bw x.b2) (bs x.b2) (bv x.b1) (bw x.b1) (bs x.b1) x.mode x.space n x.len x.off)
  [(0x1200 + 16 * n, 8, p), (0x1208 + 16 * n, 8, q)]

/-- The places of the cursors, the token count and the stream states within a ring's 32 bytes are open (log 2). -/
def ringChunks (s : State) (n : Nat) (g : Option Ring) : List Chunk :=
  let (p, q) := match g with
    | none => operandWords (.ringd {} 0 0 0 0 n 0 0)
    | some x => operandWords (.ringd {} x.prod x.esem x.fsem x.reg n (x.slot / 64) x.nslot)
  [(0x1600 + 32 * n, 8, p), (0x1608 + 32 * n, 8, q), (0x1610 + 32 * n, 8, s.free (2 ^ 37 + 2 * n)), (0x1618 + 32 * n, 8, s.free (2 ^ 37 + 2 * n + 1))]

/-- A block's fetched bytes as one number. -/
def blockBytes (ws : List Nat) : Nat := ws.foldr (fun w n => w + 2 ^ 64 * n) 0

def entryChunks (e : Engine) (h : Chain) : List Chunk :=
  (upto 8).flatMap fun n =>
    let a := 0x2000 + 1280 * e.num + 160 * n
    match h.inflight[n]? with
    | some f => [(a, 128, blockBytes f.words), (a + 0x80, 8, ctrOf f.instr f.ctr), (a + 0x88, 8, wordOf [(57, f.addr), (6, 0), (1, 1)]), (a + 0x90, 16, 0)]
    | none => [(a, 128, 0), (a + 0x80, 32, 0)]

/-- The state areas from 0 to 0x33FF. The layout of the dirty map is open (log 2). -/
def stateChunks (s : State) (t : Task) (c : Ctx) : List Chunk :=
  headerChunks t c ++ Engine.all.flatMap (fun e => chainChunks e (c.chain e)) ++
  (upto 256).map (fun n => (0x1000 + 2 * n, 2, c.sem n)) ++ (upto 64).flatMap (fun n => regionChunks n (c.region n)) ++
  (upto 16).flatMap (fun n => ringChunks s n (c.ring n)) ++
  (upto 32).map (fun n => (0x1800 + 8 * n, 8, statusWord (c.vreg n) + (if (c.vreg n).valid then 2 ^ 31 else 0))) ++
  (upto 32).map (fun k => (0x1900 + 8 * k, 8, s.free (2 ^ 38 + k))) ++ Engine.all.flatMap fun e => entryChunks e (c.chain e)

/-! ### Units (R314) -/

/-- The units within NEED. -/
def Task.units (t : Task) : List Nat :=
  upto t.needVreg ++ (upto ((t.needRows + 7) / 8)).map (· + 32) ++ (upto (t.needTp / 256)).map (· + 64) ++ (upto (t.needWb / 4096)).map (· + 2048)

def unitChunks (t : Task) (c : Ctx) (u : Nat) : List Chunk :=
  if u < 32 then ((upto (c.vreg u).rc).zip (c.vreg u).runs).map fun (k, v, n) => (0x10000 + 4096 * u + 8 * k, 8, runRecord v n)
  else if u < 64 then
    ((upto 512).filter fun k => decide ((u - 32) * 8 + k / 64 < t.needRows)).map fun k =>
      (0x8000 + 4 * ((u - 32) * 512 + k), 4, c.cell ((u - 32) * 512 + k))
  else if u < 2048 then [(0x40000 + 256 * (u - 64), 256, Memory.nat c.tp (256 * (u - 64)) 256)]
  else [(0x30000 + 4096 * (u - 2048), 4096, Memory.nat c.wb (4096 * (u - 2048)) 4096)]

/-- The dirty units within NEED. -/
def Task.dirtyUnits (t : Task) (c : Ctx) : List Nat := t.units.filter fun u => Map.get false c.dirty u

/-- What a save reads of the slot's storage: its dirty units. -/
def savedReads (t : Task) (c : Ctx) : Reads :=
  let l := t.dirtyUnits c
  let stretch (space off n : Nat) : Touch := { space := space, lo := off, hi := (off + n : Nat), write := false }
  { tiles := l.filterMap fun u => if u < 64 then none else if u < 2048 then some (stretch spTp (256 * (u - 64)) 256)
      else some (stretch spWb (4096 * (u - 2048)) 4096)
    cells := (l.filter fun u => decide (32 ≤ u ∧ u < 64)).flatMap fun u => (upto 512).map fun k => 512 * (u - 32) + k
    regs := l.filter fun u => decide (u < 32) }

/-- What a save writes: the state areas and the dirty units within NEED. -/
def frameChunks (s : State) (t : Task) (c : Ctx) : List Chunk :=
  stateChunks s t c ++ (t.dirtyUnits c).flatMap (unitChunks t c)

/-- Writes the chunks of a frame, which is written in whole sectors, so that their poison goes (R164, DEDUCED: log 31); an
error names the VA that could not be written. -/
def State.writeChunks (s : State) (pasid base : Nat) : List Chunk → Except Nat State
  | [] => .ok s
  | (off, n, v) :: l =>
    match s.writeVa pasid (base + off) n v (whole := true) with
    | some s1 => s1.writeChunks pasid base l
    | none => .error (base + off)

/-! ### What a task keeps of its slot (R294, R306, R315) -/

/-- The slot's contents without what lies beyond NEED. -/
def Ctx.within (c : Ctx) (t : Task) : Ctx :=
  { c with tp := c.tp.filter fun (a, _) => decide (a < t.needTp), wb := c.wb.filter fun (a, _) => decide (a < t.needWb),
           acc := c.acc.filter fun (k, _) => decide (k / 64 < t.needRows), vregs := c.vregs.filter fun (n, _) => decide (n < t.needVreg),
           sems := c.sems.filter fun (n, _) => decide (n < t.needSem) }

/-- Holds every open stream (R139, R162). -/
def Ctx.holdStreams (c : Ctx) (st : StreamState) : Ctx :=
  c.ringList.foldl (fun c (n, g) =>
    c.setRing n (some { g with sub := g.sub.map fun x => { x with state := st }, pull := g.pull.map fun x => { x with state := st } })) c

/-- A chain as a frame keeps it: fetch restarts at its cursor. A block that faulted before it issued is kept, for TKRSM
to retire (R318); a watch begins anew. What its blocks have written is seen in full after the restore, and what they have still
to do comes before the chain's later blocks (R92); no footprint stays (R93). -/
def Chain.saved (h : Chain) : Chain :=
  { h with queue := if h.headParked then h.queue.take 1 else [], feet := [], report := none,
           inflight := h.inflight.map fun f => { f with beaten := [], cut := 0, atPoint := false, saved := true } }

/-- A chain as it runs again: what it has recorded in the last park is over (R335). -/
def Chain.restored (h : Chain) : Chain :=
  { h with queue := [], headParked := false, inflight := h.inflight.map fun f => { f with parked := false } }

end Sys2Proof.Machine
end

