-- ==== Sys2Proof/Machine/Launches.lean ====
section
/-! DEFINITION. Launches and graphs (R300, R301), completion objects written by the front end (R302), the end of a
packet (R349). -/

namespace Sys2Proof.Machine

/-! ### The front end's writes (R302) -/

/-- Writes an 8-byte object with system-scope release; a write that cannot be made leaves a record 0x343. The Bool says
whether the write was made. -/
def State.putObject (s : State) (pasid va v : Nat) : State × Bool :=
  match s.writeVa pasid va 8 v with
  | some s1 => (s1, true)
  | none => (s.noteRecord 0 { pasid := pasid, cause := Cause.completionFailed.code, fva := va, remain := v % 2 ^ 64 }, false)

/-- The same of a completion object, where object 0 is none. -/
def State.writeObject (s : State) (pasid va v : Nat) : State × Bool := if va = 0 then (s, true) else s.putObject pasid va v

/-- The failure value of R349. -/
def failureValue (cause : Nat) : Nat := 0xFFFFFFFFFFFFFC00 + cause

/-- A started packet completes: DONE, LSTAT, the interrupt (R349, R302). -/
def State.packetDone (s : State) (q idx : Nat) (cause : Option Nat) (wrote : Bool) : State :=
  let x := s.queue q
  let intr := (x.started.find? (·.index == idx)).any fun p => bitAt (p.dws.getD 0 0) 9
  let s1 := s.setQueue q { x with done := x.done + 1, started := x.started.filter (·.index != idx),
                                  lstat := if wrote then cause.getD x.lstat else Cause.completionFailed.code }
  if intr || !wrote then { s1 with mgmt := { s1.mgmt with msix := s1.mgmt.msix ++ [q] } } else s1

/-! ### The launch table (R300) -/

def launchSlots : Nat := 65535

/-- An entry that may be taken: never used, or done. -/
def Launch.usable (l : Launch) : Bool := !l.live || l.done

/-- Entries that are not free. -/
def State.launchesLive (s : State) : Nat := (s.launches.filter fun (_, l) => !l.usable).length

/-- A free index; which one is open (log 2). k tells several choices of one step apart. -/
def State.pickLaunch (s : State) (k : Nat) : Option Nat :=
  let start := s.free (2 ^ 39 + k) % launchSlots
  ((upto launchSlots).map fun j => (start + j) % launchSlots + 1).find? fun i => (s.launch i).usable

/-- The id of an entry. -/
def Launch.id (l : Launch) (i : Nat) : Nat := i + 65536 * l.gen

/-- Creates an entry and gives its id, none when the table is full. The generation advances at every creation, so that the first
id of an index has generation 1, of which R300 says nothing (DESIGN CHOICE, log 41). -/
def State.newLaunch (s : State) (k : Nat) (l : Launch) : Option (State × Nat) :=
  match s.pickLaunch k with
  | none => none
  | some i =>
    let l1 : Launch := { l with live := true, done := false, gen := ((s.launch i).gen + 1) % 65536 }
    some (s.setLaunch i l1, l1.id i)

/-- The index that an id names. -/
def State.entryOf (s : State) (id : Nat) (graph : Bool) : Option Nat :=
  let i := id % 65536
  let l := s.launch i
  if i ≠ 0 ∧ l.live ∧ l.gen = id / 65536 ∧ l.isGraph = graph then some i else none

/-- The index of a launch that is not done. -/
def State.liveLaunch (s : State) (id : Nat) : Option Nat := (s.entryOf id false).filter fun i => !(s.launch i).done

/-- The live launch that an id names to a record of a PASID: another PASID's is not touched (R6). -/
def State.launchFor (s : State) (pasid id : Nat) : Option Nat := (s.liveLaunch id).filter fun i => (s.launch i).pasid == pasid

/-! ### Counters (R301) -/

/-- Marks an entry failed. Which of two causes it keeps is open (log 2). -/
def State.failEntry (s : State) (i cause : Nat) : State :=
  let l := s.launch i
  let c := if l.failed && l.cause != cause then (if s.freeBit (2 ^ 32 + i) then l.cause else cause) else cause
  s.setLaunch i { l with failed := true, cause := c }

/-- An entry is done: its counter is 0, its object is written and its packet completes. -/
def State.closeEntry (s : State) (i : Nat) : State :=
  let l := s.launch i
  let (s1, wrote) := s.writeObject l.pasid l.cobj (if l.failed then failureValue l.cause else l.val)
  let s2 := s1.setLaunch i { l with done := true, count := 0 }
  match l.queue with
  | some q => s2.packetDone q l.index (if l.failed then some l.cause else none) wrote
  | none => s2

/-- Subtracts from a graph's counter; at 0 it is done. -/
def State.graphDown (s : State) (g n : Nat) : State :=
  let l := s.launch g
  if l.done then s
  else
    let s1 := s.setLaunch g { l with count := l.count - n }
    if l.count - n = 0 then s1.closeEntry g else s1

/-- A launch is done, and its graph counts it. -/
def State.closeLaunch (s : State) (i : Nat) : State :=
  let l := s.launch i
  let s1 := s.closeEntry i
  match s1.entryOf l.graph true with
  | none => s1
  | some g => (if l.failed then s1.failEntry g l.cause else s1).graphDown g 1

/-- Subtracts 1 from the counter of the launch an id names; at 0 the launch is done. -/
def State.launchDown (s : State) (id : Nat) : State :=
  match s.liveLaunch id with
  | none => s
  | some i =>
    let l := s.launch i
    let s1 := s.setLaunch i { l with count := l.count - 1 }
    if l.count - 1 = 0 then s1.closeLaunch i else s1

/-- Adds to the counter of the launch an id names (R107). -/
def State.launchUp (s : State) (id : Nat) : State :=
  match s.liveLaunch id with
  | none => s
  | some i => let l := s.launch i; s.setLaunch i { l with count := l.count + 1 }

/-- A launch fails: its counter goes down and it is marked (R301). -/
def State.launchFail (s : State) (id cause : Nat) : State :=
  match s.liveLaunch id with
  | none => s
  | some i => (s.failEntry i cause).launchDown id

end Sys2Proof.Machine
end

