-- ==== Sys2Proof/Machine/Tasks.lean ====
section
/-! DEFINITION. Tasks as the schedulers hold them: posting (R296), dependences (R295, R299), saving and restoring
(R312 to R315), dispatch (R304 to R306, R58), cancelling (R303), completion (R104, R105). -/

namespace Sys2Proof.Machine

/-! ### Status codes (R292) -/

abbrev stUnknown : Nat := 0x01
abbrev stState : Nat := 0x02
abbrev stNeed : Nat := 0x03
abbrev stMalformed : Nat := 0x04
abbrev stUnreadable : Nat := 0x05
abbrev stPasid : Nat := 0x06
abbrev stAffinity : Nat := 0x07
abbrev stFull : Nat := 0x08
abbrev stDuplicate : Nat := 0x09
abbrev stFrame : Nat := 0x0A
abbrev stLaunch : Nat := 0x0B
abbrev stOverflow : Nat := 0x0C
abbrev stRing : Nat := 0x0D
abbrev stNoTask : Nat := 0x0E
abbrev stOccupied : Nat := 0x0F
abbrev stOperand : Nat := 0x10
abbrev stEmpty : Nat := 0x11

/-! ### Posting (R293, R294, R296) -/

/-- The live task of a PASID with a record. -/
def State.liveTask (s : State) (pasid va : Nat) : Option Nat :=
  (s.tasks.find? fun (_, t) => t.pasid == pasid && t.va == va && t.state.live).map (·.1)

/-- Reserved bits of NEED. -/
def needReserved (n : Nat) : Bool :=
  bits n 62 2 == 0 && bits n 49 3 == 0 && bits n 39 1 == 0 && bits n 30 2 == 0 && bits n 21 3 == 0 && bits n 11 5 == 0

/-- Check 4 of R296 on the record's words. -/
def recordOk (t : Task) (mayPriv : Bool) : Bool :=
  (upto 4).all (fun k => t.dw k < 2 ^ 57 && t.dw k % 32 == 0) && (upto 4).any (fun k => t.dw k != 0) &&
  needReserved (t.dw 4) && bits (t.dw 6) 37 11 == 0 && t.succ % 8 == 0 && bits (t.dw 12) 57 7 == 0 && bits (t.dw 12) 4 15 == 0 &&
  t.dw 13 == 0 && t.dw 14 == 0 && t.dw 15 == 0 &&
  (t.paramLen == 0 || decide (0x40 + 8 * t.paramLen ≤ t.needTp)) && (mayPriv || !t.priv)

/-- Check 5: every need within one slot's share. -/
def needOk (t : Task) : Bool :=
  decide (t.paramLen ≤ 512) && decide (t.needSem ≤ 256) && decide (t.needRows ≤ 64) && decide (t.needVreg ≤ 32) &&
  decide (t.needWb ≤ wbBytes) && decide (t.needTp ≤ tpBytes)

/-- Check 8: the frame's eight pages. -/
def State.frameOk (s : State) (t : Task) : Bool :=
  (upto 8).all fun k =>
    match s.walk t.pasid (t.frame + k * pageBytes) with
    | .error _ => false
    | .ok w => bitAt w.leaf 52 && bitAt w.leaf 58 && (w.tierOf == .hbm || w.tierOf == .lpddr)

/-- The home scheduler (R296): the posting cluster if AFF includes it, else the lowest in AFF. -/
def homeOf (t : Task) (cluster : Option Nat) : Nat :=
  match cluster.filter (t.allows ·) with
  | some c => c
  | none => ((upto numClusters).find? (t.allows ·)).getD 0

/-- Checks 4 to 9, as a status; 0 passes. -/
def State.postStatus (s : State) (t : Task) (mayPriv : Bool) : Nat :=
  if !recordOk t mayPriv then stMalformed
  else if !needOk t then stNeed
  else if t.aff = 0 then stAffinity
  else if t.launchId ≠ 0 ∧ (s.launchFor t.pasid t.launchId).isNone then stLaunch
  else if t.frame = 0 ∨ !s.frameOk t then stFrame
  else if 8192 ≤ (s.tasks.filter fun (_, x) => x.home == t.home && x.state.live).length then stFull
  else 0

/-- Writes STATE 9 into a refused record. -/
def State.markRefused (s : State) (pasid va : Nat) : State :=
  match s.readVa pasid (va + 0x60) 8 with
  | some w => (s.writeVa pasid (va + 0x60) 8 (w / 16 * 16 + TState.refused.num)).getD s
  | none => s

/-- POSTING (R296), by a cluster or by the front end: the status, 0 for an accepted record. -/
def State.post (s : State) (cluster : Option Nat) (pasid va : Nat) (mayPriv inherit : Bool) : State × Nat :=
  if !(s.pasid pasid).valid then (s, stPasid)
  else if va % 128 ≠ 0 then (s, stUnreadable)
  else
    match s.readDws pasid va 16 with
    | none => (s, stUnreadable)
    | some ws =>
      if (s.liveTask pasid va).isSome then (s, stDuplicate)
      else
        let t0 : Task := { pasid := pasid, va := va, words := ws, depcnt := bits (ws.getD 6 0) 48 16 }
        let t := { t0 with home := homeOf t0 cluster, stepped := t0.stepBit || inherit }
        let st := s.postStatus t mayPriv
        if st ≠ 0 then (s.markRefused pasid va, st)
        else
          let p := s.pasid pasid
          let state : TState := if p.halted || p.halting then .halted else if t.depcnt = 0 then .ready else .pending
          (({ s with nextTask := s.nextTask + 1 } : State).setTask s.nextTask t |>.setTaskState s.nextTask state, 0)

/-! ### Successors (R295, R299) -/

/-- A record written as the scheduler completes a task. -/
def State.completionRecord (s : State) (t : Task) (tile slot : Nat) (c : Cause) (remain fva : Nat) : State :=
  s.emitRecord (dieOf tile) (clusterOf tile)
    { pasid := t.pasid, tile := tile, slot := slot, agt := true, prec := false, disp := .note, cause := c.code, task := t.va, remain := remain, fva := fva }

/-- One atomic step at a successor's DEPCNT. -/
def State.decrement (s : State) (t : Task) (tile slot pos va : Nat) : State :=
  match s.readVa t.pasid (va + 0x30) 8 with
  | none => s.completionRecord t tile slot .successorInvalid pos va
  | some w =>
    let n := bits w 48 16
    if n = 0 then s.completionRecord t tile slot .dependenceUnderflow 0 va
    else
      match s.writeVa t.pasid (va + 0x30) 8 (w - 2 ^ 48) with
      | none => s.completionRecord t tile slot .successorInvalid pos va
      | some s1 =>
        match s1.liveTask t.pasid va with
        | none => s1
        | some k =>
          let s2 := s1.updTask k fun x => { x with depcnt := n - 1 }
          if n - 1 = 0 ∧ (s2.task k).state = .pending then s2.setTaskState k .ready else s2

/-- A list of record addresses in the layout of R295, none if it cannot be read or breaks the layout. -/
def State.recordList (s : State) (pasid va : Nat) : Option (List Nat) :=
  match s.readVa pasid va 8 with
  | none => none
  | some n =>
    if 4096 < n then none
    else match s.readDws pasid (va + 8) n with | some l => if l.all (· % 128 == 0) then some l else none | none => none

/-- Serves the successor list of a completed task. -/
def State.serveSuccessors (s : State) (t : Task) (tile slot : Nat) : State :=
  if t.succ = 0 then s
  else
    match s.recordList t.pasid t.succ with
    | none => s.completionRecord t tile slot .successorInvalid 0 t.succ
    | some l => ((upto l.length).zip l).foldl (fun s (k, va) => s.decrement t tile slot (k + 1) va) s

/-! ### Slots -/

/-- What a slot holds still when its task has left it, until the next dispatch into it (R306): its pools, cells, registers and
semaphores. -/
def Ctx.left (c : Ctx) : Ctx := { tp := c.tp, wb := c.wb, acc := c.acc, vregs := c.vregs, sems := c.sems }

/-- The slot is free for the next task; its stop records stay (R331), and its storage until then. -/
def State.releaseSlot (s : State) (tile slot : Nat) : State :=
  s.updSlot tile slot fun x =>
    { x with task := none, ctx := x.ctx.left, parking := false, inPlace := false, cancelled := false, yielding := false }

/-- Does a die hold a NOTE record that a block of an engine has made (R329)? -/
def State.holdsNote (s : State) (r : EngRef) : Bool :=
  (s.die (dieOf r.tile)).held.any fun (_, g) =>
    g.disp == .note && !g.agt && g.tile == r.tile && g.slot == r.slot && g.eng == r.eng.num && g.task == (s.task (s.taskOf r)).va &&
      g.pasid == (s.task (s.taskOf r)).pasid

/-- Has an in-flight block that waits inside what it waits for: a FENCE the chain's writes, a PUBC its stream's, a SUBC the end
of its subscription, an FLTI that its record is written (R368); a tier block looks again. -/
def State.waitOver (s : State) (r : EngRef) (i : Instr) : Bool :=
  match i with
  | .fence .. => !s.memForks r && (s.ctx r).ringList.all fun (_, g) => r.eng != .ste || g.pull.isNone
  | .pubc b => s.pullOver r b.a.base
  | .subc b => match (s.ctx r).ring b.d.base with | some g => g.sub.isNone | none => true
  | .flti .. => !s.holdsNote r
  | _ => true

/-- Does a block of this form complete when its wait is over? Else it runs on. -/
def waitCompletes : Instr → Bool
  | .fence .. => true
  | .pubc _ => true
  | .subc _ => true
  | .flti .. => true
  | _ => false

/-- Does a block only await its completion? -/
def State.mayFinish (s : State) (r : EngRef) (f : InFlight) : Bool :=
  f.phase == .done || (f.phase == .waiting && waitCompletes f.instr && s.waitOver r f.instr)

/-- Completes the issued blocks of a chain that only await completion (R315 step 2). -/
def State.completeDone (s : State) (r : EngRef) : Nat → State
  | 0 => s
  | n + 1 =>
    match (s.chain r).inflight.findIdx? (s.mayFinish r) with
    | none => s
    | some k => (s.completeBlock r k).completeDone r n

/-- Does a FENCE of the chain wait inside? A save comes when it has completed (R333), so that the chain's streams go on until
then (R315 steps 2 and 3). -/
def State.fencing (s : State) (r : EngRef) : Bool :=
  (s.chain r).inflight.any fun f => match f.instr with | .fence .. => f.phase == .waiting | _ => false

/-- Has a pull stream of the chain a slot to drain, or an end to come to? -/
def State.pullMoves (s : State) (r : EngRef) : Bool :=
  let x := s.slotAt r.tile r.slot
  let p := s.pasid (s.task (s.taskOf r)).pasid
  r.eng == .ste && !x.cancelled && !p.halted && !p.halting &&
  x.ctx.ringList.any fun (_, g) => x.ctx.ringEnded g && g.pull.isSome ||
    g.pull.any fun y => y.state == .opened && (y.took.isSome || decide (1 ≤ x.ctx.sem g.fsem))

/-- Is a save held up by an issued block (R151, R333)? A FENCE waits for writes on their way to their homes and for what its
chain's streams have to drain, a PUBC for its stream's slot and writes, other home work for an earlier write to its sector or
for an outstanding access, signals for the next cycle's additions (R167). A FENCE that waits for a stream to which no slot
comes, since the save keeps the chain that fills it from issuing, finds the stream again after the restore (log 47). -/
def State.holdsSave (s : State) (r : EngRef) (f : InFlight) : Bool :=
  (s.mayFinish r f && s.signalsLate r f.instr) ||
  match f.instr, f.phase with
  | .fence .., .waiting => s.memForks r || s.pullMoves r
  | .pubc b, .waiting =>
    (s.forks.any fun g => g.task == s.taskOf r && g.pull == some b.a.base) ||
    (match (s.ctx r).ring b.a.base with | some g => (match g.pull with | some x => x.state == .opened | none => false) | none => false)
  | .subc b, .waiting => match (s.ctx r).ring b.d.base with | some g => g.sub.any (·.state == .opened) | none => false
  | .flti .., .waiting => s.holdsNote r
  | _, _ => f.homes.any (s.homeWaits r f)

/-- Does some block of a slot hold up its save? -/
def State.saveWaits (s : State) (tile slot : Nat) : Bool :=
  Engine.all.any fun e => (s.chain (engRef tile slot e)).inflight.any (s.holdsSave (engRef tile slot e))

/-- Ends what a stopping block has done: the writes of its finished iterations are visible. -/
def State.flushEntry (s : State) (r : EngRef) (k : Nat) : State :=
  match (s.chain r).inflight[k]? with
  | none => s
  | some f =>
    let (s1, rets, bad) := s.performAll f.homes
    let s2 := (s1.updCtx r fun c => c.applyAll (f.writes ++ rets)).updEntry r k fun f => { f with writes := [], homes := [] }
    match bad with
    | none => s2
    | some e => s2.takeFault r f.addr e e.cause.disp false

/-- The engines of a slot come to their pre-emption points (R315 steps 1 and 2, R333). -/
def State.quiesce (s : State) (tile slot : Nat) : State :=
  Engine.all.foldl (fun s e =>
    let r := engRef tile slot e
    let s1 := s.completeDone r (s.chain r).inflight.length
    (upto (s1.chain r).inflight.length).foldl (fun s k => s.flushEntry r k) s1) s

/-- A save that ends with a fault of its own: the job halts, and the slot is no longer to be saved. -/
def State.saveFault (s : State) (tile slot : Nat) (c : Cause) (va acc : Nat) : State :=
  (s.updSlot tile slot fun x => { x with parking := false, yielding := false }).schedulerFault tile slot c va acc

/-- SAVING a slot's task (R315): streams held, the dirty units read, the frame written, the slot released; the notes of aborts
for its blocks become background records (R364). It waits for blocks that are never stopped within. A frame that cannot be written halts the job (R297), and so does storage that cannot be read
(DESIGN CHOICE, log 33); a block that faults as it stops makes the save a park. -/
def State.saveTask (s : State) (tile slot : Nat) (st : TState) : State :=
  match (s.slotAt tile slot).task with
  | none => s
  | some n =>
    if s.saveWaits tile slot then s else
    let s1 := s.quiesce tile slot
    let t := s1.task n
    let x := s1.slotAt tile slot
    if (s1.pasid t.pasid).halting || (s1.pasid t.pasid).halted || x.inPlace then s1
    else
      let y : Seen := { s := s1, v := x.ctx }
      match y.delivers (engRef tile slot .lde) (savedReads t x.ctx) with
      | (some e, z) => z.s.saveFault tile slot e.cause 0 1
      | (none, z) =>
        let c := x.ctx.holdStreams .held
        match z.s.writeChunks t.pasid t.frame (frameChunks z.s t c) with
        | .error va => z.s.saveFault tile slot .permission va 2
        | .ok s2 =>
          (((s2.updTask n fun t => { t with saved := some ((c.within t).updChains fun _ h => h.saved) }).releaseSlot tile slot).detach n |>.flushTask n).setTaskState n
            (if x.parking then .parked else st)

/-- A chain as its task comes into a slot: what happened before comes before what it reads from then on (R188). -/
def Chain.placed (h : Chain) (now : Nat) : Chain :=
  { h with since := now, inflight := h.inflight.map fun f => { f with since := now } }

/-- Puts a task into a slot: the stop records of the last one are gone (R331), the limit is in force (R310). KEY is
open (R306, log 2). -/
def State.occupy (s : State) (n tile slot : Nat) (c : Ctx) : State :=
  let clean (l : Lane) : Lane := { l with stop := none }
  let s1 := s.updSlot tile slot fun x =>
    { x with task := some n, ctx := c.updChains fun _ h => h.placed s.steps, key := s.free (2 ^ 31) % 2 ^ 32, wdActive := x.wdLimit, parking := false, inPlace := false,
             cancelled := false, yielding := false, lde := clean x.lde, mxe := clean x.mxe, vxe := clean x.vxe, ste := clean x.ste }
  (s1.updTask n fun t => { t with place := some (slotKey tile slot) })

/-- A fault met while a slot is prepared: its cause and VA. -/
structure PrepFault where
  cause : Cause
  va    : Nat
  deriving DecidableEq, Repr, Inhabited

/-- A fault of preparing a slot (R306): a PARK releases the slot with no frame written, a HALT halts the job and the task
waits in its slot for the halt line. -/
def State.prepFault (s : State) (n tile slot : Nat) (e : PrepFault) : State :=
  let t := s.task n
  let s1 := s.occupy n tile slot {}
  let s2 := s1.emitRecord (dieOf tile) (clusterOf tile)
    { pasid := t.pasid, acc := 1, tile := tile, slot := slot, agt := true, prec := false, disp := e.cause.disp, cause := e.cause.code, task := t.va, fva := e.va }
  if e.cause.disp = .park then (s2.releaseSlot tile slot).setTaskState n .parked
  else ((s2.setTaskState n .resident).updSlot tile slot fun x => { x with parking := true }).raiseHalt t.pasid e.cause.code t.va

/-! ### Restoring (R315) -/

/-- k sectors of a task's frame. One that cannot be translated halts the job as a save does (R297, log 31). -/
def State.frameSectors (s : State) (t : Task) (off : Nat) : Nat → Except PrepFault (List Nat)
  | 0 => .ok []
  | k + 1 =>
    match s.readVaE t.pasid (t.frame + off) 32 with
    | .error c => .error { cause := if c = .poison then .poison else .permission, va := t.frame + off }
    | .ok v => (s.frameSectors t (off + 32) k).map (v :: ·)

/-- The parts of some sectors, each of n bytes. -/
def sectorParts (n : Nat) (l : List Nat) : List Nat := l.flatMap fun v => (upto (32 / n)).map fun k => bits v (8 * n * k) (8 * n)

/-- A store whose entries are the parts of a list in order, those that read as nothing left out. -/
def storeOf {α : Type} [DecidableEq α] (d : α) (l : List α) : Map α := ((upto l.length).zip l).filter fun (_, v) => decide (v ≠ d)

/-- The units of a task's slot as its frame holds them. The state areas, which nothing but a save may write (R312), are read
with them, and what they hold is the slot c that was saved (log 31). -/
def State.frameUnits (s : State) (t : Task) (c : Ctx) : Except PrepFault Ctx :=
  match s.frameSectors t 0 (0x3400 / 32), s.frameSectors t 0x40000 (t.needTp / 32), s.frameSectors t 0x30000 (t.needWb / 32),
    s.frameSectors t 0x8000 (t.needRows * 8) with
  | .error e, _, _, _ => .error e
  | _, .error e, _, _ => .error e
  | _, _, .error e, _ => .error e
  | _, _, _, .error e => .error e
  | .ok _, .ok tp, .ok wb, .ok acc =>
    let bytes (l : List Nat) : Memory := storeOf 0 ((sectorParts 1 l).map (BitVec.ofNat 8 ·))
    c.vregs.foldl (fun o (n, g) =>
      match o, s.frameSectors t (0x10000 + 4096 * n) ((8 * g.rc + 31) / 32) with
      | .error e, _ => .error e
      | _, .error e => .error e
      | .ok c, .ok l => .ok { c with vregs := Map.set {} c.vregs n { g with runs := ((sectorParts 8 l).take g.rc).map recordRun, lost := [] } })
      (.ok { c with tp := bytes tp, wb := bytes wb, acc := storeOf 0 (sectorParts 4 acc) })

/-- RESTORING a saved task into a slot (R315): its units are read from the frame, remote counts are added, streams run again,
fetch restarts. -/
def State.restoreTask (s : State) (n tile slot : Nat) : State :=
  let t := s.task n
  match s.frameUnits t (t.saved.getD {}) with
  | .error e => s.prepFault n tile slot e
  | .ok c =>
    let c0 := c.holdStreams .opened
    let c1 := t.remote.foldl (fun c (k, v) => (c.addSem k v).getD c) c0
    let c2 := { c1.updChains fun _ h => h.restored with dirty := [], wdc := 0 }
    ((s.occupy n tile slot c2).updTask n fun t => { t with saved := none, remote := [] }).setTaskState n .resident

/-! ### First dispatch (R306, R58) -/

/-- n doublewords from a VA, or the fault of the first that cannot be read. -/
def State.readTable (s : State) (pasid va : Nat) : Nat → Except PrepFault (List Nat)
  | 0 => .ok []
  | n + 1 =>
    match s.readVaE pasid va 8 with
    | .error c => .error { cause := c, va := va }
    | .ok x => (s.readTable pasid (va + 8) n).map (x :: ·)

/-- n semaphore entries of a set-up image from a VA on, each read, checked and applied in its turn. -/
def State.semEntries (s : State) (pasid : Nat) : Nat → Nat → Ctx → Except PrepFault Ctx
  | 0, _, c => .ok c
  | n + 1, va, c =>
    match s.readVaE pasid va 4 with
    | .error e => .error { cause := e, va := va }
    | .ok e =>
      if bits e 10 6 ≠ 0 ∨ 255 < bits e 0 10 then .error { cause := .malformedPacket, va := va }
      else s.semEntries pasid n (va + 4) (c.setSem (bits e 0 10) (bits e 16 16))

/-- What the block with given operand words does to a slot, as a set-up entry. -/
def setupEntry (w0 p q : Nat) (c : Ctx) : Except Cause Ctx :=
  match decode .lde 0 [w0, 0, p, q] with
  | .ok (.regd _ b2v b2w b2sem b1v b1w b1sem mode space reg len off) =>
    c.regd reg (if mode = 0 then none else some (regionOfFields b2v b2w b2sem b1v b1w b1sem mode space len off))
  | .ok (.ringd _ prod esem fsem reg ring slot64 nslot) => c.ringd ring (ringOfFields prod esem fsem reg slot64 nslot)
  | .ok _ => .error .reservedField
  | .error e => .error e

/-- n region or ring entries of a set-up image from a VA on, two doublewords each, likewise. A fault names the entry. -/
def State.setupEntries (s : State) (pasid w0 : Nat) : Nat → Nat → Ctx → Except PrepFault Ctx
  | 0, _, c => .ok c
  | n + 1, va, c =>
    match s.readTable pasid va 2 with
    | .error e => .error { e with va := va }
    | .ok ws =>
      match setupEntry w0 (ws.getD 0 0) (ws.getD 1 0) c with
      | .error e => .error { cause := e, va := va }
      | .ok c1 => s.setupEntries pasid w0 n (va + 16) c1

/-- Applies the set-up image at a VA, entry after entry (R58). -/
def State.applyImage (s : State) (pasid va : Nat) (c : Ctx) : Except PrepFault Ctx :=
  match s.readTable pasid va 1 with
  | .error e => .error e
  | .ok hd =>
    let h := hd.getD 0 0
    let nsem := bits h 0 16
    let nreg := bits h 16 8
    let nring := bits h 24 8
    if bits h 32 32 ≠ 0 ∨ 256 < nsem ∨ 64 < nreg ∨ 16 < nring then .error { cause := .malformedPacket, va := va }
    else
      let a1 := va + 8
      let a2 := a1 + (nsem + 1) / 2 * 8
      let a3 := a2 + 16 * nreg
      ((s.semEntries pasid nsem a1 c).bind (s.setupEntries pasid 0x0303 nreg a2)).bind (s.setupEntries pasid 0x0304 nring a3)

/-- A task's slot as first prepared. -/
def State.prepare (s : State) (t : Task) : Except PrepFault Ctx :=
  let chain (e : Engine) : Chain := { present := t.headOf e != 0, cursor := t.headOf e }
  let c0 : Ctx := { lde := chain .lde, mxe := chain .mxe, vxe := chain .vxe, ste := chain .ste, budget := t.fullBudget,
                    step := t.stepped, dirty := t.units.foldl (fun m u => Map.set false m u true) [] }
  match s.readTable t.pasid t.param (if t.param = 0 then 0 else t.paramLen) with
  | .error e => .error e
  | .ok ps =>
    let c1 := { c0 with tp := ((upto ps.length).zip ps).foldl (fun m (k, v) => Memory.putNat m (0x40 + 8 * k) 8 v) c0.tp }
    match s.readTable t.pasid t.reloc (if t.reloc = 0 then 0 else 8) with
    | .error e => .error e
    | .ok rb =>
      let c2 := if t.reloc = 0 then c1 else { c1 with rb := rb }
      if t.seminit = 0 then .ok c2 else s.applyImage t.pasid t.seminit c2

/-- A stepped task stops before its first blocks (R337). -/
def State.stopForStep (s : State) (tile slot : Nat) : State :=
  Engine.all.foldl (fun s e =>
    let r := engRef tile slot e
    if (s.ctx r).step && (s.chain r).present then s.stopEngine r .stepped (Cause.singleStep).code .stop true 0 0 0 else s) s

/-- FIRST DISPATCH of a ready task into a slot (R306). -/
def State.firstDispatch (s : State) (n tile slot : Nat) : State :=
  match s.prepare (s.task n) with
  | .error e => s.prepFault n tile slot e
  | .ok c =>
    (((s.occupy n tile slot c).updTask n fun t => { t with fresh := false, budget := none }).setTaskState n .resident).stopForStep tile slot

/-- Dispatches a ready task or restores a saved one. -/
def State.placeTask (s : State) (n tile slot : Nat) : State :=
  if (s.task n).state = .saved then s.restoreTask n tile slot else s.firstDispatch n tile slot

/-! ### The choice of R304 and R305 -/

def State.slotFree (s : State) (tile slot : Nat) : Bool := (s.slotAt tile slot).task.isNone && !s.mgmt.tilesOut.contains tile

/-- The free slots of a tile. -/
def State.freeSlots (s : State) (tile : Nat) : List Nat := (upto slotsPerTile).filter (s.slotFree tile ·)

def State.clusterFree (s : State) (c : Nat) : Bool := (upto 16).any fun k => !(s.freeSlots (16 * c + k)).isEmpty

/-- Tasks resident on a tile: not those that keep a slot while halted, cancelled or parked in place (R298). -/
def State.residents (s : State) (tile : Nat) : Nat :=
  ((upto slotsPerTile).filter fun k => match (s.slotAt tile k).task with | some n => (s.task n).state == .resident | none => false).length

/-- Within a cluster: the tile with the fewest resident tasks, then the lowest tile, then the lowest slot. -/
def State.slotIn (s : State) (c : Nat) : Option (Nat × Nat) :=
  let used := s.residents
  let tiles := ((upto 16).map (16 * c + ·)).filter fun t => !(s.freeSlots t).isEmpty
  match tiles.foldl (fun best t => match best with | none => some t | some b => if used t < used b then some t else some b) none with
  | none => none
  | some t => (s.freeSlots t).head?.map fun k => (t, k)

/-- The next task the schedulers place, with its slot. -/
def State.nextDispatch (s : State) : Option (Nat × Nat × Nat) :=
  match firstTask s (s.candidates s.clusterFree) with
  | none => none
  | some n =>
    let t := s.task n
    let c := if t.allows t.home && s.clusterFree t.home then some t.home
             else (upto numClusters).find? fun k => t.allows k && s.clusterFree k
    match c.bind s.slotIn with | some (tile, slot) => some (n, tile, slot) | none => none

/-! ### Cancelling (R303) -/

/-- Drops the records held for a task (R329). -/
def State.dropHeld (s : State) (t : Task) : State :=
  { s with dies := s.dies.map fun (d, u) => (d, { u with held := u.held.filter fun (_, f) => !(f.pasid == t.pasid && f.task == t.va && f.disp == .park) }) }

/-- The rendezvous points of a PASID lose their owner. -/
def State.dropPoints (s : State) (pasid : Nat) : State :=
  { s with points := (s.points.map fun (k, p) => (k, if p.owner = some pasid then { p with owner := none } else p)).filter fun (_, p) => decide (p ≠ {}) }

/-- A job whose counter has reached 0 is complete (R301), and its points have no owner (R183). -/
def State.endJob (s : State) (pasid : Nat) : State :=
  if s.tasks.any fun (_, t) => t.pasid == pasid && t.state.live then s else s.dropPoints pasid

/-- Cancels one task: at once where it holds no slot, else its engines stop and SLOT_RELEASE follows. Its streams end
without a token (R137). -/
def State.cancelTask (s : State) (n : Nat) : State :=
  let s1 := ((s.setTaskState n .cancelled).dropHeld (s.task n)).endJob (s.task n).pasid
  match s.slotOf n with
  | none => (s1.flushTask n).updTask n fun t => { t with saved := none, remote := [] }
  | some (tile, slot) =>
    s1.updSlot tile slot fun x =>
      { x with cancelled := true, inPlace := false, parking := false, yielding := false,
               ctx := x.ctx.ringList.foldl (fun c (k, g) => c.setRing k (some { g with sub := none, pull := none })) x.ctx }

/-- Cancels every live task that a test picks. -/
def State.cancelWhere (s : State) (p : Task → Bool) : State :=
  (s.tasks.filter fun (_, t) => t.state.live && p t).foldl (fun s (n, _) => s.cancelTask n) s

/-- Makes a launch that a cancel covers failed and done. -/
def State.cancelLaunch (s : State) (i : Nat) : State :=
  if (s.launch i).done then s else (s.failEntry i Cause.cancelled.code).closeLaunch i

/-- Cancels every task of a PASID, makes its launches done and ends its halt (R303, R319, R330). -/
def State.cancelJob (s : State) (pasid : Nat) : State :=
  let s1 := s.cancelWhere (·.pasid == pasid)
  let s2 := (s1.launches.filter fun (_, l) => l.live && !l.done && !l.isGraph && l.pasid == pasid).foldl (fun s (i, _) => s.cancelLaunch i) s1
  s2.setPasid pasid { s2.pasid pasid with halted := false, halting := false, haltBy := 0 }

/-! ### Completion (R104, R105) -/

/-- A held 0x283 record of a task keeps it from completing (R329). -/
def State.heldNote (s : State) (t : Task) : Bool :=
  s.dies.any fun (_, u) => u.held.any fun (_, f) => f.pasid == t.pasid && f.task == t.va && f.cause == Cause.danglingStream.code

/-- Does a fork keep its task from completing? Not a spawn of a chain that holds a refusal: its own answer waits for that
refusal to be cleared (R107, log 48). -/
def Fork.keeps (f : Fork) (c : Ctx) : Bool := match f.kind with | .mem .. => true | .spawn .. => (c.chain f.ref.eng).refusal.isNone

/-- Records that a scheduler holds for the tasks it completes (R329). -/
def State.schedulerHeld (s : State) (tile : Nat) : Nat :=
  ((s.die (dieOf tile)).held.filter fun (c, f) => c == clusterOf tile && (f.cause == Cause.successorInvalid.code || f.cause == Cause.dependenceUnderflow.code)).length

/-- The conditions of R104. A scheduler that holds 64 records completes no task with successors (R329). A task that a HALT cause of its own has stopped does not complete (R105). -/
def State.mayComplete (s : State) (n tile slot : Nat) : Bool :=
  let x := s.slotAt tile slot
  (s.task n).state == .resident && x.live && x.ctx.allRetired && x.ctx.chains.all (fun h => h.inflight.isEmpty && h.stop != .halted) &&
  !(s.forks.any fun f => f.task == n && f.keeps x.ctx) && (x.ctx.ringList.all fun (_, g) => g.sub.isNone && g.pull.isNone) && !s.heldNote (s.task n) &&
  ((s.task n).succ == 0 || decide (s.schedulerHeld tile < 64))

/-- The steps of R105. -/
def State.finishTask (s : State) (n tile slot : Nat) : State :=
  let t := s.task n
  ((((s.releaseSlot tile slot).setTaskState n .complete).serveSuccessors t tile slot).launchDown t.launchId).endJob t.pasid

/-- The engine of a slot whose chain holds a SPAWN refusal. DESIGN CHOICE (log 41): where several chains hold one as the
task would complete, the first in the order LDE, MXE, VXE, STE is raised, one in each park; R107 gives no order. -/
def Ctx.refusedBy (c : Ctx) : Option (Engine × SpawnRefusal) :=
  Engine.all.findSome? fun e => (c.chain e).refusal.map fun v => (e, v)

/-- Raises a held refusal on its chain (R107). -/
def State.raiseRefusal (s : State) (r : EngRef) (v : SpawnRefusal) : State :=
  (s.updChain r fun h => { h with refusal := some { v with raised := true } }).takeFault r v.block
    { cause := .spawnRefused, remain := v.status, fva := v.recVa } .park

end Sys2Proof.Machine
end

