-- ==== Sys2Proof/Machine/Queues.lean ====
section
/-! DEFINITION. The front end (R343 to R351): launch lines, fetching packets, the walker, and the packets LAUNCH,
GRAPH, MODEL, SIGNAL and WAIT. -/

namespace Sys2Proof.Machine

/-! ### Fetching packets (R343, R348) -/

/-- VA of packet i of a queue. -/
def Queue.packetVa (x : Queue) (i : Nat) : Nat := x.ring + 64 * (i % 2 ^ x.log)

/-- SEQT of a packet. -/
def seqt (dws : List Nat) : Nat := dws.getD 7 0

/-- The valid copy of packet i that the front end holds. -/
def Queue.packet (x : Queue) (i : Nat) : Option (List Nat) := (x.fetched.find? fun (k, dws) => k == i && seqt dws == i + 1).map (·.2)

/-- Reads every published packet that is not held valid (R348). A slot that cannot be read stays not valid. -/
def State.rereadQueue (s : State) (q : Nat) : State :=
  let x := s.queue q
  let need := ((upto (x.tail - x.head)).map (x.head + ·)).filter fun i => (x.packet i).isNone
  let got := need.filterMap fun i => (s.readDws x.pasid (x.packetVa i) 8).map fun dws => (i, dws)
  s.setQueue q { x with fetched := x.fetched.filter (fun (k, _) => !need.contains k) ++ got }

/-- RING_SLOT_REREAD: slots that are not valid are read again. -/
def execRingSlotReread (qid : Nat) (s : State) : Host.Outcome State Fault Refusal :=
  if 4096 ≤ qid then .fault .noSuchUnit else .next (if (s.queue qid).live then s.rereadQueue qid else s)

/-! ### Launch lines (R346, R347) -/

/-- A whole launch line reaches the front end, which takes none while no firmware runs (R357). -/
def State.takeLine (s : State) (q : Nat) (dws : List Nat) : State :=
  let x := s.queue q
  let t := seqt dws
  if !s.mgmt.ready || !x.present || !x.live then s
  else
    let x1 :=
      if x.head + 2 ^ x.log < t then { x with rej := (x.rej + 1) % 2 ^ 32 }
      else if x.tail < t then
        { x with tail := t, fetched := if t - 1 = x.tail then x.fetched.filter (fun (k, _) => k != x.tail) ++ [(x.tail, dws)] else x.fetched }
      else x
    (s.setQueue q x1).rereadQueue q

/-- LAUNCH_LINE: a host's write of a whole line. -/
def execLaunchLine (qid : Nat) (dws : List Nat) (s : State) : Host.Outcome State Fault Refusal :=
  if 4096 ≤ qid then .fault .noSuchUnit else .next (s.takeLine qid dws)

/-- A line that does not come whole from one agent. -/
def State.rejectLine (s : State) (q : Nat) : State :=
  let x := s.queue q
  if !s.mgmt.ready then s else s.setQueue q { x with rej := (x.rej + 1) % 2 ^ 32 }

/-- PARTIAL_LAUNCH_LINE: discarded and counted. -/
def execPartialLaunchLine (qid : Nat) (s : State) : Host.Outcome State Fault Refusal :=
  if 4096 ≤ qid then .fault .noSuchUnit else .next (s.rejectLine qid)

/-- LAUNCH_PAGE_OTHER_WRITE: no effect. -/
def execLaunchPageOtherWrite (qid _off : Nat) (s : State) : Host.Outcome State Fault Refusal :=
  if 4096 ≤ qid then .fault .noSuchUnit else .next s

/-! ### Packets (R349) -/

def packetType (dws : List Nat) : Nat := bits (dws.getD 0 0) 0 8
def packetCmd (dws : List Nat) : Nat := bits (dws.getD 0 0) 24 8
def packetCobj (dws : List Nat) : Nat := bits (dws.getD 6 0) 0 57
def pw (dws : List Nat) (k : Nat) : Nat := dws.getD k 0

/-- The fields of a packet keep R349. DESIGN CHOICE (log 41): a SIGNAL whose OPX is none of R185's operations is malformed and
completes with 0x341; R349 names no status for it. -/
def packetOk (q : Nat) (dws : List Nat) : Bool :=
  let w0 := pw dws 0
  let ty := packetType dws
  [1, 2, 3, 4, 5, 8].contains ty && bits w0 10 6 == 0 && (ty == 3 || bits w0 32 32 == 0) && (ty == 3 || ty == 8 || bits w0 24 8 == 0) &&
  (if ty = 4 then decide (bits w0 16 8 ≤ 2) else bits w0 16 8 == 0) && bits (pw dws 6) 57 7 == 0 && packetCobj dws % 8 == 0 &&
  (ty == 8 || (upto 3).all fun k => pw dws (3 + k) == 0) && (ty != 8 || q == 0) && (q != 0 || ty == 8) &&
  (!(ty == 4 || ty == 5) || (pw dws 1 % 8 == 0 && packetCobj dws == 0))

/-- A packet starts: HEAD advances and HEADVA receives it (R343, R349). -/
def State.startPacket (s : State) (q : Nat) (dws : List Nat) (wait : Bool) : State :=
  let x := s.queue q
  let x1 := { x with head := x.head + 1, fetched := x.fetched.filter (fun (k, _) => x.head < k),
                     started := x.started ++ [{ index := x.head, dws := dws, wait := wait }] }
  ((s.setQueue q x1).writeObject x.pasid x.headva (x.head + 1)).1

/-- A packet fails: the failure value goes to COBJ. -/
def State.failPacket (s : State) (q idx cause : Nat) (dws : List Nat) : State :=
  let (s1, wrote) := if packetCobj dws % 8 = 0 then s.writeObject (s.queue q).pasid (packetCobj dws) (failureValue cause) else (s, true)
  s1.packetDone q idx (some cause) wrote

/-- A packet completes with a value for COBJ. -/
def State.endPacket (s : State) (q idx v : Nat) (dws : List Nat) : State :=
  let (s1, wrote) := s.writeObject (s.queue q).pasid (packetCobj dws) v
  s1.packetDone q idx none wrote

def malformed : Nat := Cause.malformedPacket.code

/-! ### What a packet needs to start (R349 to R351) -/

/-- The LAUNCH packets that a GRAPH lists, none where they cannot be read or break R349 or R350. -/
def State.graphList (s : State) (pasid va : Nat) : Option (List (List Nat)) :=
  match s.readVa pasid va 8 with
  | none => none
  | some h =>
    let n := bits h 0 16
    if n = 0 ∨ 4096 < n then none
    else
      let l := (upto n).filterMap fun k => s.readDws pasid (va + 64 * (k + 1)) 8
      if l.length = n ∧ l.all fun d => packetOk 1 d && packetType d == 1 && (s.recordList pasid (pw d 1)).isSome then some l else none

/-- Free entries of the launch table. -/
def State.launchesFree (s : State) : Nat := launchSlots - s.launchesLive

/-- May the packet start as far as the launch table and its model slot go? A packet that will fail may. -/
def State.roomFor (s : State) (q : Nat) (dws : List Nat) : Bool :=
  let pasid := (s.queue q).pasid
  if !packetOk q dws then true
  else
    match packetType dws with
    | 1 => match s.recordList pasid (pw dws 1) with | some (_ :: _) => decide (1 ≤ s.launchesFree) | _ => true
    | 2 => match s.graphList pasid (pw dws 1) with | some l => decide (l.length + 1 ≤ s.launchesFree) | none => true
    | 3 =>
      let m := s.model (packetCmd dws)
      let busy := match m.inst with | some id => (s.liveLaunch id).isSome | none => false
      (!(m.loaded && m.version == bits (pw dws 0) 32 32) || !busy) && decide (1 ≤ s.launchesFree)
    | _ => true

/-- Records that the front end holds (R329): of queues that ended and of objects that could not be written. -/
def State.frontHeld (s : State) : Nat :=
  (s.dies.map fun (_, u) => u.held.countP fun (_, f) => f.cause == Cause.queueTerminated.code || f.cause == Cause.completionFailed.code).sum

/-- The packet that the queue could start now. With 64 held records the front end starts none (R329). -/
def State.startable (s : State) (q : Nat) : Option (List Nat) :=
  let x := s.queue q
  if !s.mgmt.ready || decide (64 ≤ s.frontHeld) || !x.present || !x.live || x.splice || decide (x.tail ≤ x.head) then none
  else
    match x.packet x.head with
    | none => none
    | some dws =>
      if (x.started.any (·.wait)) || (bitAt (pw dws 0) 8 && !x.started.isEmpty) || !s.roomFor q dws then none else some dws

/-! ### The walker (R344) -/

/-- A list from an index of it on. -/
def turned (l : List Nat) (k : Nat) : List Nat := l.drop k ++ l.take k

/-- A run list from a queue on, given by its number plus 1; from a queue that has left the list the walker follows the NEXTQ
it has read (R344). n: how many such it follows at most. -/
def State.listFrom (s : State) (l : List Nat) : Nat → Nat → List Nat
  | 0, _ => l
  | n + 1, next =>
    if next = 0 then l
    else match l.findIdx? (· + 1 == next) with | some k => turned l k | none => s.listFrom l n (s.queue (next - 1)).nextq

/-- A run list from the queue after the one last visited. -/
def State.afterVisit (s : State) (l : List Nat) (last : Nat) : List Nat :=
  match l.findIdx? (· + 1 == last) with
  | some k => turned l (k + 1)
  | none => if last = 0 then l else s.listFrom l s.queues.length (s.queue (last - 1)).nextq

/-- The queue whose packet the walker starts next: of the highest priority that has one, round-robin. -/
def State.nextQueue (s : State) : Option Nat :=
  (upto 8).findSome? fun p => (s.afterVisit (Map.get [] s.runLists p) (Map.get 0 s.walkers p)).find? fun q => (s.startable q).isSome

/-- Starts the walker's next packet when it is queue q's and of a type; the state, the index and the packet. -/
def State.walkTo (s : State) (q : Nat) (ty : List Nat → Bool) : Option (State × Nat × List Nat) :=
  if s.nextQueue ≠ some q then none
  else
    match s.startable q with
    | none => none
    | some dws =>
      if !ty dws then none
      else
        let x := s.queue q
        let s1 : State := { s with walkers := Map.set 0 s.walkers x.prio (q + 1) }
        some (s1.startPacket q dws (packetOk q dws && packetType dws == 5), x.head, dws)

/-- The step of one packet: malformed packets complete at once with 0x341 (R349). -/
def packetStep (q : Nat) (s : State) (ty : List Nat → Bool) (run : State → Nat → List Nat → State) : Host.Outcome State Fault Refusal :=
  if 4096 ≤ q then .fault .noSuchUnit
  else
    match s.walkTo q ty with
    | none => .next s
    | some (s1, i, dws) => .next (if packetOk q dws then run s1 i dws else s1.failPacket q i malformed dws)

/-! ### LAUNCH and GRAPH (R350) -/

/-- Posts one record for a launch. -/
def State.postFor (s : State) (pasid id va : Nat) : State :=
  let fail (s : State) := s.launchFail id Cause.spawnRefused.code
  if (s.liveTask pasid va).isSome then fail s
  else
    match s.readVa pasid (va + 0x40) 8 with
    | none => fail s
    | some w =>
      match s.writeVa pasid (va + 0x40) 8 (w / 2 ^ 32 * 2 ^ 32 + id) with
      | none => fail s
      | some s1 => let (s2, st) := s1.post none pasid va false false; if st = 0 then s2 else fail s2

/-- Creates a launch of records and posts them; the id of the launch. k tells the launches of one step apart. -/
def State.launchRecords (s : State) (k pasid cobj val graph : Nat) (queue : Option Nat) (idx : Nat) (l : List Nat) : State × Nat :=
  match s.newLaunch k { pasid := pasid, count := l.length, cobj := cobj, val := val, graph := graph, queue := queue, index := idx } with
  | none => (s, 0)
  | some (s1, id) => (l.foldl (fun s va => s.postFor pasid id va) s1, id)

def runLaunch (q : Nat) (s : State) (i : Nat) (dws : List Nat) : State :=
  let pasid := (s.queue q).pasid
  match s.recordList pasid (pw dws 1) with
  | none => s.failPacket q i malformed dws
  | some [] => s.endPacket q i (pw dws 2) dws
  | some l => (s.launchRecords 0 pasid (packetCobj dws) (pw dws 2) 0 (some q) i l).1

/-- LAUNCH_PACKET: a launch, or a packet of no type. -/
def execLaunchPacket (qid : Nat) (s : State) : Host.Outcome State Fault Refusal :=
  packetStep qid s (fun d => !([2, 3, 4, 5, 8].contains (packetType d)) || (packetType d == 8 && qid != 0)) (runLaunch qid)

/-- One LAUNCH of a GRAPH. -/
def graphLaunch (pasid gid : Nat) (s : State) (k : Nat) (dws : List Nat) : State :=
  match s.recordList pasid (pw dws 1) with
  | none => s
  | some [] =>
    let s1 := (s.writeObject pasid (packetCobj dws) (pw dws 2)).1
    match s1.entryOf gid true with | some g => s1.graphDown g 1 | none => s1
  | some l => (s.launchRecords k pasid (packetCobj dws) (pw dws 2) gid none 0 l).1

def runGraph (q : Nat) (s : State) (i : Nat) (dws : List Nat) : State :=
  let pasid := (s.queue q).pasid
  match s.graphList pasid (pw dws 1) with
  | none => s.failPacket q i malformed dws
  | some l =>
    match s.newLaunch 0 { isGraph := true, pasid := pasid, count := l.length, cobj := packetCobj dws, val := pw dws 2, queue := some q, index := i } with
    | none => s
    | some (s1, gid) => ((upto l.length).zip l).foldl (fun s (k, d) => graphLaunch pasid gid s (k + 1) d) s1

/-- GRAPH_PACKET. -/
def execGraphPacket (qid : Nat) (s : State) : Host.Outcome State Fault Refusal :=
  packetStep qid s (fun d => packetType d == 2) (runGraph qid)

/-! ### MODEL (R351) -/

/-- Writes the relocation values into a task's table; a record without a table takes none. -/
def State.relocate (s : State) (pasid : Nat) (args : List Nat) (va : Nat) : Option State :=
  match s.readVa pasid (va + 0x58) 8 with
  | none => none
  | some 0 => some s
  | some t => ((upto 8).zip args).foldl (fun o (k, v) => o.bind fun s => s.writeVa pasid (t + 8 * k) 8 v) (some s)

def runModel (q : Nat) (s : State) (i : Nat) (dws : List Nat) : State :=
  let pasid := (s.queue q).pasid
  let slot := packetCmd dws
  let m := s.model slot
  if !m.loaded || m.version != bits (pw dws 0) 32 32 then s.failPacket q i Cause.residencyCheck.code dws
  else
    match s.readDws pasid (pw dws 1) 8 with
    | none => s.failPacket q i malformed dws
    | some args =>
      match m.tasks.foldl (fun o va => o.bind fun s => s.relocate pasid args va) (some s) with
      | none => s.failPacket q i malformed dws
      | some s1 =>
        if m.tasks.isEmpty then s1.endPacket q i (pw dws 2) dws
        else
          let (s2, id) := s1.launchRecords 0 pasid (packetCobj dws) (pw dws 2) 0 (some q) i m.tasks
          s2.setModel slot { m with inst := some id }

/-- MODEL_PACKET. -/
def execModelPacket (qid : Nat) (s : State) : Host.Outcome State Fault Refusal :=
  packetStep qid s (fun d => packetType d == 3) (runModel qid)

/-! ### SIGNAL and WAIT (R350, R185) -/

/-- The POST of a SIGNAL. An object that cannot be read is 0x341 (R349); one that can be read and not written leaves the record
and the status of R302. -/
def runSignal (q : Nat) (s : State) (i : Nat) (dws : List Nat) : State :=
  let pasid := (s.queue q).pasid
  match s.readVa pasid (pw dws 1) 8 with
  | none => s.failPacket q i malformed dws
  | some old =>
    let (s1, wrote) := s.putObject pasid (pw dws 1) ((postOp (bits (pw dws 0) 16 8)).apply old (pw dws 2) 0)
    s1.packetDone q i none wrote

/-- SIGNAL_PACKET: a POST at system scope. -/
def execSignalPacket (qid : Nat) (s : State) : Host.Outcome State Fault Refusal :=
  packetStep qid s (fun d => packetType d == 4) (runSignal qid)

def runWait (q : Nat) (s : State) (i : Nat) (dws : List Nat) : State :=
  match s.readVa (s.queue q).pasid (pw dws 1) 8 with
  | none => s.failPacket q i malformed dws
  | some _ => s

/-- WAIT_PACKET: starts a watch. -/
def execWaitPacket (qid : Nat) (s : State) : Host.Outcome State Fault Refusal :=
  packetStep qid s (fun d => packetType d == 5) (runWait qid)

/-- WAIT_PACKET_COMPLETE: the watched object has reached the threshold. -/
def execWaitPacketComplete (qid : Nat) (s : State) : Host.Outcome State Fault Refusal :=
  if 4096 ≤ qid then .fault .noSuchUnit
  else
    match (s.queue qid).started.find? (·.wait) with
    | none => .next s
    | some p =>
      match s.readVa (s.queue qid).pasid (pw p.dws 1) 8 with
      | none => .next s
      | some v => .next (if pw p.dws 2 ≤ v then s.packetDone qid p.index none true else s)

end Sys2Proof.Machine
end

