-- ==== Sys2Proof/Machine/Sequencer.lean ====
section
/-! DEFINITION. The chain sequencer: fetching blocks (R17, R18, R87, R94), the head of the block queue, issue
arbitration (R307), encoding faults (R20); the supervisor's fetch (R50). -/

namespace Sys2Proof.Machine

/-! ### Fetch -/

/-- Where fetch goes after a queued block, none where it stops: FBAR, END, a block that will fault or transfer
for certain (R18, R87). -/
def Queued.following (e : Engine) (q : Queued) : Option Nat :=
  if q.fault.isSome then none
  else
    match decode e q.addr q.words with
    | .error _ => none
    | .ok i =>
      if (ctlOf i).fbar = 1 then none
      else
        match i with
        | .endChain _ => none
        | .link _ _ => none
        | _ => some (nextAddr q.addr i)

/-- The address to fetch next, none while fetch is stopped or the queue is full. An issued FBAR block holds
fetch no longer. -/
def Chain.fetchAt (h : Chain) (e : Engine) : Option Nat :=
  if h.retired || !h.present || decide (prefetchDepth ≤ h.queue.length) then none
  else match h.queue.getLast? with | some q => q.following e | none => some h.cursor

/-- The n sectors of a block from an address, as doublewords (R94). -/
def State.fetchSectors (s : State) (r : EngRef) (addr : Nat) : Nat → Except FetchFault (List Nat)
  | 0 => .ok []
  | n + 1 =>
    match s.translate r.tile (s.task (s.taskOf r)).pasid addr .fetch with
    | .error c => .error { cause := c, va := addr, acc := AccessKind.fetch.walkAcc c }
    | .ok p =>
      if p.place = .launchPage then .error { cause := .permission, va := addr }
      else if s.poisoned p.place p.addr then .error { cause := .poison, va := addr }
      else
        match s.fetchSectors r (addr + 32) n with
        | .error e => .error e
        | .ok ws => .ok ((upto 4).map (fun k => s.readBits p.place (p.addr * 8 + 64 * k) 64) ++ ws)

/-- Fetches the block at an address: one sector, and three more when SZ is 1 (R17). -/
def State.fetchBlock (s : State) (r : EngRef) (addr : Nat) : Queued :=
  match s.fetchSectors r addr 1 with
  | .error f => { addr := addr, words := [], fault := some f }
  | .ok ws =>
    if szOf (dwAt ws 0) = 0 then { addr := addr, words := ws }
    else
      match s.fetchSectors r (addr + 32) 3 with
      | .error f => { addr := addr, words := ws, fault := some f }
      | .ok vs => { addr := addr, words := ws ++ vs }

/-- BLOCK_FETCH: appends the next block to the queue. -/
def execBlockFetch (r : EngRef) (s : State) : Host.Outcome State Fault Refusal :=
  if !r.ok then .fault .noSuchUnit
  else if !(s.slotAt r.tile r.slot).live then .next s
  else
    match (s.chain r).fetchAt r.eng with
    | none => .next s
    | some a => .next (s.updChain r fun h => { h with queue := h.queue ++ [s.fetchBlock r a] })

/-! ### The head of the queue -/

/-- The queued block at the cursor. -/
def Chain.head (h : Chain) : Option Queued :=
  match h.queue with
  | q :: _ => if q.addr = h.cursor then some q else none
  | [] => none

/-- The instruction of a chain's head block, or the fault it holds. -/
def headInstr (e : Engine) (q : Queued) : Except BlockFault Instr :=
  match q.fault with
  | some f => .error { cause := f.cause, fva := f.va, acc := f.acc }
  | none => match decode e q.addr q.words with | .error c => .error { cause := c } | .ok i => .ok i

/-- ENCODING_FAULT: the head block breaks an encoding rule, or its fetch met a fault (R20, R21). A HALT waits until every
earlier block of the chain has completed. -/
def execEncodingFault (r : EngRef) (s : State) : Host.Outcome State Fault Refusal :=
  if !r.ok then .fault .noSuchUnit
  else
    match (s.chain r).head with
    | none => .next s
    | some q =>
      match headInstr r.eng q with
      | .ok _ => .next s
      | .error f =>
        if s.runnable r && (s.chain r).refusal.isNone && (f.cause.disp == .park || (s.chain r).inflight.isEmpty) then .next (s.issueStop r f)
        else .next s

/-! ### Arbitration (R307) -/

/-- Could the slot's head block issue in this cycle, but for arbitration? -/
def State.headReady (s : State) (r : EngRef) : Bool :=
  match (s.chain r).head with
  | none => false
  | some q => match headInstr r.eng q with | .error _ => false | .ok i => decide (s.gate r i = .go)

/-- The slots of a tile whose head blocks could issue on an engine, in search order after the pointer. -/
def State.readySlots (s : State) (tile : Nat) (e : Engine) : List Nat :=
  let p := (s.tile tile).ptr.getD e.num 3
  ((upto 4).map fun k => (p + 1 + k) % 4).filter fun k => s.headReady (engRef tile k e)

/-- The least by a key, the first of equals. -/
def leastBy (key : Nat → Nat) : List Nat → Option Nat
  | [] => none
  | a :: l => match leastBy key l with | none => some a | some b => if key b < key a then some b else some a

/-- The slot that an engine grants: the slot aged longest, else the smallest DEADLINE. -/
def State.granted (s : State) (tile : Nat) (e : Engine) : Option Nat :=
  let l := s.readySlots tile e
  let aged := l.filter fun k => (((s.slotAt tile k).lane e).aged).isSome
  let key (k : Nat) := (((s.slotAt tile k).lane e).aged).getD 0
  let dl (k : Nat) := (s.task (((s.slotAt tile k).task).getD 0)).deadline
  match leastBy key aged with | some k => some k | none => leastBy dl l

/-- A cycle in which the slot could issue and another is granted: it is aged from the cycle in which its counter reaches
65,536. -/
def Lane.waited (l : Lane) (cycle : Nat) : Lane :=
  { l with wait := l.wait + 1, aged := l.aged <|> (if ageLimit ≤ l.wait + 1 then some cycle else none) }

/-- Records a grant: the pointer, the cycle, the wait counters. -/
def State.grant (s : State) (r : EngRef) : State :=
  let t := s.tile r.tile
  let s1 := s.setTile r.tile { t with ptr := setNth t.ptr r.eng.num r.slot, last := setNth t.last r.eng.num (s.cycle + 1) }
  (s.readySlots r.tile r.eng).foldl (fun (s1 : State) k =>
    s1.updSlot r.tile k fun x =>
      let l := x.lane r.eng
      x.setLane r.eng (if k = r.slot then { l with wait := 0, aged := none } else l.waited s.cycle)) s1

/-- An engine grants issue once in a cycle (R88). -/
def State.mayGrant (s : State) (r : EngRef) : Bool :=
  decide ((s.tile r.tile).last.getD r.eng.num 0 ≤ s.cycle) && s.granted r.tile r.eng == some r.slot

/-- SLOT_AGED: a slot that has waited 65,536 cycles becomes aged. -/
def execSlotAged (r : EngRef) (s : State) : Host.Outcome State Fault Refusal :=
  if !r.ok then .fault .noSuchUnit
  else
    let l := (s.slotAt r.tile r.slot).lane r.eng
    if ageLimit ≤ l.wait ∧ l.aged.isNone then
      .next (s.updSlot r.tile r.slot fun x => x.setLane r.eng { l with aged := some s.cycle })
    else .next s

/-! ### What a sequencer does next -/

/-- Does a block that adds as it issues come too late likewise: one that completes at once, or a SEMS? -/
def State.addsLate (s : State) (r : EngRef) (i : Instr) : Bool :=
  (isImmediate i && s.signalsLate r i) ||
  match i with
  | .sems _ rmt slot tile sem _ => if rmt = 1 then s.testsDone tile slot [sem] else s.testsDone r.tile r.slot [sem]
  | _ => false

/-- Is some ring of a list ended? -/
def Ctx.anyEnded (c : Ctx) (l : List Nat) : Bool := l.any fun n => match c.ring n with | some g => c.ringEnded g | none => false

/-- The first block of a chain that waits inside for a slot of each of its rings, where it could take them, with the rings. -/
def State.slotTaker (s : State) (r : EngRef) : Option (Nat × List Nat) :=
  let c := s.ctx r
  match (c.chain r.eng).inflight.findIdx? (·.phase == .ring) with
  | none => none
  | some k =>
    let rings := (((c.chain r.eng).inflight[k]?).map fun f => rqRings f.instr).getD []
    let full := rings.all fun n => match c.ring n with | some g => decide (1 ≤ c.sem g.fsem) | none => false
    if !s.runnable r || !full || c.anyEnded rings then none else some (k, rings)

/-- One count of the full semaphore of each ring of a list. -/
def Ctx.fullCounts (c : Ctx) (l : List Nat) : List (Nat × Nat) := l.filterMap fun n => (c.ring n).map fun g => (g.fsem, 1)

/-- What an engine tests and takes of its slot's semaphores in this cycle: for a block that waits inside for ring slots, and
for the block at the head. -/
def State.asks (s : State) (q : EngRef) : List (List (Nat × Nat) × List (Nat × Nat)) :=
  let c := s.ctx q
  (match s.slotTaker q with | some (_, l) => [(c.fullCounts l, c.fullCounts l)] | none => []) ++
  (match (s.chain q).head.bind fun x => (headInstr q.eng x).toOption with
   | some j => if s.mayGrant q && !s.addsLate q j then [(c.testsOf j, c.takes j)] else []
   | none => [])

/-- Do the counts satisfy some tests once others have been taken? -/
def Ctx.satisfies (c : Ctx) (before tests takes : List (Nat × Nat)) : Bool :=
  tests.all fun (n, k) => decide (totalOf before n + max k (totalOf takes n) ≤ c.sem n)

/-- The counts that the engines before another in the order LDE, MXE, VXE, STE take in this cycle: each is tested against what
those before it leave (R167). -/
def State.takenBefore (s : State) (r : EngRef) : List (Nat × Nat) :=
  (Engine.all.filter fun e => decide (e.num < r.eng.num)).foldl (fun l e =>
    (s.asks (engRef r.tile r.slot e)).foldl (fun l (tests, takes) => if (s.ctx r).satisfies l tests takes then l ++ takes else l) l) []

/-- Does the head block wait for engines before its own, which leave too few counts of a semaphore that it tests? -/
def State.yieldsTo (s : State) (r : EngRef) (i : Instr) : Bool :=
  !(s.ctx r).satisfies (s.takenBefore r) ((s.ctx r).testsOf i) ((s.ctx r).takes i)

/-- The issued blocks of a chain that may run on. -/
def State.runsOn (s : State) (r : EngRef) : List InFlight :=
  let h := s.chain r
  (upto h.inflight.length).filterMap fun k =>
    (h.inflight[k]?).filter fun f => f.phase == .run && !h.waitsBehind k && (s.runnable r || s.nearsPoint r f)

/-- The step that the head of the queue asks for: to fetch, to raise what the head block or the chain holds, to skip, to stop,
or to issue when the engine grants it. A guard fault is due as soon as the block that takes it is the head (DESIGN CHOICE,
log 41: R170 does not say whether the block's other conditions of issue must hold). -/
def State.headTurn (s : State) (r : EngRef) : Option (Instr × State) :=
  let h := s.chain r
  match h.head with
  | none => some (.blockFetch r, s)
  | some q =>
    match headInstr r.eng q with
    | .error _ => some (.encodingFault r, s)
    | .ok i =>
      if h.refusal.isSome then some (.spawnRefusalRaise r, s)
      else if h.guardDue i then some (.guardFaultRaise r, s)
      else if (s.ctx r).skips i then some (.ringEndSkip r, s)
      else if s.gate r i = .brk then some (i, s)
      else if s.mayGrant r && !s.yieldsTo r i && !s.addsLate r i then some (i, s.grant r)
      else none

/-- The home of the word that the head block watches reports a value that has reached the threshold: the first such, or a
later one (R142, R185). -/
def State.watchHead (s : State) (r : EngRef) : State :=
  match (s.chain r).head.bind fun q => (headInstr r.eng q).toOption with
  | none => s
  | some i =>
    match s.watchOf r i with
    | none => s
    | some (va, n, thr) =>
      match readWord s r va n with
      | .error _ => s
      | .ok (v, hot) =>
        if !s.runnable r || s.issueShort r i || decide (v < thr) || (((s.chain r).reported i).isSome && s.freeBit (2 ^ 29 + 5)) then s
        else (s.sampleAll hot).updChain r fun h => { h with report := some (i, v) }

/-- The step a sequencer takes in its turn, with the state in which it takes it: it runs an issued block on, the first that
the turn does not pass over, or serves the head of its queue. -/
def State.sequence (s : State) (r : EngRef) : Option (Instr × State) :=
  match (s.runsOn r)[s.env.pass]? with
  | some f => some (f.instr, s)
  | none => s.headTurn r

/-! ### The supervisor's fetch -/

/-- The word at a supervisor's pc. -/
def State.supWord (s : State) (cluster : Nat) : Nat := Memory.nat s.supmem (s.hartAt cluster).pc 4

/-- The instruction a supervisor runs, none where the word is RV64GC's own. -/
def State.supInstr (s : State) (cluster : Nat) : Option Instr :=
  let w := s.supWord cluster
  if w % 128 ≠ 0x0B then none else some (decodeX w)

/-- An X-form instruction ends: rd := v, and the pc moves on. -/
def State.retireX (s : State) (rd v : Nat) : State :=
  let h := s.hartAt s.hart
  s.setHart s.hart { h.setReg rd v with pc := (h.pc + 4) % 2 ^ 64 }

/-- A source register of the executing supervisor. -/
def State.xreg (s : State) (n : Nat) : Nat := (s.hartAt s.hart).reg n

/-- The executing supervisor takes the illegal-instruction exception (R50). -/
def State.trapX (s : State) (w : Nat) : State := s.setHart s.hart ((s.hartAt s.hart).trapIllegal w)

/-- ILLEGAL_INSTRUCTION (R50). -/
def execIllegalInstruction (w : Nat) (s : State) : Host.Outcome State Fault Refusal :=
  .next (s.trapX w)

end Sys2Proof.Machine
end

