-- ==== Sys2Proof/Machine/Completion.lean ====
section
/-! DEFINITION. The steps of issued blocks and of their forks: completion (R89), joining (R148, R155, R164), spawned
records (R107), held faults (R170), ring slots (R172, R173). -/

namespace Sys2Proof.Machine

/-! ### BLOCK_COMPLETE (R89, R163, R184, R285) -/

/-- Does a block that is done wait: for an earlier accumulating block on a common cell (R241), or with its home work? -/
def State.completionWaits (s : State) (r : EngRef) (idx : Nat) (f : InFlight) : Bool :=
  (s.chain r).waitsBehind idx || f.homes.any (s.homeWaits r f)

/-- The bits of the tile pool to which an access returns old values, with their number. -/
def Access.returned (a : Access) : List (Nat × Nat) :=
  a.ops.filterMap fun o => match o.kind with | .rmw _ _ _ (some b) => some (b, o.w) | _ => none

/-- Are two accesses of one block performed in block order: they have their unit in common (R147, R156), or return old values
to common bits? -/
def Access.orders (a b : Access) : Bool :=
  (a.place == b.place && a.unit == b.unit) ||
  a.returned.any fun (x, w) => b.returned.any fun (y, v) => decide (x < y + v) && decide (y < x + w)

/-- Divides accesses into those performed now and those left: of the accesses that may go, the lines of launch pages and those
that pick takes by their number, but none before an earlier one that orders it. kept holds those left. -/
def splitBy (go line : Access → Bool) (pick : Nat → Bool) : Nat → List Access → List Access → List Access × List Access
  | _, _, [] => ([], [])
  | j, kept, a :: l =>
    if go a && (line a || (pick j && !kept.any a.orders)) then
      let (now, later) := splitBy go line pick (j + 1) kept l
      (a :: now, later)
    else
      let (now, later) := splitBy go line pick (j + 1) (a :: kept) l
      (now, a :: later)

/-- Which accesses are performed in this step, and those that are left. Which those are is open (R89, R148, R189, log 2): any
that may go, at least one where one may. -/
def splitNow (s : State) (go line : Access → Bool) (l : List Access) : List Access × List Access :=
  let (now, later) := splitBy go line (fun j => s.freeBit (2 ^ 30 + j)) 0 [] l
  if now.isEmpty then (let first := (l.findIdx? go).getD 0; splitBy go line (· == first) 0 [] l) else (now, later)

/-- Some of a block's home work is done and the rest is left to a later turn: other agents see each part on its own
(R89, R91, R189). -/
def State.homePart (s : State) (r : EngRef) (idx : Nat) (f : InFlight) : State :=
  let (now, later) := splitNow s (fun a => !s.homeWaits r f a) (fun _ => false) f.homes
  let (s1, rets, bad) := s.performAll now
  match bad with
  | some e => (s1.setEntry r idx { f with homes := [], phase := .parked }).takeFault r f.addr e e.cause.disp false
  | none => s1.setEntry r idx { f with homes := later, writes := f.writes ++ rets }

/-- BLOCK_COMPLETE: the block at an index of the chain's issued blocks completes, if it is done, or does part of what its
completion needs; one that is still running may do part of its home work. -/
def execBlockComplete (r : EngRef) (idx : Nat) (s : State) : Host.Outcome State Fault Refusal :=
  if !r.ok then .fault .noSuchUnit
  else
    match (s.chain r).inflight[idx]? with
    | none => .next s
    | some f =>
      if (s.chain r).stop = .halted then .next s
      else
        match f.phase with
        | .done =>
          if s.env.idle && !f.homes.isEmpty then .next (s.homePart r idx f)
          else if s.completionWaits r idx f || s.signalsLate r f.instr then .next s
          else .next (s.completeBlock r idx)
        | .waiting =>
          if !s.waitOver r f.instr || (waitCompletes f.instr && s.signalsLate r f.instr) then .next s
          else if waitCompletes f.instr then .next (s.completeBlock r idx)
          else .next (s.updEntry r idx fun f => { f with phase := .run })
        | .run => .next (if s.env.idle then s.homePart r idx f else s)
        | _ => .next s

/-! ### FORK_JOIN (R111, R148, R155, R164, R346) -/

/-- Does an earlier block of the same chain still hold an access to this one's unit: in its fork, or as home work that it has
not completed (R155)? -/
def State.behind (s : State) (idx : Nat) (a : Access) : Bool :=
  match s.forks[idx]? with
  | none => false
  | some f =>
    ((s.forks.take idx).any fun g => g.task == f.task && g.ref.eng == f.ref.eng &&
      match g.kind with | .mem fl he => (unitsOf (fl ++ he)).contains (a.place, a.unit) | .spawn .. => false) ||
    ((s.ctxOf f.task).map fun c => c.chain f.ref.eng).any fun h =>
      h.stop != .halted && h.inflight.any fun g => decide (g.serial < f.serial) && (unitsOf g.homes).contains (a.place, a.unit)

/-- The pages and offsets of launch lines that accesses write, with the iterations. -/
def linesOf (l : List Access) : List (Nat × Nat) := (l.map fun a => (a.unit * 32 / 4096, a.ctr)).eraseDups

/-- The bits of a line with those that one element writes, and the mask of the bits written. -/
def putLine (x : Nat × Nat) (o : HomeOp) : Nat × Nat :=
  match o.kind with
  | .write v => (putField x.1 (o.bit % 32768) o.w v, orN x.2 ((2 ^ o.w - 1) * 2 ^ (o.bit % 32768)))
  | .rmw .. => x

/-- The eight doublewords that an iteration's accesses bring to a page's line, none if not all of it. Elements narrower than a
byte fill it as others do. -/
def lineWords (l : List Access) : Option (List Nat) :=
  let (v, m) := ((l.filter fun a => a.unit % 128 < 2).flatMap (·.ops)).foldl putLine (0, 0)
  if m = 2 ^ 512 - 1 then some ((upto 8).map fun k => bits v (64 * k) 64) else none

/-- Writes to launch pages reach the front end, an iteration and page at a time; only an STG iteration brings a line
(R346). -/
def State.deliverLines (s : State) (l : List Access) : State :=
  (linesOf l).foldl (fun s (q, ctr) =>
    let mine := l.filter fun a => a.unit * 32 / 4096 == q && a.ctr == ctr
    match if mine.all (·.line) then lineWords mine else none with
    | some dws => s.takeLine q dws
    | none => if mine.any fun a => a.unit % 128 < 2 then s.rejectLine q else s) s

/-- A fault of a forked access, which its block need not be there to take (R111, R164). -/
def State.forkFault (s : State) (f : Fork) (e : BlockFault) : State :=
  if s.taskOf f.ref = f.task then s.takeFault f.ref f.block { e with remain := 0 } .halt false
  else
    let t := s.task f.task
    (s.emitRecord (dieOf f.ref.tile) (clusterOf f.ref.tile)
      { pasid := f.pasid, acc := e.acc, tile := f.ref.tile, slot := f.ref.slot, eng := f.ref.eng.num, prec := false, disp := .halt,
        cause := e.cause.code, task := t.va, block := f.block, ctr := e.ctr, fva := e.fva }).raiseHalt f.pasid e.cause.code t.va

/-- Performs one forked access: at its home, or at its pool if its PASID still owns the granule (R111). A write of a pull
stream to a sector poisoned since its slot was drained counts as made before (log 47). -/
def State.performForked (s : State) (f : Fork) (a : Access) : State :=
  let pool := a.place == .clusterPool || a.place == .diePool
  if a.place = .peer then s
  else if pool && s.granuleOwner a.place (a.unit * 8) != f.pasid then
    s.forkFault f { cause := if a.rm then .remoteWindow else .permission, acc := a.acc, ctr := a.ctr, fva := a.va }
  else
    match s.performAccess a with
    | (s1, _, none) => s1
    | (s1, _, some e) => if f.pull.isSome then s1 else s1.forkFault f e

/-- Accesses of a tile are free again. -/
def State.freeAccesses (s : State) (tile n : Nat) : State :=
  let t := s.tile tile
  s.setTile tile { t with accesses := t.accesses - n }

/-- FORK_JOIN: accesses of a fork are performed; with the last the fork joins. -/
def execForkJoin (idx : Nat) (s : State) : Host.Outcome State Fault Refusal :=
  match s.forks[idx]? with
  | none => .next s
  | some f =>
    match f.kind with
    | .spawn .. => .next s
    | .mem fl he =>
      let line (a : Access) : Bool := a.place == .launchPage
      let go (a : Access) : Bool := !s.behind idx a && !(line a && he.any line)
      let (now, later) := splitNow s go line fl
      let f1 : Fork := { f with kind := .mem later he }
      let rest := if later.isEmpty && he.isEmpty then s.forks.eraseIdx idx else setNth s.forks idx f1
      let s1 := ({ s with forks := rest } : State).freeAccesses f.ref.tile now.length
      let s2 := (now.filter fun a => !line a).foldl (fun s a => s.performForked f a) s1
      .next (s2.deliverLines (now.filter line))

/-! ### SPAWN (R107) -/

/-- Is a task stepped (R337)? -/
def State.isStepped (s : State) (n : Nat) : Bool :=
  match s.slotOf n with
  | some (tile, slot) => (s.slotAt tile slot).ctx.step
  | none => match (s.task n).saved with | some c => c.step | none => (s.task n).stepped

/-- Changes the slot's contents of a task where they are: in its slot, or as saved. -/
def State.updTaskCtx (s : State) (n : Nat) (f : Ctx → Ctx) : State :=
  match s.slotOf n with
  | some (tile, slot) => s.updSlot tile slot fun x => { x with ctx := f x.ctx }
  | none => s.updTask n fun t => { t with saved := t.saved.map f }

/-- SPAWN_ACCEPT: the scheduler accepts or refuses a spawned record. While a refusal is held, a chain's next is not
answered with another. -/
def execSpawnAccept (idx : Nat) (s : State) : Host.Outcome State Fault Refusal :=
  match s.forks[idx]? with
  | none => .next s
  | some f =>
    match f.kind with
    | .mem .. => .next s
    | .spawn va inherit =>
      let t := s.task f.task
      let held := match s.ctxOf f.task with | some c => (c.chain f.ref.eng).refusal.isSome | none => false
      let (s1, st) := ({ s with forks := s.forks.eraseIdx idx } : State).post (some (clusterOf f.ref.tile)) f.pasid va t.priv (inherit && s.isStepped f.task)
      if st = 0 then
        match s1.liveTask f.pasid va with
        | some n => .next (s1.launchUp (s1.task n).launchId)
        | none => .next s1
      else if held then .next s
      else .next (s1.updTaskCtx f.task fun c =>
        c.setChain f.ref.eng { c.chain f.ref.eng with refusal := some { status := st, block := f.block, recVa := va } })

/-- SPAWN_REFUSAL_RAISE: a held refusal is raised at the first block to reach issue, which it does as the head of the queue,
whatever else its issue waits for (DESIGN CHOICE, log 41), or as the task would complete. -/
def execSpawnRefusalRaise (r : EngRef) (s : State) : Host.Outcome State Fault Refusal :=
  if !r.ok then .fault .noSuchUnit
  else
    match (s.chain r).refusal with
    | none => .next s
    | some v => .next (if s.runnable r && (s.chain r).head.isSome then s.raiseRefusal r v else s)

/-- TASK_COMPLETE (R105): a task whose chains have retired and whose forks have joined completes, or parks on a held
refusal. -/
def execTaskComplete (n : Nat) (s : State) : Host.Outcome State Fault Refusal :=
  match s.slotOf n with
  | none => .next s
  | some (tile, slot) =>
    if !s.mayComplete n tile slot then .next s
    else
      match (s.slotAt tile slot).ctx.refusedBy with
      | some (e, v) => .next (s.raiseRefusal (engRef tile slot e) v)
      | none => .next (s.finishTask n tile slot)

/-! ### GUARD_FAULT_RAISE (R170) -/

/-- The instruction at the head of a chain's queue. -/
def State.headOf (s : State) (r : EngRef) : Option Instr :=
  match (s.chain r).head with
  | none => none
  | some q => (headInstr r.eng q).toOption

/-- GUARD_FAULT_RAISE: a recorded guard fault is raised in place of the block at the head, which is due as it reaches the
head, whatever else its issue waits for (DESIGN CHOICE, log 41). -/
def execGuardFaultRaise (r : EngRef) (s : State) : Host.Outcome State Fault Refusal :=
  if !r.ok then .fault .noSuchUnit
  else
    match (s.chain r).guard, s.headOf r with
    | some g, some i =>
      if s.runnable r && (s.chain r).guardDue i then
        .next (s.takeFault r g.block { cause := .guard, fva := g.off, remain := g.rest, bank := g.bank, ctr := g.ctr } .halt false)
      else .next s
    | _, _ => .next s

/-! ### Rings (R172, R173) -/

/-- RING_SLOT_TAKE: the first block that waits inside for a slot of each of its rings takes them and runs on, unless engines
before its own leave it too few counts in this cycle (R167). In check mode the slots join its footprint (R93). -/
def execRingSlotTake (r : EngRef) (s : State) : Host.Outcome State Fault Refusal :=
  if !r.ok then .fault .noSuchUnit
  else
    let c := s.ctx r
    match s.slotTaker r with
    | none => .next s
    | some (k, rings) =>
      if !c.satisfies (s.takenBefore r) (c.fullCounts rings) (c.fullCounts rings) then .next s
      else
        let (c1, taken) := c.takeSlots rings
        let s1 := s.updSlot r.tile r.slot fun x => ({ x with ctx := c1 } : Slot).tests s.cycle ((c.fullCounts rings).map (·.1))
        let serial := (((s.chain r).inflight[k]?).map (·.serial)).getD 0
        let s2 := s1.updChain r fun h =>
          { h.feetWith serial (taken.flatMap fun t => c.slotFoot t.ring t.slot) with since := s.steps }
        .next (s2.updEntry r k fun f => { f with taken := taken, phase := .run, since := s.steps })

/-- A block at the head is skipped: the end flag is set, and nothing else is done (R173). -/
def State.skipHead (s : State) (r : EngRef) (i : Instr) : State :=
  s.updChain r fun h =>
    { h with cursor := nextAddr h.cursor i, queue := popQueue h.queue h.cursor, endFlag := true, passBrk := false,
             report := none }

/-- RING_END_SKIP: a block that consumes an ended ring ends with its signals, or the block at the head that needs a
count of one is skipped. -/
def execRingEndSkip (r : EngRef) (s : State) : Host.Outcome State Fault Refusal :=
  if !r.ok then .fault .noSuchUnit
  else
    let c := s.ctx r
    match (c.chain r.eng).inflight.findIdx? fun f => f.phase == .ring && c.anyEnded (rqRings f.instr) with
    | some k =>
      let waits (f : InFlight) : Bool := s.signalsLate r f.instr || s.completionWaits r k f
      if !s.runnable r || ((c.chain r.eng).inflight[k]?).any waits then .next s
      else .next ((s.updChain r fun h => { h with endFlag := true }).completeBlock r k)
    | none =>
      match s.headOf r with
      | some i => .next (if s.reachesIssue r i && c.skips i then s.skipHead r i else s)
      | none => .next s

end Sys2Proof.Machine
end

