-- ==== Sys2Proof/Machine/Streams.lean ====
section
/-! DEFINITION. The Carafes' streams (R136 to R139, R161, R162), their faults, translation walks (R118) and the
accesses that wait for an entry (R121). -/

namespace Sys2Proof.Machine

/-! ### Streams -/

/-- May a stream of the slot take its next step? Not while the slot is being saved or its job halts (R139, R330), but a
stream that a SUBC or PUBC has closed finishes its slot before a save (R140, R151, R163), and the streams that a FENCE of their
chain waits for go on until it has completed (R315, R333). Nor while no outstanding access of
the Carafes of its next tile is free (R121), nor where the cycle's additions to the semaphore that it adds to are over (R167). -/
def State.streamRuns (s : State) (r : EngRef) (k : AccessKind) (th : Desc) (adds : Nat) (x : Stream) : Bool :=
  let y := s.slotAt r.tile r.slot
  let p := s.pasid (s.task (y.task.getD 0)).pasid
  let w := memWidth x.handle.fmt
  x.state == .opened && (y.live || ((x.closing || (r.eng == .ste && s.fencing r && !y.inPlace)) && y.task.isSome && !y.cancelled)) && !p.halted && !p.halting &&
  !s.testsDone r.tile r.slot [adds] &&
  !s.noEntry r.tile (if s.noEntry r.tile anyCarafe then carafesOf (s.viaCarafe r) r k w (tileElems th x.handle (x.body.counters x.ctr)) else [])

/-- A stream's test of a semaphore of its ring, and what it has taken (R167). -/
def State.streamTook (s : State) (r : EngRef) (x : Stream) (sem : Nat) (c : Ctx) : State :=
  s.updSlot r.tile r.slot fun y => ({ y with ctx := c } : Slot).tests s.cycle (if x.took.isSome then [] else [sem])

/-- Changes the ring of a stream. -/
def State.updRing (s : State) (r : EngRef) (n : Nat) (f : Ring → Ring) : State :=
  s.updCtx r fun c => match c.ring n with | some g => c.setRing n (some (f g)) | none => c

/-- A fault of a stream (R138, R162): a PARK parks the task, a HALT halts its job. The record names the stream's block
and iteration. -/
def State.streamFault (s : State) (r : EngRef) (x : Stream) (e : BlockFault) : State :=
  let t := s.task (s.taskOf r)
  let held := s.wouldHold (dieOf r.tile)
  let disp := e.cause.disp
  let s1 := s.emitRecord (dieOf r.tile) (clusterOf r.tile)
    { pasid := t.pasid, acc := 6, tile := r.tile, slot := r.slot, eng := r.eng.num, agt := true, prec := false, disp := disp,
      cause := e.cause.code, task := t.va, block := x.block, ctr := packCtr (x.body.counters x.ctr), remain := e.remain, fva := e.fva }
  if disp = .park then
    let s2 := s1.updSlot r.tile r.slot fun y => { y with parking := true, inPlace := y.inPlace || held }
    if held then s2.setTaskState (s.taskOf r) .parked else s2
  else s1.raiseHalt t.pasid e.cause.code t.va

/-- A launch register page is no place for a stream's accesses (R346). -/
def streamPlace (l : List (Option (List Piece))) : Option Int :=
  (l.findSome? fun o => (o.getD []).find? fun p => p.phys.place == .launchPage).map fun p => (p.va : Int)

/-- The values of the tile of a stream's iteration, with its sectors. -/
def streamTile (s : State) (r : EngRef) (x : Stream) (th : Desc) : Except BlockFault (List Nat × Hot) :=
  let elems := tileElems th x.handle (x.body.counters x.ctr)
  let v := s.viaCarafe r
  match translateTile v r .read (memWidth x.handle.fmt) elems with
  | .error e => .error e
  | .ok l => match streamPlace l with | some va => .error { cause := .permission, fva := wrapTo 64 va } | none => readTile v r th x.handle (x.body.counters x.ctr)

/-- Writes of values densely into a slot of a ring. -/
def slotWrites (g : Ring) (reg : Region) (slot w : Nat) (vals : List Nat) : List TileWrite :=
  ((upto vals.length).zip vals).map fun (k, v) => if reg.space = spWb then .wb (slotBit g reg slot + k * w) w v else .tp (slotBit g reg slot + k * w) w v

/-- A subscription takes one empty slot, if it has not taken one for its iteration. -/
def Ctx.takeEmpty (c : Ctx) (n : Nat) (g : Ring) (x : Stream) : Option (Ctx × Stream × Nat) :=
  match x.took with
  | some k => some (c, x, k)
  | none =>
    if c.sem g.esem = 0 then none
    else
      let x1 := { x with took := some g.pcur }
      some ((c.setSem g.esem (c.sem g.esem - 1)).setRing n (some { g with pcur := (g.pcur + 1) % g.nslot, sub := some x1 }), x1, g.pcur)

/-- A pull stream takes one full slot likewise. -/
def Ctx.takeFull (c : Ctx) (n : Nat) (g : Ring) (x : Stream) : Option (Ctx × Stream × Nat) :=
  match x.took with
  | some k => some (c, x, k)
  | none =>
    if c.sem g.fsem = 0 then none
    else
      let x1 := { x with took := some g.ccur }
      some ((c.setSem g.fsem (c.sem g.fsem - 1)).setRing n (some { g with ccur := (g.ccur + 1) % g.nslot, pull := some x1 }), x1, g.ccur)

/-- Is this the stream's last iteration? -/
def Stream.last (x : Stream) : Bool := decide (x.body.iterations ≤ x.ctr + 1)

/-- A subscription's slot is written: full is signalled, and after the last tile, or the slot that a SUBC found taken, the token
is sent (R136, R140, R173). -/
def State.delivered (s : State) (r : EngRef) (n : Nat) (x : Stream) (ws : List TileWrite) : State :=
  let c := (s.ctx r).applyAll ws
  match c.ring n with
  | none => s
  | some g =>
    let x1 := { x with ctr := x.ctr + 1, took := none }
    match c.signalOne g.fsem 1 with
    | .error e => (s.setCtx r c).streamFault r x { cause := e }
    | .ok c1 =>
      if !x.last && !x.closing then s.setCtx r (c1.setRing n (some { g with sub := some x1 }))
      else
        let c2 := c1.setRing n (some { g with sub := none })
        match c2.addToken n with
        | some c3 => s.setCtx r c3
        | none => (s.setCtx r c2).streamFault r x { cause := .ringMisuse }

/-- SUB_TILE_DELIVERY: one tile into the next slot of a ring. -/
def execSubTileDelivery (tile slot ring : Nat) (s : State) : Host.Outcome State Fault Refusal :=
  if !unitsOk tile slot then .fault .noSuchUnit
  else
    let r := engRef tile slot .lde
    let c := s.ctx r
    match c.ring ring with
    | none => .next s
    | some g =>
      match g.sub, c.region g.reg with
      | some x, some reg =>
        if !s.streamRuns r .read x.body.a g.fsem x then .next s
        else
          match c.takeEmpty ring g x with
          | none => .next s
          | some (c1, x1, k) =>
            let s1 := s.streamTook r x g.esem c1
            match streamTile s1 r x1 x.body.a with
            | .error e => .next ((s1.updRing r ring fun g => { g with sub := some { x1 with state := .held } }).streamFault r x1 e)
            | .ok (vals, hot) => .next ((s1.sampleAll hot).delivered r ring x1 (slotWrites g reg k (memWidth x.handle.fmt) vals))
      | _, _ => .next s

/-- The first access that writes part of a poisoned sector, which is a fault (R162, R164). -/
def State.poisonedPart (s : State) (l : List Access) : Option Access :=
  l.find? fun a => Map.get false s.poison (s.unitKey a) && !coversUnit (a.unit * unitBytes a.place * 8) (unitBytes a.place) a.ops

/-- The accesses that write a slot's elements to the tile of an iteration. -/
def drainWrites (s : State) (r : EngRef) (x : Stream) (vals : List Nat) : Except BlockFault (List Access) :=
  let ctr := x.body.counters x.ctr
  match translateTile (s.viaCarafe r) r .write (memWidth x.handle.fmt) (tileElems x.body.d x.handle ctr) with
  | .error e => .error e
  | .ok l =>
    match streamPlace l with
    | some va => .error { cause := .permission, fva := wrapTo 64 va }
    | none =>
      let ws := tileWrites (packCtr ctr) l vals
      match s.poisonedPart ws with
      | some a => .error { cause := .poison, fva := a.va }
      | none => .ok ws

/-- The reads of a slot of a ring. -/
def slotReads (g : Ring) (reg : Region) (slot n : Nat) : Reads :=
  { tiles := [{ space := reg.space, lo := slotBit g reg slot / 8, hi := (slotBit g reg slot / 8 + n : Nat), write := false }] }

/-- A fault of a stream leaves it held. -/
def State.holdPull (s : State) (r : EngRef) (ring : Nat) (x : Stream) (e : BlockFault) : State :=
  (s.updRing r ring fun g => { g with pull := some { x with state := .held } }).streamFault r x e

/-- A pull stream after an iteration: gone with its last, or when a PUBC has closed it. -/
def Stream.pulled (x : Stream) : Option Stream := if x.last || x.closing then none else some { x with ctr := x.ctr + 1, took := none }

/-- PUB_SLOT_DRAIN: one full slot of a ring into a tile; the writes go to their homes. The stream ends with its last
tile or with its ring. -/
def execPubSlotDrain (tile slot ring : Nat) (s : State) : Host.Outcome State Fault Refusal :=
  if !unitsOk tile slot then .fault .noSuchUnit
  else
    let r := engRef tile slot .ste
    let c := s.ctx r
    match c.ring ring with
    | none => .next s
    | some g =>
      match g.pull, c.region g.reg with
      | some x, some reg =>
        if !s.streamRuns r .write x.body.d g.esem x then .next s
        else if x.took.isNone && c.ringEnded g then .next (s.updRing r ring fun g => { g with pull := none })
        else
          match c.takeFull ring g x with
          | none => .next s
          | some (c1, x1, k) =>
            let w := memWidth x.handle.fmt
            let vals := (upto (tileCount x.body.d)).map fun j => c1.mediumBits reg.space (slotBit g reg k + j * w) w
            let seen : Seen := { s := s.streamTook r x g.fsem c1, v := c1 }
            match seen.delivers r (slotReads g reg k ((tileCount x.body.d * w + 7) / 8)) with
            | (some e, q) => .next (q.s.holdPull r ring x1 e)
            | (none, q) =>
              match drainWrites q.s r x1 vals with
              | .error e => .next (q.s.holdPull r ring x1 e)
              | .ok l =>
                let s2 := q.s.addFork r x.block q.s.steps l (some ring)
                match (s2.ctx r).addSem g.esem 1 with
                | none => .next (s2.streamFault r x1 { cause := .semOverflow })
                | some c2 => .next ((s2.setCtx r c2).updRing r ring fun g => { g with pull := x1.pulled })
      | _, _ => .next s

/-! ### Translation walks (R118) -/

/-- Puts an entry into a TLB of n entries; which entry gives way is open (log 2). -/
def insertEntry (s : State) (key n : Nat) (e : TlbEntry) (l : List TlbEntry) : List TlbEntry :=
  if l.any fun x => x.pasid == e.pasid && x.va == e.va && x.size == e.size then l
  else if l.length < n then e :: l
  else e :: l.eraseIdx (s.free key % l.length)

/-- PAGE_WALK: a walk for a tile completes; its leaf is kept in the tile's and the cluster's TLB, and in a Carafe's
where the miss was its own (log 2). -/
def execPageWalk (tile pasid va : Nat) (s : State) : Host.Outcome State Fault Refusal :=
  if 512 ≤ tile then .fault .noSuchUnit
  else
    match s.walk pasid va with
    | .error _ => .next s
    | .ok w =>
      let e : TlbEntry := { pasid := pasid, va := wholePage va w.size, size := w.size, leaf := w.leaf }
      let t := s.tile tile
      let s1 := s.setTile tile { t with tlb := insertEntry s (2 ^ 29) tileTlbSize e t.tlb }
      let s2 : State := { s1 with clusterTlb := Map.upd [] s1.clusterTlb (clusterOf tile) (insertEntry s (2 ^ 29 + 1) clusterTlbSize e) }
      .next (if s.freeBit (2 ^ 29 + 2) then
        { s2 with carafeTlb := Map.upd [] s2.carafeTlb (homeNum w.tierOf w.frame) (insertEntry s (2 ^ 29 + 3) carafeTlbSize e) } else s2)

/-! ### Outstanding accesses (R12, R121) -/

/-- The first fork of a tile with an access that waits and may go out. -/
def State.waitingFork (s : State) (tile : Nat) : Option Nat :=
  s.forks.findIdx? fun f => f.ref.tile == tile && s.admitted (tileAccesses - (s.tile tile).accesses) [] (f.heldBack.take 1) == 1

/-- ACCESS_ENTRY_FREED: where an entry of the tile and of the access's Carafe is free, the next access that waits goes out. -/
def execAccessEntryFreed (tile : Nat) (s : State) : Host.Outcome State Fault Refusal :=
  if 512 ≤ tile then .fault .noSuchUnit
  else
    match s.waitingFork tile with
    | none => .next s
    | some k =>
      match s.forks[k]? with
      | none => .next s
      | some f =>
        match f.kind with
        | .mem fl (a :: he) =>
          let t := s.tile tile
          .next (({ s with forks := setNth s.forks k { f with kind := .mem (fl ++ [a]) he } } : State).setTile tile { t with accesses := t.accesses + 1 })
        | _ => .next s

end Sys2Proof.Machine
end

