-- ==== Sys2Proof/Machine/Scheduler.lean ====
section
/-! DEFINITION. The steps of the schedulers and of the trap system: dispatch (R304 to R306), saving and parking
(R315, R332), budgets and watchdogs (R308, R310), halts and cancels (R303, R330, R333), held records (R329). -/

namespace Sys2Proof.Machine

/-! ### Dispatch, save and park -/

/-- The next dispatch of the schedulers, if its task is in a state. -/
def State.dispatchOf (s : State) (st : TState) : State :=
  match s.nextDispatch with
  | some (n, tile, slot) => if (s.task n).state = st then s.placeTask n tile slot else s
  | none => s

/-- TASK_DISPATCH: the schedulers' next task is a ready one. -/
def execTaskDispatch (s : State) : Host.Outcome State Fault Refusal := .next (s.dispatchOf .ready)

/-- TASK_RESTORE: the schedulers' next task is a saved one. -/
def execTaskRestore (s : State) : Host.Outcome State Fault Refusal := .next (s.dispatchOf .saved)

/-- CONTEXT_SAVE: a slot that a YIELD has given up is saved (R309). -/
def execContextSave (tile slot : Nat) (s : State) : Host.Outcome State Fault Refusal :=
  if !unitsOk tile slot then .fault .noSuchUnit
  else
    let x := s.slotAt tile slot
    .next (if x.yielding && !x.parking && !x.cancelled then s.saveTask tile slot .saved else s)

/-- TASK_PARK: a task on which a PARK fault has been taken is saved, unless its record is still held (R329). -/
def execTaskPark (tile slot : Nat) (s : State) : Host.Outcome State Fault Refusal :=
  if !unitsOk tile slot then .fault .noSuchUnit
  else
    let x := s.slotAt tile slot
    .next (if x.parking && !x.inPlace && !x.cancelled then s.saveTask tile slot .parked else s)

/-! ### Budgets and watchdogs -/

/-- The job of a slot's task. -/
def State.jobOf (s : State) (tile slot : Nat) : Pasid := s.pasid (s.task (((s.slotAt tile slot).task).getD 0)).pasid

/-- The job has not met a HALT cause. -/
def Pasid.runs (p : Pasid) : Bool := !p.halted && !p.halting

/-- BUDGET_EXHAUSTED: the task parks with 0x2C0. -/
def execBudgetExhausted (tile slot : Nat) (s : State) : Host.Outcome State Fault Refusal :=
  if !unitsOk tile slot then .fault .noSuchUnit
  else
    let x := s.slotAt tile slot
    .next (if x.live && x.ctx.spent && (s.jobOf tile slot).runs then s.schedulerFault tile slot .budget 0 0 else s)

/-- WATCHDOG: a slot in which no block has completed for its limit halts the job with 0x2C1. -/
def execWatchdog (tile slot : Nat) (s : State) : Host.Outcome State Fault Refusal :=
  if !unitsOk tile slot then .fault .noSuchUnit
  else
    let x := s.slotAt tile slot
    .next (if x.task.isSome && !x.inPlace && !x.cancelled && decide (x.wdActive ≤ x.ctx.wdc) && (s.jobOf tile slot).runs then
      s.schedulerFault tile slot .watchdog 0 0 else s)

/-! ### Halts and cancels -/

/-- The live tasks of a PASID. -/
def State.liveOf (s : State) (pasid : Nat) : List Nat := (s.tasks.filter fun (_, t) => t.pasid == pasid && t.state.live).map (·.1)

/-- A task of a halted job: it keeps its slot, and is no longer to be saved. -/
def State.haltTask (s : State) (n : Nat) : State :=
  let s1 := s.setTaskState n .halted
  match s.slotOf n with
  | none => s1.flushTask n
  | some (tile, slot) => s1.updSlot tile slot fun x => { x with parking := false, inPlace := false, yielding := false }

/-- HALT_LINE: the line of a job that has met a HALT cause reaches the module; every live task is halted. -/
def execHaltLine (pasid : Nat) (s : State) : Host.Outcome State Fault Refusal :=
  let p := s.pasid pasid
  .next (if p.halting then
    (s.liveOf pasid).foldl State.haltTask (s.setPasid pasid { p with halting := false, halted := true }) else s)

/-- Class of a block's form. -/
def classOf (i : Instr) : Nat :=
  match lParts i with
  | some (cls, _, _) => cls
  | none => match sParts i with | some (cls, _) => cls | none => 0

/-- Is an iteration of the form made as a whole or not at all when its engine halts (R251, R333)? -/
def stopsBetween : Instr → Bool
  | .acr _ => false
  | .drn _ => false
  | i => classOf i == 7 || classOf i == 9

/-- What the last iteration of a stopping block leaves: all of its writes; or, of a form that stops within an iteration, some
of them, a register as it was, and of ACR and DRN no cell. Which, is open (log 2). -/
def lastWrites (s : State) (key : Nat) (i : Instr) (ws : List TileWrite) : List TileWrite :=
  if s.freeBit key then ws
  else if stopsBetween i then []
  else
    ((upto ws.length).zip ws).filterMap fun (n, w) =>
      match w with
      | .vreg .. => none
      | .acc .. => none
      | _ => if s.freeBit (key + 1 + n) then some w else none

/-- What a stopping engine leaves of its issued blocks (R333): the writes of the iterations before the last of each, and
what its last iteration leaves. -/
def State.partWrites (s : State) (r : EngRef) : State :=
  let fl := (s.chain r).inflight
  (upto fl.length).foldl (fun (s1 : State) j =>
    match fl[j]? with
    | none => s1
    | some f =>
      let last (a : Access) : Bool := a.ctr == ctrOf f.instr (f.ctr - 1)
      let homes := ((upto f.homes.length).zip f.homes).filterMap fun (k, a) => if !last a || s.freeBit (2 ^ 31 * (j + 1) + k) then some a else none
      let (s2, rets, _) := s1.performAll homes
      let whole := if classOf f.instr = 9 then f.writes else f.writes.take f.cut
      s2.updCtx r fun c => c.applyAll (whole ++ lastWrites s (2 ^ 36 * (j + 1)) f.instr (f.writes.drop whole.length ++ rets))) s

/-- Does an issued block of class 0 or class 3 complete although its engine stops (R333)? -/
def State.finishes (s : State) (r : EngRef) (f : InFlight) : Bool := (classOf f.instr == 0 || classOf f.instr == 3) && s.mayFinish r f

/-- Completes them. -/
def State.finishBlocks (s : State) (r : EngRef) : Nat → State
  | 0 => s
  | n + 1 =>
    match (s.chain r).inflight.findIdx? (s.finishes r) with
    | none => s
    | some k => (s.completeBlock r k).finishBlocks r n

/-- Accesses of an engine's forks that have not gone out are made or dropped, which is open (log 2). -/
def State.dropWaiting (s : State) (r : EngRef) : State :=
  let n := s.taskOf r
  let keep (j : Nat) (he : List Access) : List Access :=
    ((upto he.length).zip he).filterMap fun (k, a) => if s.freeBit (2 ^ 34 * (j + 1) + k) then some a else none
  let forks := ((upto s.forks.length).zip s.forks).filterMap fun (j, f) =>
    if f.task == n && f.ref.eng == r.eng then
      match f.kind with
      | .mem fl he => if fl.isEmpty && (keep j he).isEmpty then none else some { f with kind := .mem fl (keep j he) }
      | .spawn .. => some f
    else some f
  { s with forks := forks }

/-- Why an engine has to stop: its slot is cancelled, or its job is halted. -/
def State.stopReason (s : State) (r : EngRef) : Option (Nat × Disp) :=
  let x := s.slotAt r.tile r.slot
  let p := s.jobOf r.tile r.slot
  if x.task.isNone then none
  else if x.cancelled && !(p.halted && s.freeBit 0) then some (Cause.cancelled.code, .note)
  else if p.halted then some (p.haltBy, .halt)
  else none

/-- ENGINE_STOP: an engine of a cancelled slot or a halted job stops within its skid (R13). Blocks of class 0 and class 3
complete first, for which the stop waits while one has writes on their way, or signals that come too late for this cycle (R167).
An engine that its own fault has stopped only
loses its other issued blocks. -/
def execEngineStop (r : EngRef) (s : State) : Host.Outcome State Fault Refusal :=
  if !r.ok then .fault .noSuchUnit
  else
    let h := s.chain r
    match s.stopReason r with
    | none => .next s
    | some (cause, disp) =>
      if !h.present || (h.stop == .halted && h.inflight.isEmpty) then .next s
      else if h.inflight.any fun f => (classOf f.instr == 0 || classOf f.instr == 3) && s.holdsSave r f then .next s
      else
        let s0 := s.finishBlocks r h.inflight.length
        let s1 := if (s0.chain r).stop = .halted then s0 else s0.stopEngine r .halted cause disp false 0 0 (s.free 1 % 65)
        let s2 := ((s1.partWrites r).dropWaiting r).updChain r fun h => { h with inflight := [], queue := [], guard := none, refusal := none }
        .next (s2.flushWhere fun w => w.task == s.taskOf r && w.ref.eng == r.eng)

/-- Every engine of the slot has stopped. -/
def Ctx.allStopped (c : Ctx) : Bool := c.chains.all fun h => !h.present || (h.stop == .halted && h.inflight.isEmpty)

/-- SLOT_RELEASE: the slot of a cancelled task is free once its engines have stopped and its forks are gone. -/
def execSlotRelease (tile slot : Nat) (s : State) : Host.Outcome State Fault Refusal :=
  if !unitsOk tile slot then .fault .noSuchUnit
  else
    let x := s.slotAt tile slot
    .next (if x.cancelled && x.ctx.allStopped && !(s.forks.any fun f => some f.task == x.task) then s.releaseSlot tile slot else s)

/-! ### Held records (R329) -/

/-- The held record to be written first, in the order of TIME, tile and engine (R329), with its place in the list. -/
def oldestHeld : List (Nat × FaultRec) → Nat → Option (Nat × Nat × FaultRec)
  | [], _ => none
  | (c, f) :: l, k =>
    match oldestHeld l (k + 1) with
    | none => some (k, c, f)
    | some (j, d, g) => if g.before f then some (j, d, g) else some (k, c, f)

/-- A task parked in place may be saved when its last held PARK record is written. -/
def State.unhold (s : State) (f : FaultRec) : State :=
  match s.liveTask f.pasid f.task with
  | none => s
  | some n =>
    let more := s.dies.any fun (_, u) => u.held.any fun (_, g) => g.pasid == f.pasid && g.task == f.task && g.disp == .park
    match s.slotOf n with
    | some (tile, slot) => if f.disp = .park ∧ !more then s.updSlot tile slot fun x => { x with inPlace := false } else s
    | none => s

/-- HELD_RECORD_WRITE: a place of the buffer is free, and the oldest held record is written. -/
def execHeldRecordWrite (die : Nat) (s : State) : Host.Outcome State Fault Refusal :=
  if numDies ≤ die then .fault .noSuchUnit
  else
    let u := s.die die
    if u.full then .next s
    else
      match oldestHeld u.held 0 with
      | none => .next s
      | some (k, cluster, f) =>
        let s1 := (s.setDie die { u with held := u.held.eraseIdx k }).placeRecord die cluster { f with held := true }
        .next (s1.unhold f)

end Sys2Proof.Machine
end

