-- ==== Sys2Proof/Machine/Percolator.lean ====
section
/-! DEFINITION. The Percolator's steps (R271 to R279, R290): sampling, its own requests, acceptance, copying, commit,
release and abort of migrations. -/

namespace Sys2Proof.Machine

/-- A change of the Percolator's own state. -/
def State.updPerc (s : State) (f : Percolator → Percolator) : State := { s with perc := f s.perc }

/-! ### Hotness (R278) -/

/-- HOTNESS_SAMPLE: each access sampled since adds 1 to its page's counter. Readers of a counter see the samples due as
added already. -/
def execHotnessSample (s : State) : Host.Outcome State Fault Refusal :=
  .next (s.updPerc Percolator.drain)

/-- Cycles until the end of the decay period, none once it is past. -/
def State.untilDecay (s : State) : Nat :=
  let n := (s.perc.decayEnd + 2 ^ 64 - s.cycle) % 2 ^ 64
  if 2 ^ 63 ≤ n then 0 else n

/-- HOTNESS_DECAY: at the end of a period every counter is halved, the parameters last written come into force, and a period of
the present DECAY begins. The event comes as the period ends (Step). -/
def execHotnessDecay (s : State) : Host.Outcome State Fault Refusal :=
  if s.untilDecay ≠ 0 then .next s
  else
    .next (s.updPerc fun p =>
      { p.drain.adopt with
        decayEnd := (p.decayEnd + p.decay * 65536) % 2 ^ 64
        hot := (p.drain.hot.map fun (k, v) => (k, v / 2)).filter fun (_, v) => decide (v ≠ 0) })

/-! ### Frames -/

def Percolator.pool (p : Percolator) : Tier → FramePool
  | .hbm => p.hbm | .lpddr => p.lpddr | .cxl => p.cxl | .host => {}
def Percolator.setPool (p : Percolator) (t : Tier) (x : FramePool) : Percolator :=
  match t with
  | .hbm => { p with hbm := x } | .lpddr => { p with lpddr := x } | .cxl => { p with cxl := x } | .host => p

/-- Takes a frame of a tier, none when it has none. Which frame is the model's choice (log 6). -/
def FramePool.take (x : FramePool) : Option (Nat × FramePool) :=
  match x.freed with
  | a :: l => some (a, { x with freed := l })
  | [] => if x.left = 0 then none else some (x.next, { x with next := x.next + pageBytes, left := x.left - 1 })

/-- A frame is free again. -/
def State.freeFrame (s : State) (t : Tier) (a : Nat) : State :=
  s.updPerc fun p => p.setPool t { p.pool t with freed := a :: (p.pool t).freed }

/-! ### The Percolator's own requests (R279) -/

/-- Is a PASID being torn down: has its PASDEL started (R290, R340)? -/
def State.tearing (s : State) (pasid : Nat) : Bool :=
  (s.queue 0).started.any fun p => packetType p.dws == 8 && packetCmd p.dws == 2 && pw p.dws 1 == pasid

/-- May the Percolator ask for a page on its own: 64 KiB, in state R, neither pinned nor advised never to move, and not
asked for already? -/
def State.candidate (s : State) (pasid va : Nat) : Option Walk :=
  match s.walk pasid va with
  | .error _ => none
  | .ok w =>
    let page := wholePage va w.size
    if s.perc.policy.auto = 1 ∧ !s.tearing pasid ∧ w.size = 16 ∧ !w.isPeer ∧ w.tierOf ≠ .host ∧ !bitAt w.leaf 58 ∧ !bitAt w.leaf 57 ∧ (s.motionOf pasid page).isNone ∧
        !(s.perc.queue.any fun q => q.pasid == pasid && q.va == page) then some w else none

/-- Queues a request of the Percolator's own at the die of the source. -/
def State.askOwn (s : State) (pasid va : Nat) (w : Walk) (t : Tier) : State :=
  let d := homeDie w.tierOf w.frame
  if percQueueDepth ≤ (s.perc.queue.filter (·.die == d)).length then s
  else s.updPerc fun p => { p with queue := p.queue ++ [{ die := d, pasid := pasid, va := wholePage va w.size, tier := t, by_ := none }] }

/-- PROMOTION: a page of LPDDR or CXL memory whose counter has reached PROMO is asked into HBM4. -/
def execPromotion (pasid va : Nat) (s : State) : Host.Outcome State Fault Refusal :=
  match s.candidate pasid va with
  | none => .next s
  | some w =>
    if s.perc.policy.promo ≠ 0 ∧ w.tierOf ≠ .hbm ∧ bits w.leaf 54 3 ≤ 1 ∧ s.perc.policy.promo ≤ s.hotOf w then .next (s.askOwn pasid va w .hbm)
    else .next s

/-- Free bytes of HBM4. -/
def Percolator.freeHbm (p : Percolator) : Nat := (p.hbm.left + p.hbm.freed.length) * pageBytes

/-- Where a demoted page goes. -/
def demoteTier (leaf : Nat) : Tier := if bits leaf 54 3 = 3 then .cxl else .lpddr

/-- DEMOTION: a cold page of HBM4 is asked out of it while free HBM4 is below LOWMARK. -/
def execDemotion (pasid va : Nat) (s : State) : Host.Outcome State Fault Refusal :=
  match s.candidate pasid va with
  | none => .next s
  | some w =>
    if w.tierOf = .hbm ∧ s.perc.freeHbm < s.perc.policy.lowmark * 2 ^ 30 ∧ s.hotOf w ≤ s.perc.policy.demo then
      .next (s.askOwn pasid va w (demoteTier w.leaf))
    else .next s

/-! ### Acceptance (R271, R272, R276) -/

/-- What becomes of a request. -/
inductive Verdict where
  | wait | done | join | refuse (reason : Nat) | move (w : Walk) (dst : Nat) (pool : FramePool)

/-- Home numbers of a motion's source hold 64 entries each (R272). -/
def State.homeFull (s : State) (t : Tier) (a : Nat) : Bool :=
  decide (64 ≤ (s.perc.motions.filter fun m => homeNum m.srcTier m.src == homeNum t a).length)

/-- What becomes of a request. 0x186 comes before 0x190 where a large page is pinned; and a request of the Percolator's own whose
page has been pinned since writes a background record of 0x190, which the spec names for MIGR alone (R279, R284, R286: DESIGN
CHOICE, log 55). -/
def State.judge (s : State) (q : MigReq) : Verdict :=
  if 64 ≤ (s.die q.die).heldBackground then .wait
  else if s.tearing q.pasid then .done
  else
    match s.walk q.pasid q.va with
    | .error _ => .done
    | .ok w =>
      if w.size ≠ 16 ∨ w.tierOf = .host ∨ w.isPeer then .refuse 6
      else
        match s.motionOf q.pasid q.va with
        | some m => if m.state = .aborted then .wait else if m.dstTier = q.tier then .join else .refuse 7
        | none =>
          if w.tierOf = q.tier then .done
          else if bitAt w.leaf 58 then .refuse 16
          else if s.homeFull w.tierOf w.frame then .wait
          else match (s.perc.pool q.tier).take with | none => .refuse 0 | some (a, p) => .move w a p

/-- A requester joins a migration. An earlier request of its block, one with the same task and the same address, gives way to it,
and the two have one record (DESIGN CHOICE, log 55: R277 writes a record for a migration requested by a block). -/
def Motion.join (m : Motion) (q : Option Requester) : Motion :=
  match q with
  | some r => { m with by_ := (m.by_.filter fun x => !x.same r) ++ [r] }
  | none => { m with own := true }

/-- MIGRATION_ACCEPT: a queued request is accepted, joins a migration, has nothing to do, or is abandoned. -/
def execMigrationAccept (idx : Nat) (s : State) : Host.Outcome State Fault Refusal :=
  match s.perc.queue[idx]? with
  | none => .next s
  | some q =>
    let s1 := s.updPerc fun p => { p with queue := p.queue.eraseIdx idx }
    match s.judge q with
    | .wait => .next s
    | .done => .next s1
    | .join => .next (s1.updPerc fun p => { p with motions := p.motions.map fun m => if m.pasid = q.pasid ∧ m.va = q.va then m.join q.by_ else m })
    | .refuse n => .next (s1.refuseMove q.pasid q.va n q.die q.by_)
    | .move w dst pool =>
      let m : Motion := { pasid := q.pasid, va := q.va, srcTier := w.tierOf, src := w.frame, dstTier := q.tier, dst := dst, leafTier := w.tier, leaf := w.addr }
      let s2 := s1.updPerc fun p =>
        { p.drain.setPool q.tier pool with motions := p.motions ++ [m.join q.by_], hot := Map.set 0 p.drain.hot (hotKey q.tier dst 16) 0 }
      .next (s2.setLeaf w (putField w.leaf 59 1 1))

/-! ### Copying (R273) -/

/-- Chunks of a page and their bytes. -/
def chunkBytes : Nat := 2048

def Motion.full (m : Motion) : Bool := m.map == 2 ^ 32 - 1

/-- The lowest chunk not copied. -/
def Motion.nextChunk (m : Motion) : Option Nat := (upto 32).find? fun c => !bitAt m.map c

/-- Replaces a motion entry. -/
def State.setMotion (s : State) (idx : Nat) (m : Motion) : State := s.updPerc fun p => { p with motions := setNth p.motions idx m }

/-- Is a sector of the chunk poisoned at the source? -/
def State.chunkPoisoned (s : State) (m : Motion) (c : Nat) : Bool :=
  (upto 64).any fun k => Map.get false s.poison (poisonKey (.tier m.srcTier) ((m.src + c * chunkBytes) / 32 + k))

/-- Copies the bytes of a chunk; poison of the destination's sectors is cleared (R164). -/
def State.copyChunk (s : State) (m : Motion) (c : Nat) : State :=
  let a := m.src + c * chunkBytes
  let b := m.dst + c * chunkBytes
  let v := Memory.nat (s.tierMem m.srcTier) a chunkBytes
  (s.setTierMem m.dstTier (Memory.putNat (s.tierMem m.dstTier) b chunkBytes v)).cleanSectors (.tier m.dstTier) b chunkBytes

/-- CHUNK_COPY: the next chunk of a page in motion is copied. Poison met at the source aborts the migration. -/
def execChunkCopy (idx : Nat) (s : State) : Host.Outcome State Fault Refusal :=
  match s.perc.motions[idx]? with
  | none => .next s
  | some m =>
    match m.state, m.nextChunk with
    | .moving, some c =>
      if s.chunkPoisoned m c then .next (s.abortMotion m.pasid m.va 2)
      else .next ((s.copyChunk m c).setMotion idx { m with map := m.map + 2 ^ c })
    | _, _ => .next s

/-! ### Commit and release (R275) -/

/-- Does the leaf entry still map the page to a frame of a tier? -/
def leafHolds (e : Nat) (t : Tier) (a : Nat) : Bool := bitAt e 63 && bits e 60 2 == t.num && bits e 16 32 * pageBytes == a

def State.leafOf (s : State) (m : Motion) : Nat := s.entryAt m.leafTier m.leaf

def State.putLeaf (s : State) (m : Motion) (e : Nat) : State := s.writeBits (.tier m.leafTier) (m.leaf * 8) 64 e

/-- Is the leaf entry of a page in motion in a poisoned sector? It is neither delivered nor written in part (R164, R339). -/
def State.leafPoisoned (s : State) (m : Motion) : Bool := s.poisoned (.tier m.leafTier) m.leaf

/-- The Percolator consumes the poison of a leaf entry: 0x300, which halts the job (R339). The record is that of an agent without
a tile, in the buffer of the die to which records about the source home go (DESIGN CHOICE, log 55). -/
def State.leafFault (s : State) (m : Motion) : State :=
  let d := homeDie m.srcTier m.src
  (s.emitRecord d (8 * d)
    { pasid := m.pasid, acc := 5, agt := true, prec := false, disp := .halt, cause := Cause.poison.code, fva := m.va }).raiseHalt m.pasid Cause.poison.code 0

/-- MOT of the leaf entry of a page becomes 0. -/
def State.clearMot (s : State) (m : Motion) : State :=
  if s.leafPoisoned m then s.leafFault m else s.putLeaf m (putField (s.leafOf m) 59 1 0)

/-- COMMIT: every chunk is copied; the source hands over, and the leaf entry is switched if it still holds the source
frame. An entry that is poisoned cannot be seen to: the migration aborts (DESIGN CHOICE, log 55). -/
def execCommit (idx : Nat) (s : State) : Host.Outcome State Fault Refusal :=
  match s.perc.motions[idx]? with
  | none => .next s
  | some m =>
    if m.state ≠ .moving ∨ !m.full then .next s
    else
      let e := s.leafOf m
      if s.leafPoisoned m then .next ((s.leafFault m).abortMotion m.pasid m.va 3)
      else if !leafHolds e m.srcTier m.src then .next (s.abortMotion m.pasid m.va 3)
      else
        let s1 := s.setMotion idx { m with state := .committing }
        .next ((s1.putLeaf m (putField (putField e 60 2 m.dstTier.num) 16 32 (m.dst / pageBytes))).log
          { time := s.cycle, pasid := m.pasid, kind := 0x30, addr := m.va })

/-- The entries of a TLB but those of a page. -/
def shootPage (pasid va : Nat) (l : List TlbEntry) : List TlbEntry := l.filter fun e => !(e.pasid == pasid && e.va == va / 2 ^ e.size * 2 ^ e.size)

/-- Removes entries from every TLB of the module. What homes have written counts from here on as seen by every read (log 54): a
frame may be another page's from now on. -/
def State.shoot (s : State) (f : List TlbEntry → List TlbEntry) : State :=
  { s with history := [],
           tiles := (s.tiles.map fun (k, t) => (k, { t with tlb := f t.tlb })).filter fun (_, t) => decide (t ≠ {}),
           clusterTlb := (s.clusterTlb.map fun (k, l) => (k, f l)).filter fun (_, l) => !l.isEmpty,
           carafeTlb := (s.carafeTlb.map fun (k, l) => (k, f l)).filter fun (_, l) => !l.isEmpty }

/-- An access that was translated to a moved page's source is passed on to its destination. -/
def Access.passOn (a : Access) (m : Motion) : Access :=
  if a.place = .tier m.srcTier ∧ a.unit * 32 / pageBytes * pageBytes = m.src then
    { a with place := .tier m.dstTier, unit := m.dst / 32 + a.unit % (pageBytes / 32),
             ops := a.ops.map fun o => { o with bit := m.dst * 8 + o.bit % (pageBytes * 8) } }
  else a

/-- Every access under way is passed on. -/
def State.passAccesses (s : State) (m : Motion) : State :=
  let fork (f : Fork) : Fork :=
    match f.kind with
    | .mem fl he => { f with kind := .mem (fl.map (·.passOn m)) (he.map (·.passOn m)) }
    | .spawn .. => f
  let chain (h : Chain) : Chain := { h with inflight := h.inflight.map fun f => { f with homes := f.homes.map (·.passOn m) } }
  { s with forks := s.forks.map fork, slots := s.slots.map fun (k, x) => (k, { x with ctx := x.ctx.updChains fun _ h => chain h }) }

/-- MIGRATION_RELEASE: no TLB holds the page's old translation; its source frame is free. -/
def execMigrationRelease (idx : Nat) (s : State) : Host.Outcome State Fault Refusal :=
  match s.perc.motions[idx]? with
  | none => .next s
  | some m =>
    if m.state ≠ .committing then .next s
    else
      let s1 := s.clearMot m
      let s2 := (s1.shoot (shootPage m.pasid m.va)).passAccesses m
      .next ((s2.updPerc fun p => { p with motions := p.motions.eraseIdx idx }).freeFrame m.srcTier m.src)

/-! ### Aborts (R272, R276) -/

/-- Can an abort of a reason strike a page in motion now? Poison strikes as its chunk is copied, MABRT in its block. -/
def State.abortStrikes (s : State) (m : Motion) (reason : Nat) : Bool :=
  match reason with
  | 1 => true
  | 2 => match m.nextChunk with | some c => s.chunkPoisoned m c | none => false
  | 3 => !s.leafPoisoned m && !bitAt (s.leafOf m) 63
  | 4 => !(s.pasid m.pasid).valid
  | _ => false

/-- MIGRATION_ABORT: an error at the destination, a poisoned source, a cleared leaf entry or a torn-down PASID. -/
def execMigrationAbort (idx reason : Nat) (s : State) : Host.Outcome State Fault Refusal :=
  match s.perc.motions[idx]? with
  | none => .next s
  | some m => .next (if m.state = .moving && s.abortStrikes m reason then s.abortMotion m.pasid m.va reason else s)

/-- ABORT_COMPLETE: the page rests at its source, and its destination frame is free. -/
def execAbortComplete (idx : Nat) (s : State) : Host.Outcome State Fault Refusal :=
  match s.perc.motions[idx]? with
  | none => .next s
  | some m =>
    if m.state ≠ .aborted then .next s
    else
      let s1 := s.clearMot m
      .next ((s1.updPerc fun p => { p with motions := p.motions.eraseIdx idx }).freeFrame m.dstTier m.dst)

end Sys2Proof.Machine
end

