-- ==== Sys2Proof/Machine/Supervisor.lean ====
section
/-! DEFINITION. The X-form instructions of the cluster supervisors (R291, R292, R317): what they share, launches
(R319), semaphores and rendezvous points (R320), faults (R321), translation (R322), discovery and the Percolator's
parameters (R323, R280). -/

namespace Sys2Proof.Machine

/-! ### Conventions (R291) -/

/-- What an X-form does: a status code, or a state and the value for rd. -/
abbrev XOut := Except Nat (State × Nat)

/-- rd after a failure. -/
def failWord (code : Nat) : Nat := 2 ^ 63 + code

/-- AN X-FORM RUNS: in user mode it is illegal, a failure only writes its status to rd. -/
def State.xrun (s : State) (i : Instr) (rd : Nat) (o : XOut) : Host.Outcome State Fault Refusal :=
  if (s.hartAt s.hart).mode = 0 then .next (s.trapX ((encodeX i).getD 0))
  else
    match o with
    | .error c => .next (s.retireX rd (failWord c))
    | .ok (s1, v) => .next (s1.retireX rd v)

/-- An X-form that writes at a supervisor address, which is translated as the hart's own stores are (R291). -/
def State.xrunTo (s : State) (i : Instr) (rd a : Nat) (o : XOut) : Host.Outcome State Fault Refusal :=
  let h := s.hartAt s.hart
  match o with
  | .error _ => s.xrun i rd o
  | .ok _ => if h.mode ≠ 0 ∧ !h.reaches a then .next (s.setHart s.hart (h.trapStore a)) else s.xrun i rd o

/-- A test that fails with a status. -/
def require (b : Bool) (code : Nat) : Except Nat Unit := if b then .ok () else .error code

/-- PASID of a selector or reference. -/
def pasidOf (x : Nat) : Nat := bits x 32 20

/-- The PASID of a task reference whose argument has w bits. -/
def State.taskRef (s : State) (rs2 w : Nat) : Except Nat Nat :=
  if bits rs2 52 12 ≠ 0 ∨ 2 ^ w ≤ rs2 % 2 ^ 32 then .error stOperand
  else if !(s.pasid (pasidOf rs2)).valid then .error stPasid
  else .ok (pasidOf rs2)

/-- The live task that a reference names. -/
def State.findTask (s : State) (rs1 rs2 w : Nat) : Except Nat Nat :=
  match s.taskRef rs2 w with
  | .error c => .error c
  | .ok p => match s.liveTask p rs1 with | some n => .ok n | none => .error stUnknown

/-- A slot or semaphore selector. -/
structure Selector where
  sem   : Nat
  slot  : Nat
  tile  : Nat
  pasid : Nat
  deriving DecidableEq, Repr, Inhabited

/-- Reads a selector; lo is how many of its lowest bits are in use. -/
def selector (x lo : Nat) : Except Nat Selector :=
  if bits x 19 13 ≠ 0 ∨ bits x 52 12 ≠ 0 ∨ 2 ^ lo ≤ x % 256 then .error stOperand
  else .ok { sem := bits x 0 8, slot := bits x 8 2, tile := bits x 10 9, pasid := pasidOf x }

/-- Writes doublewords to supervisor memory. -/
def State.supWrite (s : State) (a : Nat) (dws : List Nat) : State :=
  { s with supmem := ((upto dws.length).zip dws).foldl (fun m (k, v) => Memory.putNat m (a + 8 * k) 8 v) s.supmem }

/-! ### Launches, graphs and jobs (R319, R303) -/

/-- A launch descriptor at a supervisor address (R300). -/
def State.supDws (s : State) (a n : Nat) : List Nat := (upto n).map fun k => Memory.nat s.supmem (a + 8 * k) 8

/-- Creates the launch that a descriptor gives. -/
def State.lnnew (s : State) (a : Nat) : XOut :=
  let d := s.supDws a 4
  let w (k : Nat) := d.getD k 0
  let pasid := pasidOf (w 1)
  if a % 32 ≠ 0 then .error stOperand
  else if !(s.hartAt s.hart).reaches a then .error stUnreadable
  else if bits (w 0) 57 7 ≠ 0 ∨ w 0 % 8 ≠ 0 ∨ bits (w 1) 52 12 ≠ 0 ∨ w 1 % 2 ^ 32 = 0 ∨ bits (w 2) 32 32 ≠ 0 then .error stMalformed
  else if !(s.pasid pasid).valid then .error stPasid
  else
    let graph := (s.entryOf (w 2) true).filter fun g => !(s.launch g).done && (s.launch g).pasid == pasid
    if w 2 ≠ 0 ∧ graph.isNone then .error stUnknown
    else
      match s.newLaunch 0 { pasid := pasid, count := w 1 % 2 ^ 32, cobj := w 0, val := w 3, graph := w 2 } with
      | none => .error stFull
      | some (s1, id) =>
        match graph with
        | some g => .ok (s1.setLaunch g { s1.launch g with count := (s1.launch g).count + 1 }, id)
        | none => .ok (s1, id)

/-- LNNEW: creates a launch. -/
def execLnnew (rd rs1 : Nat) (s : State) : Host.Outcome State Fault Refusal := s.xrun (.lnnew rd rs1) rd (s.lnnew (s.xreg rs1))

/-- The entry of an id in a register. -/
def State.entryRef (s : State) (x : Nat) (graph : Bool) : Except Nat Nat :=
  if 2 ^ 32 ≤ x then .error stOperand else match s.entryOf x graph with | some i => .ok i | none => .error stUnknown

/-- Counter, failed flag and done flag. -/
def Launch.word (l : Launch) : Nat := wordOf [(32, l.count), (1, ofBool l.failed), (1, ofBool l.done)]

/-- LNCNT: reads a launch's counter and flags. -/
def execLncnt (rd rs1 : Nat) (s : State) : Host.Outcome State Fault Refusal :=
  s.xrun (.lncnt rd rs1) rd ((s.entryRef (s.xreg rs1) false).map fun i => (s, (s.launch i).word))

/-- GRCNT: reads a graph's counter and flags. -/
def execGrcnt (rd rs1 : Nat) (s : State) : Host.Outcome State Fault Refusal :=
  s.xrun (.grcnt rd rs1) rd ((s.entryRef (s.xreg rs1) true).map fun i => (s, (s.launch i).word))

/-- Cancels every task of a launch and makes it done. -/
def State.cancelLaunchTasks (s : State) (i : Nat) : State :=
  (s.cancelWhere (·.launchId == (s.launch i).id i)).cancelLaunch i

/-- LNCNCL: cancels a launch. -/
def execLncncl (rd rs1 : Nat) (s : State) : Host.Outcome State Fault Refusal :=
  s.xrun (.lncncl rd rs1) rd
    (match s.entryRef (s.xreg rs1) false with
     | .error c => .error c
     | .ok i => if (s.launch i).done then .error stState else .ok (s.cancelLaunchTasks i, 0))

/-- Cancels every launch of a graph. -/
def State.cancelGraph (s : State) (g : Nat) : State :=
  (s.launches.filter fun (_, l) => l.live && !l.done && !l.isGraph && l.graph == (s.launch g).id g).foldl
    (fun s (i, _) => s.cancelLaunchTasks i) s

/-- GRCNCL: cancels a graph. -/
def execGrcncl (rd rs1 : Nat) (s : State) : Host.Outcome State Fault Refusal :=
  s.xrun (.grcncl rd rs1) rd
    (match s.entryRef (s.xreg rs1) true with
     | .error c => .error c
     | .ok g => if (s.launch g).done then .error stState else .ok (s.cancelGraph g, 0))

/-- The PASID that a register names alone. -/
def State.jobRef (s : State) (x : Nat) : Except Nat Nat :=
  if x % 2 ^ 32 ≠ 0 ∨ bits x 52 12 ≠ 0 then .error stOperand
  else if !(s.pasid (pasidOf x)).valid then .error stPasid
  else .ok (pasidOf x)

/-- JBCNT: the number of live tasks of a PASID. -/
def execJbcnt (rd rs1 : Nat) (s : State) : Host.Outcome State Fault Refusal :=
  s.xrun (.jbcnt rd rs1) rd ((s.jobRef (s.xreg rs1)).map fun p => (s, (s.liveOf p).length))

/-- JBCNCL: cancels a job and ends its halt. -/
def execJbcncl (rd rs1 : Nat) (s : State) : Host.Outcome State Fault Refusal :=
  s.xrun (.jbcncl rd rs1) rd ((s.jobRef (s.xreg rs1)).map fun p => (s.cancelJob p, 0))

/-! ### Semaphores (R320) -/

/-- Where the task of a selector keeps its semaphores: in its slot, or saved from it. -/
inductive SemHome where
  | slot | saved (n : Nat) | none

def State.semHome (s : State) (x : Selector) : SemHome :=
  let here := match (s.slotAt x.tile x.slot).task with | some n => (s.task n).pasid == x.pasid | none => false
  if here then .slot
  else match s.savedFrom x.pasid (slotKey x.tile x.slot) with | [] => .none | l => .saved (l.getD (s.free (2 ^ 35) % l.length) 0)

/-- The count, as the task would find it, and the slot's contents that hold it. -/
def State.semRead (s : State) (x : Selector) : Except Nat (Nat × Ctx) :=
  match s.semHome x with
  | .none => .error stNoTask
  | .slot => let c := (s.slotAt x.tile x.slot).ctx; .ok (c.sem x.sem, c)
  | .saved n => let c := ((s.task n).saved).getD {}; .ok (c.sem x.sem + Map.get 0 (s.task n).remote x.sem, c)

/-- A selector of a semaphore and a 16-bit value. -/
def State.semRef (s : State) (rs1 v : Nat) : Except Nat Selector :=
  match selector rs1 8 with
  | .error c => .error c
  | .ok x => if 2 ^ 16 ≤ v then .error stOperand else if !(s.pasid x.pasid).valid then .error stPasid else .ok x

/-- SEMRD: reads a count. -/
def execSemrd (rd rs1 : Nat) (s : State) : Host.Outcome State Fault Refusal :=
  s.xrun (.semrd rd rs1) rd
    (match s.semRef (s.xreg rs1) 0 with
     | .error c => .error c
     | .ok x => (s.semRead x).map fun (v, _) => (s, v))

/-- Sets a count in a slot, or in a saved task and its frame (R312). -/
def State.semSet (s : State) (x : Selector) (v : Nat) : State :=
  match s.semHome x with
  | .none => s
  | .slot => s.updSlot x.tile x.slot fun y => { y with ctx := y.ctx.setSem x.sem v }
  | .saved n =>
    let t := s.task n
    let s1 := s.setTask n { t with saved := t.saved.map (·.setSem x.sem v), remote := Map.set 0 t.remote x.sem 0 }
    (s1.writeVa t.pasid (t.frame + 0x1000 + 2 * x.sem) 2 v).getD s1

/-- SEMWR: sets a count. -/
def execSemwr (rd rs1 rs2 : Nat) (s : State) : Host.Outcome State Fault Refusal :=
  s.xrun (.semwr rd rs1 rs2) rd
    (match s.semRef (s.xreg rs1) (s.xreg rs2) with
     | .error c => .error c
     | .ok x =>
       match s.semRead x with
       | .error c => .error c
       | .ok (old, c) => if c.ringSem x.sem then .error stRing else .ok (s.semSet x (s.xreg rs2), old))

/-- The status of a signal that is not made. -/
def signalStatus : Cause → Nat
  | .semOverflow => stOverflow | _ => stRing

/-- Would a selector's semaphore be added to after its tests of this cycle (R167)? -/
def State.signalLate (s : State) (o : Except Nat Selector) : Bool := match o with | .ok x => s.testsDone x.tile x.slot [x.sem] | .error _ => false

/-- SEMSIG: adds to a count as a remote SEMS does. Where the cycle's additions are over it is made in a later one. -/
def execSemsig (rd rs1 rs2 : Nat) (s : State) : Host.Outcome State Fault Refusal :=
  let sel := s.semRef (s.xreg rs1) (s.xreg rs2)
  if (s.hartAt s.hart).mode ≠ 0 ∧ s.signalLate sel then .next s else
  s.xrun (.semsig rd rs1 rs2) rd
    (match sel with
     | .error c => .error c
     | .ok x =>
       match s.semRead x, s.signalSlot x.pasid x.tile x.slot x.sem (s.xreg rs2) with
       | .error c, _ => .error c
       | .ok _, none => .error stNoTask
       | .ok _, some (.error e) => .error (signalStatus e)
       | .ok (old, _), some (.ok s1) => .ok (s1, old))

/-! ### Rendezvous points (R320, R183) -/

/-- Key and PASID of a point selector. -/
def State.pointRef (s : State) (x v : Nat) : Except Nat (Nat × Nat) :=
  if bits x 11 21 ≠ 0 ∨ bits x 52 12 ≠ 0 ∨ 2 ^ 16 ≤ v then .error stOperand
  else if !(s.pasid (pasidOf x)).valid then .error stPasid
  else .ok (bits x 6 5 * 64 + bits x 0 6, pasidOf x)

/-- BARINI: gives a point to a PASID, or to none. -/
def execBarini (rd rs1 rs2 : Nat) (s : State) : Host.Outcome State Fault Refusal :=
  s.xrun (.barini rd rs1 rs2) rd
    ((s.pointRef (s.xreg rs1) (s.xreg rs2)).map fun (k, p) =>
      (s.setPoint k (if s.xreg rs2 = 0 then {} else { owner := some p, exp := s.xreg rs2 }), 0))

/-- BARARV: arrives at a point. -/
def execBararv (rd rs1 : Nat) (s : State) : Host.Outcome State Fault Refusal :=
  s.xrun (.bararv rd rs1) rd
    (match s.pointRef (s.xreg rs1) 0 with
     | .error c => .error c
     | .ok (k, p) => if (s.point k).owner = some p then .ok (s.setPoint k (s.point k).arrive, (s.point k).phase) else .error stUnknown)

/-- What BARWT finds: it waits, or ends. -/
def State.barwt (s : State) (x v : Nat) : Option XOut :=
  match s.pointRef x v with
  | .error c => some (.error c)
  | .ok (k, p) =>
    if (s.point k).owner ≠ some p then some (.error stUnknown)
    else if phasePassed (s.point k).phase v then some (.ok (s, (s.point k).phase))
    else none

/-- BARWT: waits at a point; while it waits the hart stays at it. -/
def execBarwt (rd rs1 rs2 : Nat) (s : State) : Host.Outcome State Fault Refusal :=
  match s.barwt (s.xreg rs1) (s.xreg rs2) with
  | some o => s.xrun (.barwt rd rs1 rs2) rd o
  | none => if (s.hartAt s.hart).mode = 0 then .next (s.trapX ((encodeX (.barwt rd rs1 rs2)).getD 0)) else .next s

/-! ### Fault queues and stop records (R321) -/

/-- The head moves over free places, n of them at most. -/
def FaultUnit.advance (u : FaultUnit) : Nat → FaultUnit
  | 0 => u
  | n + 1 =>
    if u.head < u.tail ∧ Map.get false u.freed u.head then
      FaultUnit.advance { u with head := u.head + 1, freed := Map.set false u.freed u.head false } n
    else u

/-- The place of a record is free. -/
def State.freePlace (s : State) (die place : Nat) : State :=
  let u := s.die die
  let u1 := { u with recs := Map.set {} u.recs place {}, freed := Map.set false u.freed place true }
  s.setDie die (u1.advance (u.tail - u.head))

/-- FQPOP: takes the oldest record of the cluster's queue. -/
def execFqpop (rd rs1 : Nat) (s : State) : Host.Outcome State Fault Refusal :=
  let a := s.xreg rs1
  s.xrunTo (.fqpop rd rs1) rd a
    (if a % 64 ≠ 0 then .error stOperand
     else
       match Map.get [] s.faultQueues s.hart with
       | [] => .error stEmpty
       | (d, k) :: l =>
         let s1 := s.supWrite a (Map.get {} (s.die d).recs k).dws
         .ok (({ s1 with faultQueues := Map.set [] s1.faultQueues s.hart l } : State).freePlace d k, l.length))

/-- An item of a die's buffer. -/
def FaultUnit.item (u : FaultUnit) : Nat → Nat
  | 0 => u.head % 2 ^ 64
  | 1 => u.tail % 2 ^ 64
  | 2 => wordOf [(32, u.held.length), (1, ofBool !u.held.isEmpty)]
  | _ => u.base % 2 ^ 57

/-- FBRD: reads an item of a die's fault buffer. -/
def execFbrd (rd rs1 : Nat) (s : State) : Host.Outcome State Fault Refusal :=
  let a := s.xreg rs1
  s.xrun (.fbrd rd rs1) rd
    (if bits a 2 2 ≠ 0 ∨ 64 ≤ a then .error stOperand else .ok (s, (s.die (bits a 0 2)).item (bits a 4 2)))

/-- STOPRD: copies an engine's latest stop record of a slot. -/
def execStoprd (rd rs1 rs2 : Nat) (s : State) : Host.Outcome State Fault Refusal :=
  let a := s.xreg rs2
  s.xrunTo (.stoprd rd rs1 rs2) rd a
    (match selector (s.xreg rs1) 2 with
     | .error c => .error c
     | .ok x =>
       if a % 64 ≠ 0 then .error stOperand
       else
         match ((s.slotAt x.tile x.slot).lane ((Engine.all[x.sem]?).getD .lde)).stop with
         | none => .error stEmpty
         | some f => if f.pasid = x.pasid then .ok (s.supWrite a f.dws, 0) else .error stEmpty)

/-! ### Translation and handles (R322, R126) -/

/-- Invalidates a page, or every page of a PASID. -/
def State.tlbInvalidate (s : State) (pasid va : Nat) (all : Bool) : State :=
  s.shoot (if all then List.filter fun e => e.pasid != pasid else shootPage pasid va)

/-- TLBINV. -/
def execTlbinv (rd rs1 rs2 : Nat) (s : State) : Host.Outcome State Fault Refusal :=
  s.xrun (.tlbinv rd rs1 rs2) rd
    (match s.taskRef (s.xreg rs2) 1 with
     | .error c => .error c
     | .ok p =>
       let all := bitAt (s.xreg rs2) 0
       if !all && s.xreg rs1 % pageBytes != 0 then .error stOperand else .ok (s.tlbInvalidate p (s.xreg rs1) all, 0))

/-- Discards cached descriptors; with all, the PASID's next handle table takes effect. -/
def State.handleInvalidate (s : State) (pasid index : Nat) (all : Bool) : State :=
  let keep (h : HandleCopy) : Bool := !(h.pasid == pasid && (all || h.index == index))
  let s1 : State := { s with tiles := (s.tiles.map fun (k, t) => (k, { t with handles := t.handles.filter keep })).filter fun (_, t) => decide (t ≠ {}) }
  let p := s1.pasid pasid
  match p.hnext with
  | some (b, n) => if all then s1.setPasid pasid { p with htable := b, hcount := n, hnext := none } else s1
  | none => s1

/-- HINV. -/
def execHinv (rd rs1 rs2 : Nat) (s : State) : Host.Outcome State Fault Refusal :=
  let a := s.xreg rs1
  s.xrun (.hinv rd rs1 rs2) rd
    (if 2 ^ 17 ≤ a then .error stOperand
     else (s.taskRef (s.xreg rs2) 0).map fun p => (s.handleInvalidate p (a % 2 ^ 16) (bitAt a 16), 0))

/-! ### Discovery and telemetry (R323, R355, R342) -/

/-- The value of an entry of the capability list. The places of its two extension areas, 0xC0 and 0x100, are the
model's choice (log 11). -/
def State.capValue (s : State) (id : Nat) : Nat :=
  let m := s.mgmt
  match id with
  | 1 => wordOf [(16, 0xC0), (10, numTiles - m.tilesOut.length)]
  | 2 => m.adminRing
  | 3 => m.clocks
  | 4 => m.capacity
  | 5 => m.outOfSvc
  | 6 => m.corrected
  | 7 => wordOf [(16, m.powerLimit), (16, m.draw), (5, m.throttle)]
  | 8 => wordOf [(32, m.firmware.getD 0), (16, m.rollback), (15, 0), (1, ofBool m.ready)]
  | 9 => m.walkerPass
  | _ => wordOf [(16, 0x100)]

/-- Doubleword k of the tiles in service. -/
def State.tileWord (s : State) (k : Nat) : Nat :=
  (upto 64).foldl (fun n j => if s.mgmt.tilesOut.contains (64 * k + j) then n else n + 2 ^ j) 0

/-- A doubleword of the capability space. -/
def State.capWord (s : State) (off : Nat) : Nat :=
  if off < 160 then
    (if off % 16 = 0 then
      wordOf [(16, off / 16 + 1), (8, (Config.capVersion (off / 16 + 1)).toNat), (8, 0), (16, if off = 144 then 0 else off + 16)]
     else s.capValue (off / 16 + 1) % 2 ^ 64)
  else if 0xC0 ≤ off ∧ off < 0x100 then s.tileWord ((off - 0xC0) / 8)
  else if 0x100 ≤ off ∧ off < 0x120 then (s.die ((off - 0x100) / 8)).base % 2 ^ 57
  else 0

/-- CAPRD: reads the capability space. -/
def execCaprd (rd rs1 : Nat) (s : State) : Host.Outcome State Fault Refusal :=
  s.xrun (.caprd rd rs1) rd (if s.xreg rs1 % 8 ≠ 0 then .error stOperand else .ok (s, s.capWord (s.xreg rs1)))

/-- CYCRD: reads the device cycle stamp. -/
def execCycrd (rd : Nat) (s : State) : Host.Outcome State Fault Refusal := s.xrun (.cycrd rd) rd (.ok (s, s.cycle))

/-- THYRD: copies an event; 0 is the newest. -/
def execThyrd (rd rs1 rs2 : Nat) (s : State) : Host.Outcome State Fault Refusal :=
  let a := s.xreg rs2
  s.xrunTo (.thyrd rd rs1 rs2) rd a
    (if 4096 ≤ s.xreg rs1 ∨ a % 32 ≠ 0 then .error stOperand
     else match s.thyme[s.xreg rs1]? with | none => .error stEmpty | some e => .ok (s.supWrite a e.dws, 0))

/-- A parameter of the Percolator (R280). -/
def Percolator.param (p : Percolator) : Nat → Nat
  | 0 => p.promo | 1 => p.demo | 2 => p.decay | 3 => p.sample | 4 => p.lowmark | _ => p.auto

/-- Writes a parameter; a value outside its range is not written. -/
def Percolator.setParam (p : Percolator) (k v : Nat) : Percolator :=
  match k with
  | 0 => if v ≤ 255 then { p with promo := v } else p
  | 1 => if v ≤ 255 then { p with demo := v } else p
  | 2 => if 1 ≤ v ∧ v < 2 ^ 32 then { p with decay := v } else p
  | 3 => if v ≤ 15 then { p with sample := v } else p
  | 4 => if v ≤ 768 then { p with lowmark := v } else p
  | _ => if v ≤ 1 then { p with auto := v } else p

/-- PCLCFG: reads, and unless rs2 is x0 writes, a parameter; in machine mode only. -/
def execPclcfg (rd rs1 rs2 : Nat) (s : State) : Host.Outcome State Fault Refusal :=
  let k := s.xreg rs1
  if (s.hartAt s.hart).mode ≠ 3 ∨ 5 < k then .next (s.trapX ((encodeX (.pclcfg rd rs1 rs2)).getD 0))
  else
    s.xrun (.pclcfg rd rs1 rs2) rd
      (.ok (if rs2 = 0 then s else s.updPerc fun p => p.setParam k (s.xreg rs2), s.perc.param k))

end Sys2Proof.Machine
end

