-- ==== Sys2Proof/Machine/SupervisorTasks.lean ====
section
/-! DEFINITION. The X-form instructions that act on tasks, slots and their control (R318, R323, R335, R337). -/

namespace Sys2Proof.Machine

/-! ### Posting, cancelling, state (R318) -/

/-- TKPOST: posts a record. -/
def execTkpost (rd rs1 rs2 : Nat) (s : State) : Host.Outcome State Fault Refusal :=
  if (s.hartAt s.hart).mode = 0 then .next (s.trapX ((encodeX (.tkpost rd rs1 rs2)).getD 0))
  else
    match s.taskRef (s.xreg rs2) 0 with
    | .error c => .next (s.retireX rd (failWord c))
    | .ok p =>
      let (s1, st) := s.post (some s.hart) p (s.xreg rs1) true false
      .next (s1.retireX rd (if st = 0 then 0 else failWord st))

/-- The status for a reference to no live task: a record that shows complete, cancelled or refused is in no state for
it. -/
def State.goneStatus (s : State) (pasid va : Nat) : Nat :=
  match s.readVa pasid (va + 0x60) 8 with
  | some w => if 7 ≤ bits w 0 4 ∧ bits w 0 4 ≤ 9 then stState else stUnknown
  | none => stUnknown

/-- The live task of a reference, or the status of one that is gone. -/
def State.findOrGone (s : State) (rs1 rs2 : Nat) : Except Nat Nat :=
  match s.taskRef rs2 0 with
  | .error c => .error c
  | .ok p => match s.liveTask p rs1 with | some n => .ok n | none => .error (s.goneStatus p rs1)

/-- TKCNCL: cancels a live task; its launch counts it and is failed. After a TKRSM of the same cycle it fails: the two come at
once (R316, log 49). -/
def execTkcncl (rd rs1 rs2 : Nat) (s : State) : Host.Outcome State Fault Refusal :=
  s.xrun (.tkcncl rd rs1 rs2) rd
    (match s.findOrGone (s.xreg rs1) (s.xreg rs2) with
     | .error c => .error c
     | .ok n =>
       if (s.task n).resumed = s.cycle + 1 then .error stState
       else .ok ((s.cancelTask n).launchFail (s.task n).launchId Cause.cancelled.code, 0))

/-- The state word of a live task. -/
def State.stateWord (s : State) (n : Nat) : Nat :=
  let t := s.task n
  let (tile, slot) := if t.state = .resident ∨ t.state = .parked then (s.slotOf n).getD (0, 0) else (0, 0)
  wordOf [(4, t.state.num), (1, 0), (9, tile), (2, slot), (16, t.depcnt)]

/-- TKSTAT: reads a task's state. -/
def execTkstat (rd rs1 rs2 : Nat) (s : State) : Host.Outcome State Fault Refusal :=
  s.xrun (.tkstat rd rs1 rs2) rd
    ((s.taskRef (s.xreg rs2) 0).map fun p => (s, match s.liveTask p (s.xreg rs1) with | some n => s.stateWord n | none => 0xF))

/-! ### Parking and resuming (R318, R335) -/

/-- A signal of a retired block that could not be made. -/
structure LateFault where
  eng   : Engine
  block : Nat
  cause : Cause
  deriving DecidableEq, Repr, Inhabited

/-- An issued block is retired: its slot clears, its ring slots go back, its signals are added. -/
def Ctx.retireEntry (c : Ctx) (e : Engine) (k : Nat) : Ctx × List LateFault :=
  match (c.chain e).inflight[k]? with
  | none => (c, [])
  | some f =>
    let h := c.chain e
    let c1 := c.setChain e { h with inflight := h.inflight.eraseIdx k, lastBlk := f.addr, lastCtr := ctrOf f.instr f.ctr,
                                    stop := if c.step && h.stepBusy then .stepped else h.stop, stepBusy := false }
    let (c2, b1) := c1.releaseSlots f.taken
    let (c3, b2) := c2.addSignals (Ctl.signals (ctlOf f.instr))
    (c3, (b1.toList ++ b2.toList).map fun x => { eng := e, block := f.addr, cause := x })

/-- The address after a block and its signals, as far as its fetch went: after its first sector the header is known; of a
block that could not be read at all neither is, it signals nothing, and long says which of the two forms it was (log 19). -/
def Queued.header (q : Queued) (long : Bool) : Nat × List (Nat × Nat) :=
  let b := decodeLBlk q.words
  if q.words.isEmpty then (if long then q.addr + 128 else q.addr + 32, [])
  else if szOf (dwAt q.words 0) = 0 then (q.addr + 32, Ctl.signals b.c)
  else (if b.lk = 1 then nearTarget q.addr b.next else q.addr + 128, Ctl.signals b.c)

/-- The block that faulted before it issued is retired: the chain goes on after it. -/
def Ctx.retireHead (c : Ctx) (e : Engine) (q : Queued) (long : Bool) : Ctx × List LateFault :=
  let (next, signals) := q.header long
  let c1 := c.setChain e { c.chain e with cursor := next, passBrk := false, report := none }
  let (c2, b) := c1.addSignals signals
  (c2, b.toList.map fun x => { eng := e, block := q.addr, cause := x })

/-- A parked engine goes on: its faulting block runs its iteration again, or with SKIP the block that wrote its PARK record
is retired. long: see Queued.header. -/
def Ctx.resumeChain (c : Ctx) (e : Engine) (skip long : Bool) : Ctx × List LateFault :=
  let h := c.chain e
  if h.stop ≠ .parked then (c, [])
  else
    let raised := match h.refusal with | some v => v.raised | none => false
    let go (h : Chain) : Chain := { h with stop := if h.stop = .parked then .running else h.stop, queue := [] }
    if raised then (c.setChain e { go h with refusal := none }, [])
    else
      match h.inflight.findIdx? (·.parked), h.headParked, h.queue, skip with
      | some k, _, _, true =>
        let (c1, l) := c.retireEntry e k
        (c1.setChain e (go (c1.chain e)), l)
      | none, true, q :: _, true =>
        let (c1, l) := c.retireHead e q long
        (c1.setChain e (go (c1.chain e)), l)
      | _, _, _, _ => (c.setChain e { go h with inflight := h.inflight.map fun f => if f.phase = .parked then { f with phase := .run } else f }, [])

def Ctx.resume (c : Ctx) (skip long : Bool) : Ctx × List LateFault :=
  Engine.all.foldl (fun (c, l) e => let (c1, l1) := c.resumeChain e skip long; (c1, l ++ l1)) (c, [])

/-- A late fault of a task that holds no slot: its record, and the halt of its job. -/
def State.lateFault (s : State) (n : Nat) (f : LateFault) : State :=
  let t := s.task n
  let place := t.place.getD 0
  (s.emitRecord (dieOf (place / 4)) (clusterOf (place / 4))
    { pasid := t.pasid, tile := place / 4, slot := place % 4, eng := f.eng.num, disp := f.cause.disp, cause := f.cause.code, task := t.va,
      block := f.block }).raiseHalt t.pasid f.cause.code t.va

/-- Makes a parked task saved, or ready where nothing of it has been saved: so also a ready task that TKPARK has parked before its
first dispatch, for which R318 gives no state (DESIGN CHOICE, log 41). -/
def State.resumeTask (s : State) (n : Nat) (skip : Bool) : State :=
  let s0 := s.updTask n fun t => { t with resumed := s.cycle + 1 }
  match (s.task n).saved with
  | none => s0.setTaskState n .ready
  | some c =>
    let (c1, l) := c.resume skip (s.freeBit 0)
    l.foldl (fun s f => s.lateFault n f) ((s0.updTask n fun t => { t with saved := some c1 }).setTaskState n .saved)

/-- TKRSM: resumes a parked task that is not held in place. -/
def execTkrsm (rd rs1 rs2 : Nat) (s : State) : Host.Outcome State Fault Refusal :=
  s.xrun (.tkrsm rd rs1 rs2) rd
    (match s.findTask (s.xreg rs1) (s.xreg rs2) 1 with
     | .error c => .error c
     | .ok n =>
       if (s.task n).state ≠ .parked ∨ (s.slotOf n).isSome then .error stState
       else .ok (s.resumeTask n (bitAt (s.xreg rs2) 0), 0))

/-- May a task be parked or saved where it is resident? -/
def State.movable (s : State) (n tile slot : Nat) : Bool :=
  (s.task n).state == .resident && !(s.slotAt tile slot).inPlace && !(s.slotAt tile slot).cancelled && (s.jobOf tile slot).runs

/-- Does a TKPARK of a task wait at its pc? The task leaves its slot, so it waits for a block that is never stopped within
(R291, R333), unless its record is held and the task parks in its slot (R329). -/
def State.parkWaits (s : State) (task arg : Nat) : Bool :=
  match s.findOrGone task arg with
  | .error _ => false
  | .ok n =>
    match s.slotOf n with
    | some (tile, slot) => s.movable n tile slot && !s.wouldHold (dieOf tile) && s.saveWaits tile slot
    | none => false

/-- TKPARK: a resident task parks with a record, a ready or saved one without. -/
def execTkpark (rd rs1 rs2 : Nat) (s : State) : Host.Outcome State Fault Refusal :=
  if (s.hartAt s.hart).mode ≠ 0 ∧ s.parkWaits (s.xreg rs1) (s.xreg rs2) then .next s
  else
  s.xrun (.tkpark rd rs1 rs2) rd
    (match s.findOrGone (s.xreg rs1) (s.xreg rs2) with
     | .error c => .error c
     | .ok n =>
       match s.slotOf n with
       | some (tile, slot) =>
         if !s.movable n tile slot then .error stState
         else
           let s1 := s.schedulerFault tile slot .parkedBySupervisor 0 0
           .ok (if (s1.slotAt tile slot).inPlace then s1 else s1.saveTask tile slot .parked, 0)
       | none => if (s.task n).state.waits then .ok (s.setTaskState n .parked, 0) else .error stState)

/-! ### Contexts (R318) -/

/-- CTXSV: saves a resident task. It waits at its pc for a block that is never stopped within (R333). A save that meets a
fault in the frame halts the job (R297), one in which a block faults parks the task: the form has made its save and gives 0
(log 18). -/
def execCtxsv (rd rs1 rs2 : Nat) (s : State) : Host.Outcome State Fault Refusal :=
  if (s.hartAt s.hart).mode = 0 then .next (s.trapX ((encodeX (.ctxsv rd rs1 rs2)).getD 0))
  else
    match s.findTask (s.xreg rs1) (s.xreg rs2) 0 with
    | .error c => .next (s.retireX rd (failWord c))
    | .ok n =>
      match s.slotOf n with
      | none => .next (s.retireX rd (failWord stState))
      | some (tile, slot) =>
        if !s.movable n tile slot || (s.slotAt tile slot).parking then .next (s.retireX rd (failWord stState))
        else if s.saveWaits tile slot then .next s
        else .next ((s.saveTask tile slot .saved).retireX rd 0)

/-- CTXRS: puts a ready or saved task into a named slot. -/
def execCtxrs (rd rs1 rs2 : Nat) (s : State) : Host.Outcome State Fault Refusal :=
  s.xrun (.ctxrs rd rs1 rs2) rd
    (match s.findTask (s.xreg rs1) (s.xreg rs2) 11 with
     | .error c => .error c
     | .ok n =>
       let tile := bits (s.xreg rs2) 0 9
       let slot := bits (s.xreg rs2) 9 2
       if !(s.task n).state.waits || !(s.pasid (s.task n).pasid).runs then .error stState
       else if (s.slotAt tile slot).task.isSome then .error stOccupied
       else if !(s.task n).allows (clusterOf tile) then .error stAffinity
       else if s.mgmt.tilesOut.contains tile then .error stOperand
       else .ok (s.placeTask n tile slot, 0))

/-! ### Control (R323, R337) -/

/-- STEPCTL on one chain: a stopped engine issues one block, or with off runs freely; a breakpoint is passed by the engine
that met it. own: the engine's stop is of its own block. -/
def Chain.release (h : Chain) (on own : Bool) : Chain :=
  let go : Chain := { h with stop := .running, stepBusy := false, stepDue := on,
                             inflight := h.inflight.map fun f => if f.phase = .parked then { f with phase := .run } else f }
  match h.stop with
  | .breakpoint => { go with passBrk := own && h.inflight.all fun f => f.phase != .parked }
  | .stepped => go
  | _ => if on then h else { h with stepBusy := false, stepDue := false }

def Ctx.stepctl (c : Ctx) (on : Bool) (own : Engine → Bool) : Ctx := { c.updChains fun e h => h.release on (own e) with step := on }

/-- Is an engine's latest stop that of its own block (ORIG of R331)? -/
def State.ownStop (s : State) (n : Nat) (e : Engine) : Bool :=
  match s.slotOf n with
  | some (tile, slot) => match ((s.slotAt tile slot).lane e).stop with | some f => f.orig | none => true
  | none => true

/-- STEPCTL: single-step of a live task. -/
def execStepctl (rd rs1 rs2 : Nat) (s : State) : Host.Outcome State Fault Refusal :=
  s.xrun (.stepctl rd rs1 rs2) rd
    ((s.findTask (s.xreg rs1) (s.xreg rs2) 1).map fun n =>
      let on := bitAt (s.xreg rs2) 0
      ((s.updTaskCtx n fun c => c.stepctl on (s.ownStop n)).updTask n fun t => { t with stepped := on }, ofBool (s.isStepped n)))

/-- WDSET: sets a slot's watchdog limit, in force from the next counter reset. -/
def execWdset (rd rs1 rs2 : Nat) (s : State) : Host.Outcome State Fault Refusal :=
  let v := s.xreg rs2
  s.xrun (.wdset rd rs1 rs2) rd
    (match selector (s.xreg rs1) 0 with
     | .error c => .error c
     | .ok x =>
       if 2 ^ 32 ≤ v ∨ x.pasid ≠ 0 then .error stOperand
       else
         let y := s.slotAt x.tile x.slot
         .ok (s.setSlot x.tile x.slot { y with wdLimit := if v = 0 then 2 ^ 32 else v }, y.wdLimit % 2 ^ 32))

/-- The remaining budget of a live task. -/
def State.budgetOf (s : State) (n : Nat) : Option Int :=
  match s.ctxOf n with | some c => c.budget | none => ((s.task n).budget).getD (s.task n).fullBudget

/-- A budget as BUDSET returns it. -/
def budgetWord (b : Option Int) : Nat := match b with | none => 2 ^ 63 - 1 | some v => v.toNat

/-- Sets the budget of a task, in its slot or its frame. One not yet dispatched shows it, and fills it from its record at its
first dispatch (R306, log 23). -/
def State.setBudget (s : State) (n units : Nat) : State :=
  let b : Option Int := if units = 0 then none else some ((units * 1024 : Nat) : Int)
  let s1 := s.updTaskCtx n fun c => { c with budget := b }
  let t := s.task n
  if t.saved.isSome then (s1.writeVa t.pasid (t.frame + 0x10) 8 (budgWord b)).getD s1
  else if (s.ctxOf n).isNone then s1.updTask n fun t => { t with budget := some b }
  else s1

/-- BUDSET: sets a task's remaining budget. -/
def execBudset (rd rs1 rs2 : Nat) (s : State) : Host.Outcome State Fault Refusal :=
  s.xrun (.budset rd rs1 rs2) rd
    ((s.findTask (s.xreg rs1) (s.xreg rs2) 32).map fun n => (s.setBudget n (s.xreg rs2 % 2 ^ 32), budgetWord (s.budgetOf n)))

end Sys2Proof.Machine
end

