-- ==== Sys2Proof/Machine/Administration.lean ====
section
/-! DEFINITION. The administrative queue (R352 to R354): PASIDs and their teardown (R340), queues (R343, R345), granules
(R111), model slots (R351), firmware and attestation (R357, R358). -/

namespace Sys2Proof.Machine

/-! ### Commands -/

/-- An ADMIN packet of a command. -/
def isCommand (cmd : Nat) (dws : List Nat) : Bool := packetType dws == 8 && packetCmd dws == cmd

/-- The step of one command of queue 0: one that has started and can end ends, else the next packet starts. -/
def adminStep (s : State) (ty : List Nat → Bool) (run : State → Nat → List Nat → State)
    (finish : State → Nat → List Nat → Option State := fun _ _ _ => none) : Host.Outcome State Fault Refusal :=
  match ((s.queue 0).started.filter fun p => ty p.dws).findSome? fun p => finish s p.index p.dws with
  | some s1 => .next s1
  | none => packetStep 0 s ty run

/-- A command completes with a value. -/
def State.adminDone (s : State) (i v : Nat) (dws : List Nat) : State := s.endPacket 0 i v dws

/-- A command fails with 0x341 or 0x342. -/
def State.adminFail (s : State) (i : Nat) (c : Cause) (dws : List Nat) : State := s.failPacket 0 i c.code dws

def State.adminBad (s : State) (i : Nat) (dws : List Nat) : State := s.adminFail i .malformedPacket dws

/-! ### PASIDs (R353, R354) -/

/-- The address of a root table (R267): the tier in bits [61:60], a multiple of 2 MiB in bits [47:0]. Its other bits have no
meaning in the spec, and a nonzero one is refused (DESIGN CHOICE, log 8). -/
def rootOk (a : Nat) : Bool := decide (bits a 60 2 ≤ 1) && bits a 62 2 == 0 && bits a 48 12 == 0 && a % 2 ^ 21 == 0

/-- A handle table's VA and count. -/
def tableOk (va n : Nat) : Bool := decide (va < vaLimit) && va % 64 == 0 && decide (n ≤ 2 ^ 16)

def runPasnew (s : State) (i : Nat) (dws : List Nat) : State :=
  let p := pw dws 1
  if !isCommand 1 dws || p == 0 || decide (2 ^ 20 ≤ p) || (s.pasid p).valid || !rootOk (pw dws 2) || !tableOk (pw dws 3) (pw dws 4) then s.adminBad i dws
  else (s.setPasid p { valid := true, root := pw dws 2, htable := pw dws 3, hcount := pw dws 4 }).adminDone i 0 dws

/-- PASNEW: creates a context entry. A reserved command completes with 0x341. -/
def execPasnew (s : State) : Host.Outcome State Fault Refusal :=
  adminStep s (fun d => isCommand 1 d || (packetType d == 8 && (packetCmd d == 0 || decide (12 < packetCmd d)))) runPasnew

def runHset (s : State) (i : Nat) (dws : List Nat) : State :=
  let p := pw dws 1
  if !(s.pasid p).valid || !tableOk (pw dws 2) (pw dws 3) then s.adminBad i dws
  else (s.setPasid p { s.pasid p with hnext := some (pw dws 2, pw dws 3) }).adminDone i 0 dws

/-- HSET: a handle table that takes effect with the next HINV of all (R322). -/
def execHset (s : State) : Host.Outcome State Fault Refusal := adminStep s (isCommand 5) runHset

/-! ### Teardown (R340, R290) -/

/-- A packet that never started completes with 0x340. -/
def State.endUnstarted (s : State) (q idx : Nat) (dws : List Nat) : State :=
  let x := s.queue q
  (s.setQueue q { x with started := x.started ++ [{ index := idx, dws := dws }] }).failPacket q idx Cause.queueTerminated.code dws

/-- A queue dies: its packets that have not started, and a WAIT under way where a job ends, complete with 0x340. ring: packets
that are not held are read, and one whose slot is not valid completes too, with no object to write (R354); where a job ends they
are dropped, and the queue itself completes with 0x340 (R340). -/
def State.killQueue (s : State) (q : Nat) (ring : Bool) : State :=
  let s0 := if ring then s.rereadQueue q else s
  let x := s0.queue q
  let s1 := s0.setQueue q { x with live := false, lstat := if ring then x.lstat else Cause.queueTerminated.code }
  let rest := ((upto (x.tail - x.head)).map (x.head + ·)).filterMap fun i =>
    match x.packet i with | some d => some (i, d) | none => if ring then some (i, []) else none
  let s2 := rest.foldl (fun s (i, d) => s.endUnstarted q i d) s1
  let s3 := s2.setQueue q { s2.queue q with fetched := [] }
  if ring then s3 else (x.started.filter (·.wait)).foldl (fun s p => s.failPacket q p.index Cause.queueTerminated.code p.dws) s3

/-- The queues of a PASID. -/
def State.queuesOf (s : State) (p : Nat) : List Nat := (s.queues.filter fun (_, x) => x.present && x.pasid == p).map (·.1)

/-- One queue of a PASID ends, with its record on D0. -/
def State.endQueue (s : State) (p q : Nat) : State :=
  let s1 := if (s.queue q).live then s.killQueue q false else s
  s1.noteRecord 0 { pasid := p, cause := Cause.queueTerminated.code, remain := q, fva := (s.queue q).ring }

/-- Records of a PASID: the held ones are dropped, those in cluster queues leave them and their places are free. -/
def State.dropRecords (s : State) (p : Nat) : State :=
  let mine (d k : Nat) : Bool := (Map.get {} (s.die d).recs k).pasid == p
  let gone := s.faultQueues.flatMap fun (_, l) => l.filter fun (d, k) => mine d k
  let s1 : State := { s with
    dies := s.dies.map fun (d, u) => (d, { u with held := u.held.filter fun (_, f) => f.pasid != p }),
    faultQueues := (s.faultQueues.map fun (c, l) => (c, l.filter fun (d, k) => !mine d k)).filter fun (_, l) => !l.isEmpty }
  gone.foldl (fun s (d, k) => s.freePlace d k) s1

/-- Migrations of a PASID's pages abort, and its requests go. -/
def State.endMoves (s : State) (p : Nat) : State :=
  let s1 := s.updPerc fun x => { x with queue := x.queue.filter fun q => q.pasid != p, aborts := x.aborts.filter fun q => q.who.pasid != p }
  (s1.perc.motions.filter fun m => m.pasid == p && m.state == .moving).foldl (fun s m => s.abortMotion p m.va 4) s1

/-- Forked accesses of a PASID that have not reached a home may be dropped; which is open (log 2). -/
def State.dropForks (s : State) (p : Nat) : State :=
  let keep (j : Nat) (l : List Access) : List Access :=
    ((upto l.length).zip l).filterMap fun (k, a) => if s.freeBit (2 ^ 34 * (j + 1) + k) then some a else none
  { s with forks := ((upto s.forks.length).zip s.forks).filterMap fun (j, f) =>
      if f.pasid ≠ p then some f
      else
        match f.kind with
        | .mem fl he => if (keep (2 * j) fl ++ keep (2 * j + 1) he).isEmpty then none else some { f with kind := .mem (keep (2 * j) fl) (keep (2 * j + 1) he) }
        | .spawn .. => none }

/-- The accesses a tile has under way are those of its forks. -/
def State.recount (s : State) : State :=
  let n (t : Nat) : Nat := (s.forks.map fun f => match f.kind with | .mem fl _ => if f.ref.tile = t then fl.length else 0 | .spawn .. => 0).sum
  { s with tiles := (s.tiles.map fun (k, t) => (k, { t with accesses := n k })).filter fun (_, t) => decide (t ≠ {}) }

def runPasdel (s : State) (i : Nat) (dws : List Nat) : State :=
  let p := pw dws 1
  if p = 0 ∨ !(s.pasid p).valid then s.adminBad i dws
  else
    let s1 := (s.queuesOf p).foldl (fun s q => s.endQueue p q) s
    (((s1.endMoves p).cancelJob p).dropForks p).recount

/-- Nothing of a PASID is under way: no task holds a slot, no fork, no migration. -/
def State.quiet (s : State) (p : Nat) : Bool :=
  !(s.slots.any fun (_, x) => match x.task with | some n => (s.task n).pasid == p | none => false) &&
  !(s.forks.any fun f => f.pasid == p) && !(s.perc.motions.any fun m => m.pasid == p)

/-- Granules of a PASID have no owner. -/
def State.releaseGranules (s : State) (p : Nat) : State := { s with granules := s.granules.filter fun (_, o) => decide (o ≠ p) }

/-- The last steps of a teardown. -/
def State.endPasid (s : State) (p : Nat) : State :=
  let s1 := ((s.dropRecords p).dropPoints p).tlbInvalidate p 0 true
  ((s1.handleInvalidate p 0 true).releaseGranules p).setPasid p {}

/-- A teardown under way: tasks posted meanwhile are cancelled too; it ends when nothing of the PASID is left. -/
def finishPasdel (s : State) (i : Nat) (dws : List Nat) : Option State :=
  let p := pw dws 1
  if !(s.liveOf p).isEmpty then some (s.cancelJob p)
  else if s.quiet p then some ((s.endPasid p).adminDone i 0 dws)
  else none

/-- PASDEL: tears a PASID down. -/
def execPasdel (s : State) : Host.Outcome State Fault Refusal := adminStep s (isCommand 2) runPasdel finishPasdel

/-! ### Queues (R343 to R345) -/

/-- The queue that an image of 32 doublewords gives (R343), with its QID. -/
def queueOf (w : Nat → Nat) : Queue × Nat :=
  ({ present := true, splice := bitAt (w 0) 63, live := bitAt (w 0) 62, ring := bits (w 1) 0 57, pasid := pasidOf (w 2), prio := bits (w 2) 8 3,
     log := bits (w 2) 0 5, headva := bits (w 5) 0 57, rej := bits (w 7) 32 32, lstat := bits (w 7) 0 10 }, bits (w 2) 16 16)

/-- The ranges of an image's fields (R343). Reserved fields are ignored (R2). -/
def queueImageOk (w : Nat → Nat) : Bool :=
  let (x, q) := queueOf w
  x.ring % 64 == 0 && decide (3 ≤ x.log) && decide (x.log ≤ 20) && x.headva % 8 == 0 && decide (q < 4096)

/-- Is the queue state block that an image names one that has left its run list, with fewer than two passes of the walker
since (R345)? -/
def State.blockInUse (s : State) (dws : List Nat) : Bool :=
  match s.readDws 0 (pw dws 1) 32 with
  | none => false
  | some ws =>
    let x := s.queue (queueOf fun k => ws.getD k 0).2
    !x.present && x.removed != 0 && decide (s.mgmt.walkerPass + 1 < x.removed + 2)

/-- Step 3 of R345: the last of the queues before a place in a run list has its SPLICE cleared. -/
def State.endSplice (s : State) (before : List Nat) : State :=
  match before.getLast? with
  | none => s
  | some p => s.setQueue p { s.queue p with splice := false }

/-- Copies an image into its queue state block and puts it in its run list. -/
def insertQueue (s : State) (i : Nat) (dws : List Nat) : State :=
  match s.readDws 0 (pw dws 1) 32 with
  | none => s.adminBad i dws
  | some ws =>
    let (x, q) := queueOf fun k => ws.getD k 0
    let old := s.queue q
    if !queueImageOk (fun k => ws.getD k 0) || x.pasid == 0 || !(s.pasid x.pasid).valid || old.present || !old.started.isEmpty then s.adminBad i dws
    else
      let s1 := (s.setQueue q x).endSplice (Map.get [] s.runLists x.prio)
      ({ s1 with runLists := Map.upd [] s1.runLists x.prio (· ++ [q]) } : State).adminDone i q dws

/-- A removed queue state block is used again only after two passes of the walker: until then the command waits. -/
def runQnew (s : State) (i : Nat) (dws : List Nat) : State := if s.blockInUse dws then s else insertQueue s i dws

def finishQnew (s : State) (i : Nat) (dws : List Nat) : Option State := if s.blockInUse dws then none else some (insertQueue s i dws)

/-- QNEW: a queue at the tail of the run list of its priority. -/
def execQnew (s : State) : Host.Outcome State Fault Refusal := adminStep s (isCommand 3) runQnew finishQnew

def runQdel (s : State) (i : Nat) (dws : List Nat) : State :=
  let q := pw dws 1
  let x := s.queue q
  if q = 0 ∨ 4096 ≤ q ∨ !x.present then s.adminBad i dws
  else
    let s1 := if x.live then s.killQueue q true else s
    let l := Map.get [] s.runLists x.prio
    let next := match l.findIdx? (· == q) with | some k => (l[k + 1]?).map (· + 1) | none => none
    let s2 := (s1.setQueue q { s1.queue q with present := false, nextq := next.getD 0, removed := s.mgmt.walkerPass + 1 }).endSplice
      (l.takeWhile (· != q))
    ({ s2 with runLists := Map.upd [] s2.runLists x.prio (·.filter (· != q)) } : State).adminDone i 0 dws

/-- QDEL: a queue dies and leaves its run list. The three writes of R345 are one step. -/
def execQdel (s : State) : Host.Outcome State Fault Refusal := adminStep s (isCommand 4) runQdel

/-! ### GRANT (R111) -/

/-- The pool, first flat byte and number of granules that a GRANT names (R354), none where they do not exist: kind 0 is the
cluster pools and 1 the die pools (log 12). -/
def grantRange (dws : List Nat) : Option (Place × Nat × Nat) :=
  let unit := pw dws 2
  let first := pw dws 3
  let n := pw dws 4
  match pw dws 1 with
  | 0 => if unit < numClusters ∧ first + n ≤ cpBytes / granuleBytes then some (.clusterPool, unit * cpBytes + first * granuleBytes, n) else none
  | 1 => if unit < numDies ∧ first + n ≤ dpBytes / granuleBytes then some (.diePool, unit * dpBytes + first * granuleBytes, n) else none
  | _ => none

/-- The pool accesses of iterations that have begun are performed; what they return waits for their block's completion. -/
def State.settleEntry (s : State) (r : EngRef) (k : Nat) : State :=
  match (s.chain r).inflight[k]? with
  | none => s
  | some f =>
    let pool (a : Access) : Bool := a.place == .clusterPool || a.place == .diePool
    let (s1, rets, bad) := s.performAll (f.homes.filter pool)
    let s2 := s1.updEntry r k fun f => { f with writes := f.writes ++ rets, homes := f.homes.filter fun a => !pool a }
    match bad with
    | none => s2
    | some e => s2.takeFault r f.addr e e.cause.disp false

def State.settlePools (s : State) : State :=
  s.slots.foldl (fun s (k, _) =>
    Engine.all.foldl (fun s e =>
      let r := engRef (k / 4) (k % 4) e
      (upto (s.chain r).inflight.length).foldl (fun s j => s.settleEntry r j) s) s) s

/-- The bytes of one granule become zero. -/
def State.zeroGranule (s : State) (p : Place) (a : Nat) : State :=
  let cut (m : Memory) : Memory := m.filter fun (b, _) => decide (b < a ∨ a + granuleBytes ≤ b)
  let clean (k : Nat) : Bool := (upto (granuleBytes / 8)).any fun j => poisonKey p (a / 8 + j) == k
  let s1 : State := { s with poison := s.poison.filter fun (k, _) => !clean k }
  match p with
  | .clusterPool => { s1 with clusterPool := cut s1.clusterPool }
  | .diePool => { s1 with diePool := cut s1.diePool }
  | _ => s1

/-- One granule goes to a PASID, or to none; it is zeroed before it goes to another than that whose values it holds. -/
def State.grantOne (s : State) (p : Place) (a owner : Nat) : State :=
  let key := granuleKey p a
  let s1 := if owner ≠ 0 ∧ Map.get 0 s.granuleFrom key ≠ owner then s.zeroGranule p a else s
  { s1 with granules := Map.set 0 s1.granules key owner, granuleFrom := if owner = 0 then s1.granuleFrom else Map.set 0 s1.granuleFrom key owner }

def runGrant (s : State) (i : Nat) (dws : List Nat) : State :=
  let owner := pw dws 5
  match grantRange dws with
  | none => s.adminBad i dws
  | some (p, a, n) =>
    let held (k : Nat) : Bool :=
      let key := granuleKey p (a + k * granuleBytes)
      Map.get false s.granulesOut key && Map.get 0 s.granuleFrom key != owner
    if owner ≠ 0 ∧ (!(s.pasid owner).valid ∨ (upto n).any held) then s.adminBad i dws
    else ((upto n).foldl (fun s k => s.grantOne p (a + k * granuleBytes) owner) s.settlePools).adminDone i 0 dws

/-- GRANT: granules change owner. One out of service is never handed to another PASID (R338): the command is malformed
(log 12). -/
def execGrant (s : State) : Host.Outcome State Fault Refusal := adminStep s (isCommand 6) runGrant

/-! ### Model slots (R351, R57) -/

/-- Is the present invocation of a model slot not done? -/
def State.modelBusy (s : State) (m : Model) : Bool := match m.inst with | some id => (s.liveLaunch id).isSome | none => false

/-- First word of an object's header. -/
def objectMagic : Nat := 0x4C4E4D31

/-- A section of an object: its kind, in the order of R61 from 1, its place and size in bytes. -/
structure Section where
  kind : Nat
  off  : Nat
  size : Nat
  deriving DecidableEq, Repr, Inhabited

/-- The sections an object lists after its header. DESIGN CHOICE (log 51): R61 gives the fields of the header and no widths or places. The
header is two doublewords, the magic and the version, then the section count in 32 bits and the resident slot in 16; each
section follows as three doublewords, kind, offset and size. -/
def State.objectSections (s : State) (va n : Nat) : Option (List Section) :=
  (s.readDws 0 (va + 16) (3 * n)).map fun l =>
    (upto n).map fun k => { kind := l.getD (3 * k) 0, off := l.getD (3 * k + 1) 0, size := l.getD (3 * k + 2) 0 }

/-- Offsets are 8-byte aligned, chain heads and task records 128-byte aligned (R61). DESIGN CHOICE (log 51): a section whose
size is no multiple of 8 breaks the layout. -/
def Section.ok (x : Section) : Bool :=
  inRange 1 8 x.kind && x.off % 8 == 0 && x.size % 8 == 0 &&
  (if x.kind = 1 then x.off % 128 == 0 else if x.kind = 2 then x.off % 128 == 0 && x.size % 128 == 0 else if x.kind = 7 then x.size % 24 == 0 else true)

/-- The doublewords of a section of an image. -/
def Section.dws (x : Section) (img : List Nat) : List Nat := (img.drop (x.off / 8)).take (x.size / 8)

/-- One relocation entry (R61) on an image placed at a VA: the field patched, none where a target leaves the block's span of
256 TiB or breaks the entry's kind. at_: its offset; key: its kind and symbol; targets: the offsets that symbols name. -/
def relocateField (base : Nat) (targets img : List Nat) (at_ key addend : Nat) : Option (List Nat) :=
  match targets[key / 2 ^ 32]?, img[at_ / 8]? with
  | some t, some old =>
    let v := (base + t + addend) % 2 ^ 64
    let near : Bool := bits v 48 9 == bits (base + at_) 48 9
    let low := setNth img (at_ / 8) (putField old 0 48 (v % 2 ^ 48))
    if at_ % 8 ≠ 0 then none
    else
      match key % 2 ^ 32 with
      | 1 => some (setNth img (at_ / 8) v)
      | 2 => if near && v % 32 == 0 then some low else none
      | 3 => if near then some low else none
      | _ => none
  | _, _ => none

/-- Applies relocation entries of three doublewords each. -/
def relocateAll (base : Nat) (targets : List Nat) : List Nat → List Nat → Option (List Nat)
  | at_ :: key :: addend :: l, img => (relocateField base targets img at_ key addend).bind (relocateAll base targets l)
  | _, img => some img

/-- Every second doubleword of a list: of a symbol, a name and the offset it stands for (log 51). -/
def secondOnes : List Nat → List Nat
  | _ :: b :: l => b :: secondOnes l
  | _ => []

/-- Where the load puts an object of a size: a VA and a frame of the memory kept for its slot, both of them open (R351, logs 2
and 51). -/
def State.loadBase (s : State) (size : Nat) : Nat := s.free 0 % (2 ^ 41 + 1 - (size + 65535) / 65536) * 65536
def State.loadFrame (s : State) (slot size : Nat) : Nat :=
  objectBase slot + s.free 1 % (objectBytes / 65536 + 1 - (size + 65535) / 65536) * 65536

/-- An image goes to LPDDR5X memory, and takes the poison of the sectors it covers (R164). -/
def State.placeImage (s : State) (a : Nat) (img : List Nat) : State :=
  ({ s with lpddr := ((upto img.length).zip img).foldl (fun m (k, v) => Memory.putNat m (a + 8 * k) 8 v) s.lpddr } : State).cleanSectors
    (.tier .lpddr) a (8 * img.length)

/-- LOADING AN OBJECT (R61, R351): it is read, its relocations are applied for the place it is given, and it is put there, in
memory kept for loaded objects, which is no PASID's (R6). The state, and the VAs of its task records; none where the object
breaks its layout. DESIGN CHOICE (log 51): an object of more than 4,096 sections, or that is larger than the 64 MiB of its
slot, breaks it too. -/
def State.loadObject (s : State) (va slot version : Nat) : Option (State × List Nat) :=
  match s.readVa 0 va 8, s.readVa 0 (va + 8) 8 with
  | some h0, some h1 =>
    if h0 % 2 ^ 32 ≠ objectMagic ∨ h0 / 2 ^ 32 ≠ version ∨ bits h1 32 16 ≠ slot ∨ bits h1 32 16 = 0xFFFF ∨ 4096 < bits h1 0 32 then none
    else
      match s.objectSections va (bits h1 0 32) with
      | none => none
      | some l =>
        let size := (l.map fun x => x.off + x.size).foldl max 0
        if !l.all Section.ok ∨ objectBytes < size then none
        else
          match s.readDws 0 va (size / 8) with
          | none => none
          | some img =>
            let part (k : Nat) : List Nat := (l.filter (·.kind == k)).flatMap (·.dws img)
            (relocateAll (s.loadBase size) (secondOnes (part 8)) (part 7) img).map fun img1 =>
              (s.placeImage (s.loadFrame slot size) img1, (l.filter (·.kind == 2)).flatMap fun x => (upto (x.size / 128)).map fun j => s.loadBase size + x.off + 128 * j)
  | _, _ => none

def runMload (s : State) (i : Nat) (dws : List Nat) : State :=
  let k := pw dws 1
  if 256 ≤ k ∨ 2 ^ 32 ≤ pw dws 3 then s.adminBad i dws
  else
    match s.loadObject (pw dws 2) k (pw dws 3) with
    | none => s.adminBad i dws
    | some (s1, tasks) =>
      if s.modelBusy (s.model k) then s.adminFail i .residencyCheck dws
      else (s1.setModel k { loaded := true, version := pw dws 3, object := pw dws 2, tasks := tasks }).adminDone i 0 dws

/-- MLOAD: loads an object into a slot. -/
def execMload (s : State) : Host.Outcome State Fault Refusal := adminStep s (isCommand 7) runMload

/-- Unloads a slot whose invocation is done. -/
def finishMunld (s : State) (i : Nat) (dws : List Nat) : Option State :=
  if s.modelBusy (s.model (pw dws 1)) then none else some ((s.setModel (pw dws 1) {}).adminDone i 0 dws)

def runMunld (s : State) (i : Nat) (dws : List Nat) : State :=
  if 256 ≤ pw dws 1 then s.adminBad i dws
  else if !(s.model (pw dws 1)).loaded then s.adminFail i .residencyCheck dws
  else (finishMunld s i dws).getD s

/-- MUNLD: unloads a slot, once its invocation is done. -/
def execMunld (s : State) : Host.Outcome State Fault Refusal := adminStep s (isCommand 8) runMunld finishMunld

/-! ### The dump buffer, firmware, attestation (R341, R357, R358) -/

def runDumpreg (s : State) (i : Nat) (dws : List Nat) : State :=
  if 2 ^ 48 < pw dws 1 + pw dws 2 then s.adminBad i dws
  else ({ s with mgmt := { s.mgmt with dump := some (pw dws 1, pw dws 2) } } : State).adminDone i 0 dws

/-- DUMPREG: registers the buffer of the device dump. -/
def execDumpreg (s : State) : Host.Outcome State Fault Refusal := adminStep s (isCommand 9) runDumpreg

/-- What verifying an image finds: its layout is not given, so its version and the verdict on it are open (log 2). -/
def State.someImage (s : State) : Image := { version := s.free 0 % 2 ^ 32, genuine := s.freeBit 1 }

/-- The boot ROM accepts an image (R357). -/
def Management.accepts (m : Management) (x : Image) : Bool := x.genuine && decide (m.rollback ≤ x.version)

def runFwupd (s : State) (i : Nat) (dws : List Nat) : State :=
  if (s.readVa 0 (pw dws 1) 8).isNone || !s.mgmt.accepts s.someImage then s.adminBad i dws
  else ({ s with mgmt := { s.mgmt with nextImage := some s.someImage } } : State).adminDone i 0 dws

/-- FWUPD: stores a verified image for the next warm reset. -/
def execFwupd (s : State) : Host.Outcome State Fault Refusal := adminStep s (isCommand 10) runFwupd

/-- Writes doublewords at VAs of a PASID, one after another; none where one of them cannot be written. -/
def State.writeDws (s : State) (pasid va : Nat) : List Nat → Option State
  | [] => some s
  | v :: l => (s.writeVa pasid va 8 v).bind fun s1 => s1.writeDws pasid (va + 8) l

/-- n open doublewords. -/
def State.freeDws (s : State) (key n : Nat) : List Nat := (upto n).map fun k => s.free (key + k)

/-- The live PASIDs. -/
def State.livePasids (s : State) : List Nat := (s.pasids.filter fun (_, p) => p.valid).map (·.1)

/-- THE REPORT OF R358 in doublewords: the nonce, the firmware's digest and version, the rollback counter, the capability
list's digest, the live PASIDs after their count, the signature. The digests and the 2,420 bytes of the signature are open (log
2). DESIGN CHOICE (log 52): their widths and their order. -/
def State.report (s : State) (nonce : List Nat) : List Nat :=
  nonce ++ s.freeDws (2 ^ 76) 4 ++ [s.mgmt.firmware.getD 0, s.mgmt.rollback] ++ s.freeDws (2 ^ 76 + 4) 4 ++
  (s.livePasids.length :: s.livePasids) ++ s.freeDws (2 ^ 76 + 8) 302 ++ [s.free (2 ^ 76 + 310) % 2 ^ 32]

def runAttest (s : State) (i : Nat) (dws : List Nat) : State :=
  match s.readDws 0 (pw dws 1) 4 with
  | none => s.adminBad i dws
  | some nonce =>
    match s.writeDws 0 (pw dws 2) (s.report nonce) with
    | none => s.adminBad i dws
    | some s1 => s1.adminDone i 0 dws

/-- ATTEST: a signed report. A nonce that cannot be read and a report that cannot be written are malformed (log 52). -/
def execAttest (s : State) : Host.Outcome State Fault Refusal := adminStep s (isCommand 11) runAttest

/-! ### Reset (R341, R342, R356, R357) -/

/-- Every reset runs the boot ROM: firmware runs, or the module waits for an image. -/
def Management.boot (m : Management) (x : Image) : Management :=
  if m.accepts x then { m with image := x, firmware := some x.version, ready := true } else { m with image := x, firmware := none, ready := false }

/-- What a tile keeps through a warm reset: its banks out of service (R114). -/
def Tile.keepBanks (t : Tile) : Tile := { banksOut := t.banksOut, parityOut := t.parityOut }

/-- The tiles as a reset leaves them: in hashed mode while their start-up self-test runs, which it may still do after the
reset's step (R115, log 2). -/
def State.selfTest (s : State) (tiles : List (Nat × Tile)) : List (Nat × Tile) :=
  if s.freeBit (2 ^ 77) then (upto numTiles).map fun k => (k, { Map.get {} tiles k with hashed := true }) else tiles

/-- A WARM RESET: memory, the cycle stamp, the Thyme buffer and what is out of service stay (log 13). -/
def State.warm (s : State) : State :=
  let m0 : Management := { State.reset.mgmt with
    tilesOut := s.mgmt.tilesOut, adminRing := s.mgmt.adminRing, bar0 := s.mgmt.bar0, clocks := s.mgmt.clocks, capacity := s.mgmt.capacity,
    outOfSvc := s.mgmt.outOfSvc, corrected := s.mgmt.corrected, rollback := s.mgmt.rollback, dumps := s.mgmt.dumps, notified := s.mgmt.notified,
    warmResets := s.mgmt.warmResets + 1, resetCycle := s.cycle, msix := s.mgmt.msix, reserve := s.mgmt.reserve, frames := s.mgmt.frames }
  let s1 : State := { State.reset with
    agenda := s.agenda, steps := s.steps, ref := s.ref, hart := s.hart, cycle := s.cycle, hbm := s.hbm, lpddr := s.lpddr, cxl := s.cxl, host := s.host,
    clusterPool := s.clusterPool, diePool := s.diePool, supmem := s.supmem, poison := s.poison, granuleFrom := s.granuleFrom, granulesOut := s.granulesOut, thyme := s.thyme,
    tiles := s.selfTest ((s.tiles.map fun (k, t) => (k, t.keepBanks)).filter fun (_, t) => decide (t ≠ {})),
    perc := { State.reset.perc with decayEnd := (s.cycle + State.reset.perc.decay * 65536) % 2 ^ 64 },
    queues := [(0, { present := true, live := true, log := 6, ring := s.mgmt.adminRing })],
    mgmt := m0.boot (s.mgmt.nextImage.getD s.mgmt.image) }
  s1.log { time := s.cycle, kind := 0x41, data := s.mgmt.warmResets + 1 }

/-- Every live task of the module is cancelled. -/
def State.cancelAll (s : State) : State := ((s.pasids.filter fun (_, p) => p.valid).map (·.1)).foldl State.cancelJob s

/-- The module holds no live task and no slot is occupied. -/
def State.idle (s : State) : Bool := !(s.tasks.any fun (_, t) => t.state.live) && !(s.slots.any fun (_, x) => x.task.isSome)

def finishWreset (s : State) (i : Nat) (dws : List Nat) : Option State :=
  if s.tasks.any fun (_, t) => t.state.live then some s.cancelAll
  else if s.idle then some (s.adminDone i 0 dws).warm
  else none

/-- WRESET: cancels every live task, then resets the module. -/
def execWreset (s : State) : Host.Outcome State Fault Refusal := adminStep s (isCommand 12) (fun s _ _ => s.cancelAll) finishWreset

end Sys2Proof.Machine
end

