-- ==== Sys2Proof/Machine/VectorMask.lean ====
section
/-! DEFINITION. Class 5, vector masks, reductions and permutations (R221 to R234). -/

namespace Sys2Proof.Machine

/-- Runs a form's body over its block. -/
def runVec (i : Instr) (b : LBlk) (body : Body) (s : State) : State := s.runBlock (vecBehaviour i b body) i

/-! ### Compares and mask algebra -/

/-- VCMP (R222): 1 where the floating-point condition of OPX holds. -/
def execVcmp (b : LBlk) (s : State) : Host.Outcome State Fault Refusal :=
  .next (runElem (.vcmp b) b 10 true false (fun x z _ => ofBool (fcmp b.opx ((fmtOf b.fmt).value x) ((fmtOf b.fmt).value z))) s)

/-- VICMP (R222): 1 where the integer condition of OPX holds. -/
def execVicmp (b : LBlk) (s : State) : Host.Outcome State Fault Refusal :=
  .next (runElem (.vicmp b) b 10 true false (fun x z _ => ofBool (icmp b.opx (fmtWidth b.fmt) x z)) s)

/-- A selector mask, of the length it has. -/
def selectorSeq (s : State) (r : EngRef) (b : LBlk) : Runs := mapRuns (· % 2) ((s.ctx r).vreg b.mreg).runs

def vselBody (b : LBlk) : Body := fun s r f k =>
  match operandSeq s r f b.a b.fmt (b.counters k) with
  | .error e => .error e
  | .ok (a, h1) =>
    match operandSeq s r f b.b b.fmt (b.counters k) with
    | .error e => .error e
    | .ok (v, h2) =>
      let m := selectorSeq s r b
      let n := m.total
      if (a.total = n ∨ a.total = 1) ∧ (v.total = n ∨ v.total = 1) then
        finishPlain s r b b.fmt (b.counters k)
          (mapRuns (fun ((x, z), on) => if on = 1 then x else z) (alignRuns (alignRuns (broadcast n a) (broadcast n v)) m)) (h1 ++ h2)
      else bad .lengthMismatch

/-- VSEL (R223): A where the selector holds 1, B elsewhere. -/
def execVsel (b : LBlk) (s : State) : Host.Outcome State Fault Refusal := .next (runVec (.vsel b) b (vselBody b) s)

/-- VMAND (R224). -/
def execVmand (b : LBlk) (s : State) : Host.Outcome State Fault Refusal :=
  .next (runElem (.vmand b) b b.fmt true false (fun x z _ => andN x z) s)

/-- VMOR (R224). -/
def execVmor (b : LBlk) (s : State) : Host.Outcome State Fault Refusal :=
  .next (runElem (.vmor b) b b.fmt true false (fun x z _ => orN x z) s)

/-- VMXOR (R224). -/
def execVmxor (b : LBlk) (s : State) : Host.Outcome State Fault Refusal :=
  .next (runElem (.vmxor b) b b.fmt true false (fun x z _ => xorN x z) s)

/-- VMNOT (R224). -/
def execVmnot (b : LBlk) (s : State) : Host.Outcome State Fault Refusal :=
  .next (runElem (.vmnot b) b b.fmt false false (fun x _ _ => 1 - x) s)

/-! ### Reductions -/

/-- A's elements with their filter flags (R225). -/
def filtered (s : State) (r : EngRef) (f : InFlight) (b : LBlk) (k : Nat) : Except BlockFault (List ((Nat × Bool) × Nat) × Hot) :=
  match operandSeq s r f b.a b.fmt (b.counters k) with
  | .error e => .error e
  | .ok (a, h) =>
    match maskSeq s r b a.total with
    | .error e => .error e
    | .ok m => .ok (mapRuns (fun (v, on) => (v, on == 1)) (alignRuns a (maskOr a.total m)), h)

/-- A reduction: one element computed from the contribution runs (value, count, start). -/
def reduceBody (b : LBlk) (tag : Nat) (F : List (Nat × Nat × Nat) → Nat) : Body := fun s r f k =>
  match filtered s r f b k with
  | .error e => .error e
  | .ok (l, h) => finishPlain s r b tag (b.counters k) [(F (contribRuns l), 1)] h

/-- VMCNT (R224): the number of set positions. -/
def execVmcnt (b : LBlk) (s : State) : Host.Outcome State Fault Refusal :=
  .next (runVec (.vmcnt b) b (reduceBody b 8 fun l => ((l.filter (·.1 == 1)).map (·.2.1)).sum) s)

/-- VMFST (R224): the least set position. -/
def execVmfst (b : LBlk) (s : State) : Host.Outcome State Fault Refusal :=
  .next (runVec (.vmfst b) b (reduceBody b 8 fun l => ((l.find? (·.1 == 1)).map (·.2.2)).getD 0xFFFFFFFF) s)

/-- v times a count, exactly. -/
def timesCount (f : FFmt) (v c : Nat) : FVal := FVal.mul (f.value v) (FVal.ofInt c)

/-- VRSUM's value (R226): one rounding a run. -/
def runSum (f g : FFmt) (rm : Nat) (sat : Bool) : List (Nat × Nat × Nat) → Nat
  | [] => 0
  | (v, c, _) :: l =>
    l.foldl (fun acc (v, c, _) => g.fl rm sat (FVal.add rm (g.value acc) (timesCount f v c))) (g.fl rm sat (timesCount f v c))

/-- VRSUM (R226). -/
def execVrsum (b : LBlk) (s : State) : Host.Outcome State Fault Refusal :=
  .next (runVec (.vrsum b) b (reduceBody b b.dfmt (runSum (fmtOf b.fmt) (fmtOf b.dfmt) b.rm (b.sat == 1))) s)

/-- VRISUM (R227): exact products, wrapped or clamped a run. -/
def execVrisum (b : LBlk) (s : State) : Host.Outcome State Fault Refusal :=
  .next (runVec (.vrisum b) b (reduceBody b b.dfmt fun l =>
    l.foldl (fun acc (v, c, _) => wrapClamp b.dfmt (b.sat == 1) (intVal b.dfmt acc + intVal b.fmt v * c)) 0) s)

/-- The larger or smaller of two elements in the order of R227. -/
def pick (fmt : Nat) (greatest : Bool) (x y : Nat) : Nat :=
  match floatOf fmt with
  | some f => if greatest then f.maxNum x y else f.minNum x y
  | none => if decide (intVal fmt x < intVal fmt y) == greatest then y else x

/-- What VRMAX or VRMIN gives without a contribution run. -/
def pickNone (fmt : Nat) (greatest : Bool) : Nat :=
  match floatOf fmt with
  | some f => f.nanCode
  | none => wrapTo (fmtWidth fmt) (if greatest then intMin fmt else intMax fmt)

def extremeOf (fmt : Nat) (greatest : Bool) (l : List (Nat × Nat × Nat)) : Nat :=
  l.foldl (fun acc (v, _, _) => pick fmt greatest acc v) (pickNone fmt greatest)

/-- VRMAX (R227). -/
def execVrmax (b : LBlk) (s : State) : Host.Outcome State Fault Refusal :=
  .next (runVec (.vrmax b) b (reduceBody b b.fmt (extremeOf b.fmt true)) s)

/-- VRMIN (R227). -/
def execVrmin (b : LBlk) (s : State) : Host.Outcome State Fault Refusal :=
  .next (runVec (.vrmin b) b (reduceBody b b.fmt (extremeOf b.fmt false)) s)

/-- Is an element a NaN of a float format? -/
def isNanElem (fmt v : Nat) : Bool := match floatOf fmt with | some f => (f.value v).isNan | none => false

/-- VRARG's position (R227). -/
def argOf (fmt : Nat) (greatest : Bool) (l : List (Nat × Nat × Nat)) : Nat :=
  let best := extremeOf fmt greatest l
  ((l.find? fun (v, _, _) => !isNanElem fmt v && v == best).map (·.2.2)).getD 0xFFFFFFFF

/-- VRARG (R227): OPX 0 the maximum, 1 the minimum. -/
def execVrarg (b : LBlk) (s : State) : Host.Outcome State Fault Refusal :=
  .next (runVec (.vrarg b) b (reduceBody b 8 (argOf b.fmt (b.opx == 0))) s)

/-- VRCNT (R227). -/
def execVrcnt (b : LBlk) (s : State) : Host.Outcome State Fault Refusal :=
  .next (runVec (.vrcnt b) b (reduceBody b 8 List.length) s)

/-! ### Scans (R228) -/

/-- Values of a scan over one contribution run of c elements, and the last. -/
def scanRun (b : LBlk) (acc : Option Nat) (v c : Nat) : Runs × Nat :=
  match b.opx, floatOf b.fmt with
  | 0, some f =>
    let at_ (j : Nat) : Nat :=
      match acc with
      | none => f.fl b.rm (b.sat == 1) (timesCount f v (j + 1))
      | some t => f.fl b.rm (b.sat == 1) (FVal.add b.rm (f.value t) (timesCount f v (j + 1)))
    (runsOf ((upto c).map at_), at_ (c - 1))
  | 0, none =>
    let l := (upto c).foldl (fun (st : List Nat × Nat) _ =>
      let y := wrapClamp b.fmt (b.sat == 1) (intVal b.fmt st.2 + intVal b.fmt v)
      (y :: st.1, y)) ([], acc.getD 0)
    (runsOf l.1.reverse, l.2)
  | k, _ =>
    let y := match acc with | none => pick b.fmt (k == 2) (pickNone b.fmt (k == 2)) v | some t => pick b.fmt (k == 2) t v
    ([(y, c)], y)

/-- The scan over contribution runs; positions between them take 0. -/
def scanFrom (b : LBlk) (n : Nat) : Nat → Option Nat → List (Nat × Nat × Nat) → Runs
  | p, _, [] => if p < n then [(0, n - p)] else []
  | p, acc, (v, c, q) :: l =>
    let (y, t) := scanRun b acc v c
    (if p < q then [(0, q - p)] else []) ++ y ++ scanFrom b n (q + c) (some t) l

def scanBody (b : LBlk) : Body := fun s r f k =>
  match filtered s r f b k with
  | .error e => .error e
  | .ok (l, h) =>
    let n := (l.map (·.2)).sum
    finishVec s r b b.fmt n (b.counters k) (scanFrom b n 0 none (contribRuns l)) h

/-- VSCAN (R228): OPX 0 add, 1 minimum, 2 maximum. -/
def execVscan (b : LBlk) (s : State) : Host.Outcome State Fault Refusal := .next (runVec (.vscan b) b (scanBody b) s)

/-! ### Compress, expand, gather (R229, R230) -/

def compBody (b : LBlk) : Body := fun s r f k =>
  match operandSeq s r f b.a b.fmt (b.counters k) with
  | .error e => .error e
  | .ok (a, h) =>
    let m := selectorSeq s r b
    if m.total ≠ a.total then bad .lengthMismatch
    else finishPlain s r b b.fmt (b.counters k)
      ((alignRuns a m).filterMap fun ((v, on), n) => if on = 1 then some (v, n) else none) h

/-- VCOMP (R229). -/
def execVcomp (b : LBlk) (s : State) : Host.Outcome State Fault Refusal := .next (runVec (.vcomp b) b (compBody b) s)

/-- Deals the elements of A out to the marked positions. -/
def dealRuns (a : Runs) : Runs → Runs
  | [] => []
  | (on, n) :: m => if on = 1 then takeRuns a n ++ dealRuns (dropRuns a n) m else (0, n) :: dealRuns a m

/-- Ones of a mask. -/
def onesOf (m : Runs) : Nat := ((m.filter (·.1 == 1)).map (·.2)).sum

def expdBody (b : LBlk) : Body := fun s r f k =>
  match operandSeq s r f b.a b.fmt (b.counters k) with
  | .error e => .error e
  | .ok (a, h) =>
    let m := selectorSeq s r b
    let ones := onesOf m
    if ones ≠ 0 ∧ a.total ≠ ones ∧ a.total ≠ 1 then bad .lengthMismatch
    else finishVec s r b b.fmt m.total (b.counters k) (dealRuns (broadcast ones a) m) h

/-- VEXPD (R229). -/
def execVexpd (b : LBlk) (s : State) : Host.Outcome State Fault Refusal := .next (runVec (.vexpd b) b (expdBody b) s)

/-- Gathers a run of one index. -/
def gatherAt (a : Runs) (x : Nat) : Nat := if x = 0xFFFFFFFF then 0 else a.at_ x

/-- The position of the first index out of range. -/
def badIndex (len : Nat) : Nat → Runs → Option Nat
  | _, [] => none
  | p, (x, n) :: l => if len ≤ x ∧ x ≠ 0xFFFFFFFF then some p else badIndex len (p + n) l

def gathBody (b : LBlk) : Body := fun s r f k =>
  match operandSeq s r f b.a b.fmt (b.counters k) with
  | .error e => .error e
  | .ok (a, h1) =>
    match operandSeq s r f b.b 8 (b.counters k) with
    | .error e => .error e
    | .ok (x, h2) =>
      elementFault ((badIndex a.total 0 x).map fun j => { cause := .lengthMismatch, remain := j })
        (finishVec s r b b.fmt x.total (b.counters k) (mapRuns (gatherAt a) x) (h1 ++ h2))

/-- VGATH (R230). -/
def execVgath (b : LBlk) (s : State) : Host.Outcome State Fault Refusal := .next (runVec (.vgath b) b (gathBody b) s)

/-! ### Coalescing (R231) -/

def rcoBody (b : LBlk) : Body := fun s r f k =>
  match operandSeq s r f b.a b.fmt (b.counters k) with
  | .error e => .error e
  | .ok (a, h) => finishPlain s r b b.fmt (b.counters k) a h

/-- VRCO (R231). -/
def execVrco (b : LBlk) (s : State) : Host.Outcome State Fault Refusal := .next (runVec (.vrco b) b (rcoBody b) s)

/-- Is |x - ref| at most t, exactly? -/
def within (fmt x ref t : Nat) : Bool :=
  match floatOf fmt with
  | some f =>
    let d := FVal.add rmRNE (f.value x) (FVal.neg (f.value ref))
    !d.isNan && !FVal.lt (f.value t) (if d.isNeg then FVal.neg d else d)
  | none => decide ((intVal fmt x - intVal fmt ref).natAbs ≤ t)

def coalesce (fmt t : Nat) : Nat → Runs → Runs
  | _, [] => []
  | ref, (x, n) :: l => if x = ref ∨ within fmt x ref t then (ref, n) :: coalesce fmt t ref l else (x, n) :: coalesce fmt t x l

def rcotBody (b : LBlk) : Body := fun s r f k =>
  match operandSeq s r f b.a b.fmt (b.counters k) with
  | .error e => .error e
  | .ok (a, h1) =>
    match operandSeq s r f b.b b.fmt (b.counters k) with
    | .error e => .error e
    | .ok (t, h2) =>
      if t.total ≠ 1 then bad .lengthMismatch
      else
        let tol := (t.headD (0, 1)).1
        if badTol b.fmt tol then bad .badTolerance
        else finishPlain s r b b.fmt (b.counters k) (coalesce b.fmt tol (a.headD (0, 1)).1 a) (h1 ++ h2)

/-- VRCOT (R231). -/
def execVrcot (b : LBlk) (s : State) : Host.Outcome State Fault Refusal := .next (runVec (.vrcot b) b (rcotBody b) s)

/-! ### Top-k, histogram, dot product (R232 to R234) -/

/-- Does x come before y in VTOPK's descending order? -/
def aheadOf (fmt x y : Nat) : Bool :=
  match floatOf fmt with
  | some f => FVal.below (f.value y) (f.value x)
  | none => decide (intVal fmt y < intVal fmt x)

/-- Inserts a contribution run behind those not below it. -/
def insertRun (fmt : Nat) (x : Nat × Nat × Nat) : List (Nat × Nat × Nat) → List (Nat × Nat × Nat)
  | [] => [x]
  | y :: l => if aheadOf fmt x.1 y.1 then x :: y :: l else y :: insertRun fmt x l

/-- Positions in descending order of value, ties ascending. -/
def topPositions (fmt : Nat) (l : List (Nat × Nat × Nat)) : List Nat :=
  let sorted := (l.filter fun (v, _, _) => !isNanElem fmt v).foldl (fun acc x => insertRun fmt x acc) []
  sorted.flatMap fun (_, c, q) => (upto c).map (· + q)

def topkBody (b : LBlk) : Body := fun s r f k =>
  match filtered s r f b k with
  | .error e => .error e
  | .ok (l, h) =>
    match lengthOperand s r f b k with
    | .error e => .error e
    | .ok n => finishPlain s r b 8 (b.counters k) (((topPositions b.fmt (contribRuns l)).take n).map fun p => (p, 1)) h

/-- VTOPK (R232). -/
def execVtopk (b : LBlk) (s : State) : Host.Outcome State Fault Refusal := .next (runVec (.vtopk b) b (topkBody b) s)

def histBody (b : LBlk) : Body := fun s r f k =>
  match filtered s r f b k with
  | .error e => .error e
  | .ok (l, h) =>
    match lengthOperand s r f b k with
    | .error e => .error e
    | .ok n =>
      let cs := contribRuns l
      finishPlain s r b b.fmt (b.counters k) ((upto n).map fun j => (((cs.filter (·.1 == j)).map (·.2.1)).sum, 1)) h

/-- VHIST (R233). -/
def execVhist (b : LBlk) (s : State) : Host.Outcome State Fault Refusal := .next (runVec (.vhist b) b (histBody b) s)

/-- The product of two elements of a float format or L6 (R70, R73). -/
def floatTerm (fmt x y : Nat) : FVal :=
  match floatOf fmt with
  | some f => FVal.mul (f.value x) (f.value y)
  | none => l6Mul x y

/-- Adds one term to an FP32 or INT32 accumulator (R73, R74). -/
def accTerm (fmt : Nat) (sat : Bool) (acc x y : Nat) : Nat :=
  if isSignedFmt fmt then wrapClamp 4 sat (intVal 4 acc + intVal fmt x * intVal fmt y)
  else fp32.fl rmRNE false (FVal.add rmRNE (fp32.value acc) (floatTerm fmt x y))

def repeatTerm (fmt : Nat) (sat : Bool) (x y : Nat) : Nat → Nat → Nat
  | 0, acc => acc
  | n + 1, acc => repeatTerm fmt sat x y n (accTerm fmt sat acc x y)

/-- VDOT's iteration. Its filter has the result length n, also where A has length 1 and is broadcast (R197), where R221 gives a
filter A's length: the model's reading (DEDUCED, log 29). -/
def dotBody (b : LBlk) : Body := fun s r f k =>
  match operandSeq s r f b.a b.fmt (b.counters k) with
  | .error e => .error e
  | .ok (a, h1) =>
    match operandSeq s r f b.b b.fmt (b.counters k) with
    | .error e => .error e
    | .ok (v, h2) =>
      match resultLen [a.total, v.total] with
      | none => bad .lengthMismatch
      | some n =>
        match maskSeq s r b n with
        | .error e => .error e
        | .ok m =>
          let y := (alignRuns (alignRuns (broadcast n a) (broadcast n v)) (maskOr n m)).foldl
            (fun acc (((x, z), on), c) => if on = 1 then repeatTerm b.fmt (b.sat == 1) x z c acc else acc) 0
          finishPlain s r b b.dfmt (b.counters k) [(y, 1)] (h1 ++ h2)

/-- VDOT (R234). -/
def execVdot (b : LBlk) (s : State) : Host.Outcome State Fault Refusal := .next (runVec (.vdot b) b (dotBody b) s)

end Sys2Proof.Machine
end

