-- ==== Sys2Proof/Machine/Conversion.lean ====
section
/-! DEFINITION. Class 6, conversions (R77 to R85). -/

namespace Sys2Proof.Machine

/-- FCVT (R78): fl(a) in DFMT. -/
def execFcvt (b : LBlk) (s : State) : Host.Outcome State Fault Refusal :=
  .next (runElem (.fcvt b) b b.dfmt false false (fun x _ _ => (fmtOf b.dfmt).fl b.rm (b.sat == 1) ((fmtOf b.fmt).value x)) s)

/-- FCVTI (R79): a rounded to an integer and clamped. -/
def execFcvti (b : LBlk) (s : State) : Host.Outcome State Fault Refusal :=
  .next (runElem (.fcvti b) b b.dfmt false false (fun x _ _ => fvalToInt b.dfmt b.rm ((fmtOf b.fmt).value x)) s)

/-- ICVTF (R80): fl(a) of an integer. -/
def execIcvtf (b : LBlk) (s : State) : Host.Outcome State Fault Refusal :=
  .next (runElem (.icvtf b) b b.dfmt false false (fun x _ _ => (fmtOf b.dfmt).fl b.rm (b.sat == 1) (FVal.ofInt (intVal b.fmt x))) s)

/-- An integer or BOOL element in another such format (R81). -/
def icvt (fmt dfmt : Nat) (sat : Bool) (x : Nat) : Nat :=
  if dfmt = 10 then ofBool (intVal fmt x != 0) else wrapClamp dfmt sat (intVal fmt x)

/-- ICVT (R81). -/
def execIcvt (b : LBlk) (s : State) : Host.Outcome State Fault Refusal :=
  .next (runElem (.icvt b) b b.dfmt false false (fun x _ _ => icvt b.fmt b.dfmt (b.sat == 1) x) s)

/-- LGENC (R82): floats to L6. -/
def execLgenc (b : LBlk) (s : State) : Host.Outcome State Fault Refusal :=
  .next (runElem (.lgenc b) b b.dfmt false false (fun x _ _ => l6OfFp32 (toFp32 (fmtOf b.fmt) x)) s)

/-- LGDEC (R82): L6 to FP32. -/
def execLgdec (b : LBlk) (s : State) : Host.Outcome State Fault Refusal :=
  .next (runElem (.lgdec b) b b.dfmt false false (fun x _ _ => l6ToFp32 x) s)

/-- A scale is a positive normal FP32 value (R83). -/
def scaleOk (x : Nat) : Bool := decide (0x00800000 ≤ x) && decide (x < 0x7F800000)

/-- The position of the first scale that is not. -/
def badScaleAt : Nat → Runs → Option Nat
  | _, [] => none
  | p, (x, n) :: l => if scaleOk x then badScaleAt (p + n) l else some p

/-- A form with a scale: F of an element and its scale (R83). The scale is read as FP32 (R77); a sign modifier on it follows FMT,
as R220 has an operand's format be FMT but for the index of VGATH: R77 and R220 leave open which of the two formats a modifier of
this operand takes (DESIGN CHOICE, log 29). -/
def scaledBody (b : LBlk) (F : Nat → Nat → Nat) : Body := fun s r f k =>
  match operandSeq s r f b.a b.fmt (b.counters k) with
  | .error e => .error e
  | .ok (a, h1) =>
    match operandSeq s r f b.b 1 (b.counters k) b.fmt with
    | .error e => .error e
    | .ok (v, h2) =>
      let n := a.total
      if v.total ≠ n ∧ v.total ≠ 1 then bad .lengthMismatch
      else
        elementFault ((badScaleAt 0 v).map fun p => { cause := .badScale, remain := p })
          (finishVec s r b b.dfmt n (b.counters k) (mapRuns (fun (x, z) => F x z) (alignRuns a (broadcast n v))) (h1 ++ h2))

/-- QNT (R83). -/
def execQnt (b : LBlk) (s : State) : Host.Outcome State Fault Refusal :=
  .next (runVec (.qnt b) b (scaledBody b fun x z => fvalToInt b.dfmt b.rm (FVal.mul ((fmtOf b.fmt).value x) (fp32.value z))) s)

/-- DQNT (R83). -/
def execDqnt (b : LBlk) (s : State) : Host.Outcome State Fault Refusal :=
  .next (runVec (.dqnt b) b (scaledBody b fun x z =>
    (fmtOf b.dfmt).fl b.rm (b.sat == 1) (FVal.mul (FVal.ofInt (intVal b.fmt x)) (fp32.value z))) s)

def pk4Body (b : LBlk) : Body := fun s r f k =>
  match operandSeq s r f b.a b.fmt (b.counters k) with
  | .error e => .error e
  | .ok (a, h) =>
    let n := b.d.count
    if a.total ≠ n ∧ a.total ≠ 1 then bad .lengthMismatch
    else storeWindow s r b 7 (b.counters k) (mapRuns (icvt b.fmt 7 (b.sat == 1)) (broadcast n a)) h

/-- PK4 (R85): integers packed into a pool window of INT4. -/
def execPk4 (b : LBlk) (s : State) : Host.Outcome State Fault Refusal := .next (runVec (.pk4 b) b (pk4Body b) s)

/-- UPK4 (R85): a pool window of INT4 unpacked. -/
def execUpk4 (b : LBlk) (s : State) : Host.Outcome State Fault Refusal :=
  .next (runElem (.upk4 b) b b.dfmt false false (fun x _ _ => icvt 7 b.dfmt false x) s)

/-- FCLASS (R84). -/
def execFclass (b : LBlk) (s : State) : Host.Outcome State Fault Refusal :=
  .next (runElem (.fclass b) b b.dfmt false false (fun x _ _ => fclass (fmtOf b.fmt) x) s)

end Sys2Proof.Machine
end

