-- ==== Sys2Proof/Machine/Matrix.lean ====
section
/-! DEFINITION. Class 7, matrix: the step forms (R239 to R246), moving cells (R247), the drain epilogue (R248 to
R250). -/

namespace Sys2Proof.Machine

/-! ### Accumulator windows -/

/-- Is every cell of an ac window, over the whole nest, in the slot's 64 by 64 (R34)? Rows and columns are affine. -/
def cellsInFile (b : LBlk) (x : Desc) : Bool :=
  let nest := [(b.b0, x.st0), (b.b1, x.st1), (b.b2, x.st2), (b.b3, x.st3)]
  let dir := bits x.base 12 2
  let dr : Int := if dir = 0 then 0 else 1
  let dk : Int := if dir = 1 then 0 else if dir = 3 then -1 else 1
  let inside (start : Nat) (steps : List (Nat × Int)) : Bool :=
    let lo := steps.foldl (fun (a : Int) (n, t) => a + spanLo n t) start
    let hi := steps.foldl (fun (a : Int) (n, t) => a + spanHi n t) start
    decide (0 ≤ lo) && decide (hi ≤ 63)
  inside (bits x.base 0 6) (nest.map (fun (n, t) => (n, signed 16 t)) ++ [(x.ext2, signed 8 x.aux), (x.seg, dr)]) &&
  inside (bits x.base 6 6) (nest.map (fun (n, t) => (n, signed 16 (t / 65536))) ++ [(x.ext2, signed 8 (x.aux / 256)), (x.seg, dk)])

/-- A ring operand over the medium a form needs (R238). -/
def ringOver (s : State) (r : EngRef) (x : Desc) (space : Nat) : Bool :=
  x.space != spRq ||
  match (s.ctx r).ring x.base with
  | some g => (match (s.ctx r).region g.reg with | some reg => reg.space == space | none => false)
  | none => false

/-- The checks of class 7 at issue: rings, cells in the file, distinct D cells of an accumulating form (R34,
R238, R239). -/
def matCheck (i : Instr) (b : LBlk) (s : State) (r : EngRef) : Except BlockFault (Option Handle) :=
  let ac (x : Desc) : Bool := x.space != spAc || cellsInFile b x
  if !ringOver s r b.a spTp || !ringOver s r b.b spWb then bad .ringMisuse
  else if !ac b.a || !ac b.d then bad .footprint
  else if isAccumulating i && decide (¬ (cellsAt b.d (0, 0, 0, 0)).Nodup) then bad .shapeMismatch
  else .ok none

def runMat (i : Instr) (b : LBlk) (body : Body) (s : State) : State := s.runBlock { check := matCheck i b, body := body } i

/-! ### The step forms -/

/-- Adds an exact product to an FP32 accumulator (R73). -/
def macFloat (acc : Nat) (p : FVal) : Nat := fp32.fl rmRNE false (FVal.add rmRNE (fp32.value acc) p)

/-- Adds an exact product to an INT32 accumulator (R74). -/
def macInt (sat : Bool) (acc : Nat) (p : Int) : Nat := wrapClamp 4 sat (intVal 4 acc + p)

/-- acc ⊕ x × y for elements of two formats: integers, floats, L6. -/
def mac (fa fb : Nat) (sat : Bool) (acc x y : Nat) : Nat :=
  if isSignedFmt fa then macInt sat acc (intVal fa x * intVal fb y)
  else if fa = 9 then macFloat acc (l6Mul x y)
  else macFloat acc (FVal.mul (numVal fa x) (numVal fb y))

/-- Accumulates pairs in order. -/
def macAll (fa fb : Nat) (sat : Bool) (acc : Nat) (l : List (Nat × Nat)) : Nat :=
  l.foldl (fun acc (x, y) => mac fa fb sat acc x y) acc

/-- Products counted in a step of K (R240). -/
def keff (b : LBlk) (k : Nat) : Nat := if klen b = 0 then k else klen b

/-- The rows of a step operand. -/
def operandRows (s : State) (r : EngRef) (f : InFlight) (x : Desc) (fmt : Nat) (ctr : Counters) : Except BlockFault (List (List Nat) × Hot) :=
  let (k, n) := stepRows x
  match readOperand s r f x (memWidth fmt) ctr with
  | .error e => .error e
  | .ok (l, h) => .ok (chunks k n l, h)

/-- Each D cell in order takes its accumulated pairs. -/
def accumulate (s : State) (r : EngRef) (b : LBlk) (fb : Nat) (ctr : Counters) (pairs : List (List (Nat × Nat))) : List TileWrite :=
  (cellsAt b.d ctr).zipWith (fun p l => .acc (cellKey p) (macAll b.fmt fb (b.sat == 1) ((s.ctx r).cell (cellKey p)) l)) pairs

def mmaBody (b : LBlk) : Body := fun s r f k =>
  match operandRows s r f b.a b.fmt (b.counters k) with
  | .error e => .error e
  | .ok (rows, h1) =>
    match operandRows s r f b.b b.fmt (b.counters k) with
    | .error e => .error e
    | .ok (cols, h2) =>
      let pairs := rows.flatMap fun x => cols.map fun y => (x.zip y).take (keff b (stepRows b.a).1)
      .ok { tile := accumulate s r b b.fmt (b.counters k) pairs, hot := h1 ++ h2 }

/-- MMA (R240). -/
def execMma (b : LBlk) (s : State) : Host.Outcome State Fault Refusal := .next (runMat (.mma b) b (mmaBody b) s)

/-- Kept k positions of each stored value of a 2:4 line, from its metadata (R243). -/
def keptPositions (n m : Nat) : List Nat :=
  (upto n).map fun v => 4 * (v / 2) + bits m (4 * (v / 2) + 2 * (v % 2)) 2

/-- The first offset of each group is less than the second (R244). -/
def metadataOk (n m : Nat) : Bool := (upto (n / 2)).all fun g => decide (bits m (4 * g) 2 < bits m (4 * g + 2) 2)

/-- Metadata of each line of B. -/
def lineMeta (s : State) (r : EngRef) (b : LBlk) (ctr : Counters) : List Nat :=
  let n := b.b.seg + 1
  (upto (b.b.ext2 + 1)).map fun (l : Nat) =>
    (s.ctx r).mediumBits spWb (8 * (originAt s r b.b ctr + l * (b.b.aux * 8))).toNat (n * memWidth b.fmt + 8 * (n / 4))
      / 2 ^ (n * memWidth b.fmt)

def mmasBody (b : LBlk) : Body := fun s r f k =>
  let fb := fmtB 7 1 b
  match operandRows s r f b.a b.fmt (b.counters k) with
  | .error e => .error e
  | .ok (rows, h1) =>
    match operandRows s r f b.b fb (b.counters k) with
    | .error e => .error e
    | .ok (cols, h2) =>
      if cform b = 0 then
        let ms := lineMeta s r b (b.counters k)
        if !(ms.all (metadataOk (b.b.seg + 1))) then bad .badMetadata
        else
          let pairs := rows.flatMap fun x => (cols.zip ms).map fun (y, m) =>
            (((keptPositions (b.b.seg + 1) m).map fun p => x.getD p 0).zip y).take (keff b (b.b.seg + 1))
          .ok { tile := accumulate s r b fb (b.counters k) pairs, hot := h1 ++ h2 }
      else
        let pairs := rows.flatMap fun x => cols.map fun y => (x.zip y).take (keff b (b.b.seg + 1))
        .ok { tile := accumulate s r b fb (b.counters k) pairs, hot := h1 ++ h2 }

/-- MMAS (R244). -/
def execMmas (b : LBlk) (s : State) : Host.Outcome State Fault Refusal := .next (runMat (.mmas b) b (mmasBody b) s)

def mmdBody (b : LBlk) : Body := fun s r f k =>
  match operandRows s r f b.a b.fmt (b.counters k) with
  | .error e => .error e
  | .ok (vecs, h1) =>
    match operandRows s r f b.b b.fmt (b.counters k) with
    | .error e => .error e
    | .ok (taps, h2) =>
      let ps := bits b.cx 8 2 + 1
      let ts := bits b.cx 10 3 + 1
      let pairs := (upto (b.d.ext2 + 1)).flatMap fun p => (upto (b.a.seg + 1)).map fun c =>
        (upto (keff b (b.b.seg + 1))).map fun t => ((vecs.getD (p * ps + t * ts) []).getD c 0, (taps.getD c []).getD t 0)
      .ok { tile := accumulate s r b b.fmt (b.counters k) pairs, hot := h1 ++ h2 }

/-- MMD (R245). -/
def execMmd (b : LBlk) (s : State) : Host.Outcome State Fault Refusal := .next (runMat (.mmd b) b (mmdBody b) s)

/-- A list as complex elements. -/
def pairUp : List Nat → List (Nat × Nat)
  | x :: y :: l => (x, y) :: pairUp l
  | _ => []

/-- One complex term of MMC (R246). -/
def macComplex (f : FFmt) (conj : Bool) (acc a b : Nat × Nat) : Nat × Nat :=
  let pr (x y : Nat) (minus : Bool) : FVal := let p := FVal.mul (f.value x) (f.value y); if minus then FVal.neg p else p
  (macFloat (macFloat acc.1 (pr a.1 b.1 false)) (pr a.2 b.2 (!conj)),
   macFloat (macFloat acc.2 (pr a.1 b.2 conj)) (pr a.2 b.1 false))

def mmcBody (b : LBlk) : Body := fun s r f k =>
  match operandRows s r f b.a b.fmt (b.counters k) with
  | .error e => .error e
  | .ok (rows, h1) =>
    match operandRows s r f b.b b.fmt (b.counters k) with
    | .error e => .error e
    | .ok (cols, h2) =>
      let c := s.ctx r
      let keys := (cellsAt b.d (b.counters k)).map cellKey
      let pairs := rows.flatMap fun x => cols.map fun y => ((pairUp x).zip (pairUp y)).take (keff b (b.b.seg + 1) / 2)
      let outs := (pairUp keys).zipWith (fun (p, q) l =>
        let z := l.foldl (fun acc (x, y) => macComplex (fmtOf b.fmt) (bits b.cx 8 1 == 1) acc x y) (c.cell p, c.cell q)
        [TileWrite.acc p z.1, TileWrite.acc q z.2]) pairs
      .ok { tile := outs.flatMap id, hot := h1 ++ h2 }

/-- MMC (R246). -/
def execMmc (b : LBlk) (s : State) : Host.Outcome State Fault Refusal := .next (runMat (.mmc b) b (mmcBody b) s)

/-! ### Moving cells (R247) -/

def aczBody (b : LBlk) : Body := fun _ _ _ k => .ok { tile := (cellsAt b.d (b.counters k)).map fun p => .acc (cellKey p) 0 }

/-- ACZ (R247). -/
def execAcz (b : LBlk) (s : State) : Host.Outcome State Fault Refusal := .next (runMat (.acz b) b (aczBody b) s)

/-- The cells of A in order. -/
def cellVals (s : State) (r : EngRef) (x : Desc) (ctr : Counters) : List Nat := (cellsAt x ctr).map fun p => (s.ctx r).cell (cellKey p)

def acrBody (b : LBlk) : Body := fun s r _ k =>
  let ctr := b.counters k
  .ok { tile := (elemBits b.d (originAt s r b.d ctr) 32).zipWith (fun a v => .tp a.toNat 32 v) (cellVals s r b.a ctr) }

/-- ACR (R247). -/
def execAcr (b : LBlk) (s : State) : Host.Outcome State Fault Refusal := .next (runMat (.acr b) b (acrBody b) s)

def acwBody (b : LBlk) : Body := fun s r f k =>
  match readOperand s r f b.a 32 (b.counters k) with
  | .error e => .error e
  | .ok (l, h) =>
    let cells := cellsAt b.d (b.counters k)
    let vals := if b.a.space = spIm then cells.map fun _ => l.headD 0 else l
    .ok { tile := cells.zipWith (fun p v => .acc (cellKey p) v) vals, hot := h }

/-- ACW (R247). -/
def execAcw (b : LBlk) (s : State) : Host.Outcome State Fault Refusal := .next (runMat (.acw b) b (acwBody b) s)

def acmvBody (b : LBlk) : Body := fun s r _ k =>
  let ctr := b.counters k
  .ok { tile := (cellsAt b.d ctr).zipWith (fun p v => .acc (cellKey p) v) (cellVals s r b.a ctr) }

/-- ACMV (R247). -/
def execAcmv (b : LBlk) (s : State) : Host.Outcome State Fault Refusal := .next (runMat (.acmv b) b (acmvBody b) s)

/-! ### The drain epilogue (R248 to R250) -/

/-- A drain record (R248). -/
structure Drain where
  bias   : Nat
  resOff : Nat
  pitch  : Nat
  rfmt   : Nat
  lo     : Nat
  hi     : Nat
  act    : Nat
  scale  : Nat
  key    : Nat
  thr    : Nat
  dscale : Nat
  row0   : Nat
  col0   : Nat
  deriving DecidableEq, Repr

/-- The enables in CX. -/
def drnBE (b : LBlk) : Bool := bitAt b.cx 9
def drnRE (b : LBlk) : Bool := bitAt b.cx 10
def drnDE (b : LBlk) : Bool := bitAt b.cx 11
def drnZAC (b : LBlk) : Bool := bitAt b.cx 12

/-- The fields of a record of 512 bits. -/
def drainOf (w : Nat) : Drain :=
  let at_ (off lo n : Nat) := bits w (8 * off + lo) n
  { bias := at_ 0 0 18, resOff := at_ 8 0 18, pitch := at_ 8 32 16, rfmt := at_ 8 48 4, lo := at_ 0x10 0 32, hi := at_ 0x10 32 32,
    act := at_ 0x18 0 4, scale := at_ 0x18 32 32, key := at_ 0x20 0 64, thr := at_ 0x28 0 24, dscale := at_ 0x28 32 32,
    row0 := at_ 0x30 0 32, col0 := at_ 0x30 32 32 }

def drainReserved (w : Nat) : Bool :=
  let at_ (off lo n : Nat) := bits w (8 * off + lo) n
  at_ 0x38 0 64 == 0 && at_ 0x28 24 8 == 0 && at_ 0x18 4 28 == 0 && at_ 8 52 12 == 0 && at_ 8 18 14 == 0 && at_ 0 18 46 == 0

/-- LO and HI in order and no NaN, as FP32 or INT32. -/
def boundsOk (isFloat : Bool) (lo hi : Nat) : Bool :=
  if isFloat then !(fp32.value lo).isNan && !(fp32.value hi).isNan && !FVal.lt (fp32.value hi) (fp32.value lo)
  else decide (intVal 4 lo ≤ intVal 4 hi)

def finite32 (x : Nat) : Bool := match fp32.value x with | .fin _ _ _ => true | _ => false

/-- The checks on a record (R248). -/
def drainFault (b : LBlk) (w : Nat) : Option Cause :=
  let d := drainOf w
  let isF := b.fmt == 1
  let fieldsOk := drainReserved w && decide (d.act ≤ 4) && (!drnBE b || d.bias % 4 == 0) &&
    (!drnRE b || (d.pitch % 8 == 0 && d.resOff % unitOf d.rfmt == 0 &&
      (if isF then inRange 1 3 d.rfmt else inRange 4 6 d.rfmt))) &&
    (!(d.act == 2) || boundsOk isF d.lo d.hi) && (!(d.act == 4) || boundsOk true d.lo d.hi)
  if !fieldsOk then some .reservedField
  else if ((d.act == 3 || d.act == 4) && !finite32 d.scale) || (drnDE b && !finite32 d.dscale) then some .badScale
  else none

/-- A working value: FP32 or INT32. -/
structure Work where
  isF : Bool
  x   : Nat
  deriving DecidableEq, Repr

def Work.val (z : Work) : FVal := if z.isF then fp32.value z.x else FVal.ofInt (intVal 4 z.x)

/-- Adds a bias or residual of the working type. -/
def Work.add (sat : Bool) (z : Work) (y : Nat) : Work :=
  { z with x := if z.isF then fp32.add rmRNE false z.x y else wrapClamp 4 sat (intVal 4 z.x + intVal 4 y) }

/-- Multiplies by an FP32 factor; the result is FP32. -/
def Work.scale (z : Work) (k : Nat) : Work := { isF := true, x := fp32.fl rmRNE false (FVal.mul z.val (fp32.value k)) }

/-- min(max(x, LO), HI); NaN passes. -/
def Work.clamp (lo hi : Nat) (z : Work) : Work :=
  if z.isF then (if (fp32.value z.x).isNan then z else { z with x := fp32.minNum (fp32.maxNum z.x lo) hi })
  else { z with x := wrapTo 32 (clampInt (intVal 4 lo) (intVal 4 hi) (intVal 4 z.x)) }

/-- Step 3 of R249. -/
def Work.activate (d : Drain) (z : Work) : Work :=
  match d.act with
  | 1 => if FVal.lt z.val (.fin false 0 0) then { z with x := 0 } else z
  | 2 => z.clamp d.lo d.hi
  | 3 => z.scale d.scale
  | 4 => (z.scale d.scale).clamp d.lo d.hi
  | _ => z

/-- Step 4 of R249 at line l and position e. -/
def Work.dropout (d : Drain) (l e : Nat) (z : Work) : Work :=
  let h := mix (xorN d.key ((d.row0 + l) % 2 ^ 32 * 2 ^ 32 + (d.col0 + e) % 2 ^ 32))
  if d.thr ≤ h / 2 ^ 40 then z.scale d.dscale else { isF := true, x := 0 }

/-- Step 5 of R249. -/
def Work.convert (dfmt rm : Nat) (sat : Bool) (z : Work) : Nat :=
  match floatOf dfmt with
  | some f => f.fl rm sat z.val
  | none =>
    if dfmt = 9 then l6OfFp32 z.x
    else if z.isF then fvalToInt dfmt rm z.val
    else icvt 4 dfmt sat z.x

/-- A tile pool element of a format, widened exactly to FP32 or INT32. -/
def widened (s : State) (r : EngRef) (fmt off : Nat) : Nat :=
  let v := (s.ctx r).mediumBits spTp (8 * off) (memWidth fmt)
  match floatOf fmt with
  | some f => toFp32 f v
  | none => wrapTo 32 (intVal fmt v)

/-- The epilogue of one element. -/
def drainElem (s : State) (r : EngRef) (b : LBlk) (d : Drain) (l e x : Nat) : Nat :=
  let sat := b.sat == 1
  let z0 : Work := { isF := b.fmt == 1, x := x }
  let z1 := if drnBE b then z0.add sat (widened s r b.fmt (d.bias + 4 * e)) else z0
  let z2 := if drnRE b then z1.add sat (widened s r d.rfmt (d.resOff + l * d.pitch + e * (memWidth d.rfmt / 8))) else z1
  let z3 := z2.activate d
  let z4 := if drnDE b then z3.dropout d l e else z3
  z4.convert b.dfmt b.rm sat

/-- The windows a record names. -/
def drainWindows (b : LBlk) (d : Drain) : List Touch :=
  (if drnBE b then [{ space := spTp, lo := d.bias, hi := (d.bias + 4 * (b.a.seg + 1) : Nat), write := false }] else []) ++
  (if drnRE b then [{ space := spTp, lo := d.resOff,
                      hi := (d.resOff + b.a.ext2 * d.pitch + (b.a.seg + 1) * (memWidth d.rfmt / 8) : Nat), write := false }] else [])

def drnBody (b : LBlk) : Body := fun s r f k =>
  let ctr := b.counters k
  let o := originAt s r b.b ctr
  match lateTouch s r f { space := spTp, lo := o, hi := o + 64, write := false } with
  | .error e => .error e
  | .ok () =>
    let w := (s.ctx r).mediumBits spTp (8 * o).toNat 512
    match drainFault b w with
    | some c => bad c
    | none =>
      let d := drainOf w
      match (drainWindows b d).forM (lateTouch s r f) with
      | .error e => .error e
      | .ok () =>
        let cells := cellsAt b.a ctr
        let outs := ((linePos b.a).zip (cellVals s r b.a ctr)).map fun ((l, e), x) => drainElem s r b d l e x
        let writes := (elemBits b.d (originAt s r b.d ctr) (memWidth b.dfmt)).zipWith (fun a v => TileWrite.tp a.toNat (memWidth b.dfmt) v) outs
        .ok { tile := writes ++ (if drnZAC b then cells.map fun p => .acc (cellKey p) 0 else []) }

/-- The record of an iteration and the bias and residual elements it names. -/
def drainReads (b : LBlk) (s : State) (r : EngRef) (_ : InFlight) (k : Nat) : List Touch :=
  let o := originAt s r b.b (b.counters k)
  { space := spTp, lo := o, hi := o + 64, write := false } :: drainWindows b (drainOf ((s.ctx r).mediumBits spTp (8 * o).toNat 512))

/-- DRN (R249, R250). -/
def execDrn (b : LBlk) (s : State) : Host.Outcome State Fault Refusal :=
  .next (s.runBlock { check := matCheck (.drn b) b, body := drnBody b, reads := drainReads b } (.drn b))

end Sys2Proof.Machine
end

