-- ==== Sys2Proof/Machine/Module.lean ====
section
/-! DEFINITION. Events of the module and its ports: storage and links (R338, R339, R356), fatal errors (R341), power
(R359), resets and firmware (R357), mailboxes (R355). -/

namespace Sys2Proof.Machine

def State.updMgmt (s : State) (f : Management → Management) : State := { s with mgmt := f s.mgmt }

/-! ### Storage (R338, R339) -/

/-- Sectors of a tier that the module's homes keep. -/
def tierSectors : Tier → Nat
  | .hbm => 768 * 2 ^ 30 / 32 | .lpddr => 2 ^ 40 / 32 | .cxl => 2 ^ 46 / 32 | .host => 0

/-- The scrub period in which the module is, counted from 1 (R339). -/
def State.scrubNow (s : State) : Nat := s.cycle / s.mgmt.scrubPeriod + 1

/-- An uncorrectable sector is poisoned and its frame reported to management core 3 (R338). -/
def State.poisonSector (s : State) (t : Tier) (sector : Nat) : State :=
  let s1 := (s.setPoison (.tier t) sector true).log { time := s.cycle, kind := 0x12, addr := sector * 32 }
  (s1.logOut 0 (sector * 32) (storageKind (.tier t)) 1).updMgmt fun m =>
    { m with frames := m.frames ++ [(t.num, sector * 32 / pageBytes)], core3Irqs := m.core3Irqs + 1 }

/-- A sector fails its check (R338): it is retried once, which logs a transient event or, where the retry fails too, poisons the
sector. A poisoned one has no check to fail. -/
def State.sectorFails (s : State) (t : Tier) (sector : Nat) (lasting : Bool) : State :=
  if s.poisoned (.tier t) (sector * 32) then s
  else if lasting then s.poisonSector t sector
  else s.log { time := s.cycle, kind := 0x10, addr := sector * 32, data := storageKind (.tier t) }

/-- The sectors that fail in a turn's reads at their homes: a block's, a walk's, a copy's, any agent's (R338). They are met as
the turn begins (log 33). -/
def State.meetSectors (s : State) : State :=
  s.env.fails.foldl (fun s e => match e with
    | .sector t k lasting => if k < tierSectors t then s.sectorFails t k lasting else s
    | _ => s) s

/-- What a scrub finds in a sector: a correctable error is corrected and counted; another is retried. Which the retry does is
open (log 2). -/
def State.scrubFinds (s : State) (t : Tier) (sector : Nat) (correctable : Bool) : State :=
  if correctable then s.updMgmt fun m => { m with corrected := (m.corrected + 1) % 2 ^ 64 } else s.sectorFails t sector (!s.freeBit 0)

/-- SCRUB: a home reads a sector, once in a scrub period, and finds an error. -/
def execScrub (t : Tier) (sector : Nat) (correctable : Bool) (s : State) : Host.Outcome State Fault Refusal :=
  if tierSectors t ≤ sector then .fault .noSuchUnit
  else
    let key := poisonKey (.tier t) sector
    if Map.get 0 s.mgmt.scrubbed key = s.scrubNow then .next s
    else .next ((s.scrubFinds t sector correctable).updMgmt fun m => { m with scrubbed := Map.set 0 m.scrubbed key s.scrubNow })

/-! ### Ports (R356) -/

/-- A fault of the fabric against a task: its record, and the halt of its job. -/
def State.fabricFault (s : State) (n : Nat) (c : Cause) (va : Nat) : State :=
  let t := s.task n
  let place := t.place.getD 0
  (s.emitRecord (dieOf (place / 4)) (clusterOf (place / 4))
    { pasid := t.pasid, tile := place / 4, slot := place % 4, agt := true, prec := false, disp := c.disp, cause := c.code, task := t.va, fva := va }).raiseHalt
    t.pasid c.code t.va

/-- LINK_FAILURE: a link fails after its retries, or a peer has no path left; the task whose access needs it halts its
job. -/
def execLinkFailure (pasid task : Nat) (noPath : Bool) (va : Nat) (s : State) : Host.Outcome State Fault Refusal :=
  if (s.task task).pasid = pasid ∧ (s.task task).state.live ∧ (s.pasid pasid).runs then
    .next (s.fabricFault task (if noPath then .peerUnreachable else .link) va)
  else .next s

/-- The step that a peer's access makes, by its number (log 53): those of R154, R156 and R185. 0 is a read and 1 a write. -/
def peerOp : Nat → Option Rmw
  | 2 => some (.add 4 false) | 3 => some .smin | 4 => some .smax | 5 => some .umin | 6 => some .umax | 7 => some .and | 8 => some .or
  | 9 => some .xor | 10 => some .xch | 11 => some .postAdd | 12 => some .postMax | 13 => some .postWrite | 14 => some .cas
  | 15 => some .fmin | 16 => some .fmax | 17 => some (.add 4 true) | 18 => some (.add 8 true)
  | 20 => some (.fadd 0) | 21 => some (.fadd 1) | 22 => some (.fadd 2) | 23 => some (.fadd 3) | 24 => some (.fadd 4)
  | _ => none

/-- Bytes of the word that such a step is made on. -/
def Rmw.bytes : Rmw → Nat
  | .postAdd => 8 | .postMax => 8 | .postWrite => 8 | _ => 4

/-- What an access of a peer does: none where it is a read, or names no step or one of another width. A compare-and-swap has the
value it expects in bits [63:32] of its operand. -/
def peerKind (op width value : Nat) : Option HomeKind :=
  if op = 1 then some (.write (value % 2 ^ (8 * width)))
  else
    match peerOp op with
    | some f => if f.bytes = width then some (.rmw f (value % 2 ^ (8 * width)) (bits value 32 32) none) else none
    | none => none

/-- PEER_WINDOW_ACCESS: an aligned access of another module at its home here. What it reads goes back to the peer. -/
def execPeerWindowAccess (t : Tier) (addr op width value : Nat) (s : State) : Host.Outcome State Fault Refusal :=
  if tierSectors t ≤ addr / 32 then .fault .noSuchUnit
  else if !([1, 2, 4, 8, 32].contains width) || addr % width != 0 then .next s
  else
    match peerKind op width value with
    | none => .next s
    | some kind =>
      let (s1, _, _) := s.performAccess { place := .tier t, unit := addr / 32, ops := [{ bit := addr * 8, w := 8 * width, kind := kind }] }
      .next s1

/-! ### Mailboxes (R355) -/

/-- What management core 3 does with a message: it may set the scrub period (R339), to a value that is open (log 2). -/
def State.core3Acts (s : State) : State :=
  if s.freeBit 9 then s.updMgmt fun m => { m with scrubPeriod := s.free 10 + 1, scrubbed := [] } else s

/-- Test firmware may put a tile in hashed mode, and take it out, as the end of its self-test does (R115); when it does is open
(log 2). -/
def State.testFirmware (s : State) : State :=
  let n := s.free 12 % numTiles
  if s.freeBit 11 then s.setTile n { s.tile n with hashed := s.freeBit 13 } else s

/-- Does a FIFO of a mailbox pair lead to core 3 (R355)? Requests of pair 2 do, and replies of pairs 7 to 12. -/
def toCore3 (pair : Nat) (reply : Bool) : Bool := if reply then inRange 7 12 pair else pair == 2

/-- MAILBOX_MESSAGE: the oldest message of a FIFO is taken. What the firmware sends, and when, is open: a message of open
words may be sent instead while the FIFO is not full, and test firmware may act (log 2). Where no firmware runs nothing does
(R357). -/
def execMailboxMessage (pair : Nat) (reply : Bool) (s : State) : Host.Outcome State Fault Refusal :=
  if 16 ≤ pair then .fault .noSuchUnit
  else if !s.mgmt.ready then .next s
  else
    let k := 2 * pair + ofBool reply
    let l := Map.get [] s.mgmt.mailboxes k
    let sends : Bool := s.freeBit 0 && decide (l.length < 16)
    let l1 := if sends then l ++ [(upto 8).map fun j => s.free (j + 1)] else l.drop 1
    let s1 := if toCore3 pair reply && !sends && !l.isEmpty then s.core3Acts else s
    .next (s1.testFirmware.updMgmt fun m => { m with mailboxes := Map.set [] m.mailboxes k l1 })

/-! ### Power and temperature (R359) -/

/-- POWER_MEASUREMENT: firmware measures the draw, which the throttle level holds within the limit (R16); both are open below
that (log 2). -/
def execPowerMeasurement (s : State) : Host.Outcome State Fault Refusal :=
  .next (if !s.mgmt.ready then s else s.updMgmt fun m => { m with draw := s.free 0 % (m.powerLimit + 1), throttle := 1 + s.free 1 % 16 })

/-! ### Fatal errors (R341) -/

/-- Doublewords from an offset on. -/
def dwChunks (off : Nat) (l : List Nat) : List Chunk := ((upto l.length).zip l).map fun (k, v) => (off + 8 * k, 8, v)

/-- Things laid out one after the other, n bytes apart. -/
def rowsOf {α : Type} (off n : Nat) (l : List α) (f : Nat → α → List Chunk) : List Chunk :=
  ((upto l.length).zip l).flatMap fun (k, x) => f (off + n * k) x

/-- A motion entry in a dump. -/
def Motion.dws (m : Motion) : List Nat := [m.pasid, m.va, m.srcTier.num, m.src, m.dstTier.num, m.dst, m.map, m.reason]

/-- THE DEVICE DUMP (R341): the fault buffers, the stop records, the state of every resident slot in frame layout, the motion
entries, the Thyme buffer. DESIGN CHOICE (log 50): their order and places. -/
def State.dumpChunks (s : State) : List Chunk :=
  let buffers := s.dies.flatMap fun (d, u) => u.recs.flatMap fun (k, f) => dwChunks (2 ^ 18 * d + 64 * (k % 4096)) f.dws
  let stops := s.slots.flatMap fun (k, x) => Engine.all.flatMap fun e =>
    match (x.lane e).stop with | some f => dwChunks (2 ^ 20 + 64 * (4 * k + e.num)) f.dws | none => []
  let live := s.slots.filterMap fun (_, x) => x.task.map fun n => (s.task n, x.ctx)
  let a := 2 ^ 20 + 2 ^ 19
  let b := a + 2 ^ 19 * live.length
  let c := b + 64 * s.perc.motions.length
  buffers ++ stops ++
  rowsOf a (2 ^ 19) live (fun off (t, x) => (stateChunks s t x ++ t.units.flatMap (unitChunks t x)).map fun (o, n, v) => (off + o, n, v)) ++
  rowsOf b 64 s.perc.motions (fun off m => dwChunks off m.dws) ++ rowsOf c 32 s.thyme (fun off e => dwChunks off e.dws)

/-- The dump goes to the registered buffer, as far as its length goes, else to reserved LPDDR5X memory. -/
def State.dumpAll (s : State) : State :=
  let l := s.dumpChunks
  let s1 := match s.mgmt.dump with
    | some (va, len) => (l.filter fun (c : Chunk) => decide (c.1 + c.2.1 ≤ len)).foldl (fun (s : State) (c : Chunk) => (s.writeVa 0 (va + c.1) c.2.1 c.2.2).getD s) s
    | none => s.updMgmt fun m => { m with reserve := l.foldl (fun (r : List Host.Cell) (c : Chunk) => Memory.putNat r c.1 c.2.1 c.2.2) [] }
  s1.updMgmt fun m => { m with dumps := m.dumps + 1 }

/-- The assigned codes of causes that halt (R325). -/
def haltCodes : List Nat := (plainCauses.filter (·.disp == .halt)).map (·.code)

/-- Steps 1 and 2 of R341, and the notice to the host. Which cause the halt lines carry is open among the codes that halt
(log 24). -/
def State.fatal (s : State) (location kind : Nat) : State :=
  let s1 := s.log { time := s.cycle, kind := 0x40, addr := location, data := kind }
  let jobs := (s1.pasids.filter fun (_, p) => p.valid).map (·.1)
  let s2 := jobs.foldl (fun s p => s.raiseHalt p (haltCodes.getD (s.free 3 % haltCodes.length) Cause.poison.code) 0) s1
  s2.dumpAll.updMgmt fun m => { m with notified := m.notified + 1 }

/-- FATAL_ERROR: every halt line is raised, the dump is written, the host is told, and the module is warm-reset. -/
def execFatalError (location kind : Nat) (s : State) : Host.Outcome State Fault Refusal := .next (s.fatal location kind).warm

/-- TEMPERATURE_TRIP: a fatal error after which the module powers down. Its location and kind are open (log 2). -/
def execTemperatureTrip (s : State) : Host.Outcome State Fault Refusal :=
  .next ((s.fatal (s.free 4) (s.free 5)).updMgmt fun m => { m with powered := false, ready := false })

/-! ### Resets and firmware (R357) -/

/-- A COLD RESET: power comes up and nothing of the run is kept but host and CXL memory, what the firmware and the fuses
hold, and the supervisors' memory (log 13). -/
def State.cold (s : State) : State :=
  let m := State.reset.mgmt
  { State.reset with
    agenda := s.agenda, steps := s.steps, ref := s.ref, hart := s.hart, cycle := s.cycle, cxl := s.cxl, host := s.host, supmem := s.supmem,
    perc := { State.reset.perc with decayEnd := (s.cycle + State.reset.perc.decay * 65536) % 2 ^ 64 },
    queues := [(0, { present := true, live := true, log := 6, ring := s.mgmt.adminRing })],
    tiles := s.selfTest [],
    mgmt := ({ m with tilesOut := s.mgmt.tilesOut, adminRing := s.mgmt.adminRing, bar0 := s.mgmt.bar0, clocks := s.mgmt.clocks,
                      capacity := s.mgmt.capacity, rollback := s.mgmt.rollback, nextImage := s.mgmt.nextImage, resetCycle := s.cycle } : Management).boot s.mgmt.image }

/-- COLD_RESET. -/
def execColdReset (s : State) : Host.Outcome State Fault Refusal := .next s.cold

/-- WARM_RESET: a function-level reset. -/
def execWarmReset (s : State) : Host.Outcome State Fault Refusal := .next s.warm

/-- RECOVERY_IMAGE: an image in the recovery window is verified, and runs, where the module runs no firmware. -/
def execRecoveryImage (s : State) : Host.Outcome State Fault Refusal :=
  .next (if s.mgmt.firmware.isSome then s else s.updMgmt fun m => m.boot s.someImage)

end Sys2Proof.Machine
end

