-- ==== Sys2Proof/Machine/Window.lean ====
section
/-! DEFINITION. Class 8: sliding windows (R254 to R259) and complex transforms (R260 to R263). -/

namespace Sys2Proof.Machine

/-! ### The window record (R254) -/

structure WinRec where
  xp   : Nat
  yp   : Nat
  h    : Nat
  w    : Nat
  mode : Nat
  kh   : Nat
  kw   : Nat
  sy   : Nat
  sx   : Nat
  dy   : Nat
  dx   : Nat
  pt   : Nat
  pb   : Nat
  pl   : Nat
  pr   : Nat
  oy0  : Nat
  ox0  : Nat
  nox  : Nat
  np   : Nat
  padv : Nat
  deriving DecidableEq, Repr

/-- The fields of a record of 512 bits. -/
def winRecOf (v : Nat) : WinRec :=
  let at_ (off lo n : Nat) := bits v (8 * off + lo) n
  { xp := at_ 0 0 32, yp := at_ 0 32 32, h := at_ 8 0 16 + 1, w := at_ 8 16 16 + 1, mode := at_ 8 32 1,
    kh := at_ 0x10 0 4 + 1, kw := at_ 0x10 4 4 + 1, sy := at_ 0x10 8 4 + 1, sx := at_ 0x10 12 4 + 1,
    dy := at_ 0x10 16 8, dx := at_ 0x10 24 8, pt := at_ 0x10 32 8, pb := at_ 0x10 40 8, pl := at_ 0x10 48 8, pr := at_ 0x10 56 8,
    oy0 := at_ 0x18 0 16, ox0 := at_ 0x18 16 16, nox := at_ 0x18 32 16 + 1, np := at_ 0x18 48 16 + 1, padv := at_ 0x20 0 32 }

def winReserved (v : Nat) : Bool := bits v (8 * 0x28) 192 == 0 && bits v (8 * 0x20 + 32) 32 == 0 && bits v (8 * 8 + 33) 31 == 0

/-- Taps of a position in k order: (k, y, x) for output position n (R255). -/
def WinRec.taps (q : WinRec) (n : Nat) : List (Nat × Int × Int) :=
  let oy := q.oy0 + n / q.nox
  let ox := q.ox0 + n % q.nox
  (upto q.kh).flatMap fun ky => (upto q.kw).map fun kx =>
    (ky * q.kw + kx, (oy * q.sy : Nat) - (q.pt : Int) + (ky * q.dy : Nat), (ox * q.sx : Nat) - (q.pl : Int) + (kx * q.dx : Nat))

/-- Is a pixel on the map? -/
def WinRec.onMap (q : WinRec) (y x : Int) : Bool := decide (0 ≤ y) && decide (y < q.h) && decide (0 ≤ x) && decide (x < q.w)

/-- Every position's window lies within the padded map (R256). -/
def WinRec.geometryOk (q : WinRec) : Bool :=
  (upto q.np).all fun n =>
    let oy := q.oy0 + n / q.nox
    let ox := q.ox0 + n % q.nox
    decide (((oy * q.sy + (q.kh - 1) * q.dy : Nat) : Int) - q.pt ≤ ((q.h - 1 + q.pb : Nat) : Int)) &&
    decide (((ox * q.sx + (q.kw - 1) * q.dx : Nat) : Int) - q.pl ≤ ((q.w - 1 + q.pr : Nat) : Int))

/-- A map element in memory bits, or PADV. -/
def mapElem (s : State) (r : EngRef) (q : WinRec) (o : Int) (w : Nat) (y x : Int) (c : Nat) : Nat :=
  if q.onMap y x then (s.ctx r).mediumBits spTp (8 * (o + y * q.yp + x * q.xp).toNat + c * w) w else q.padv

/-- The record of an iteration, read and checked, with the map and the positions it names (R254, R256). -/
def readWindow (s : State) (r : EngRef) (f : InFlight) (b : LBlk) (pool : Bool) (k : Nat) : Except BlockFault WinRec :=
  let ctr := b.counters k
  let v := (s.ctx r).mediumBits spTp (8 * originAt s r b.b ctr).toNat 512
  let q := winRecOf v
  let esize := memWidth b.fmt / 8
  if !winReserved v || q.dx == 0 || q.dy == 0 || decide (2 ^ fmtWidth b.fmt ≤ q.padv) || (pool && q.mode == 1) then bad .reservedField
  else if q.xp % esize ≠ 0 ∨ q.yp % esize ≠ 0 then bad .misalignedWindow
  else
    let o := originAt s r b.a ctr
    match lateTouch s r f { space := spTp, lo := o, hi := o + ((q.h - 1) * q.yp + (q.w - 1) * q.xp + (b.a.seg + 1) * esize : Nat), write := false } with
    | .error e => .error e
    | .ok () => if q.geometryOk then .ok q else bad .windowGeometry

/-! ### WINL (R255) -/

/-- The elements of D as (line, position, value), in the order in which they are written: output positions, taps, channels. -/
def winlElems (s : State) (r : EngRef) (b : LBlk) (q : WinRec) (k : Nat) : List (Nat × Nat × Nat) :=
  let o := originAt s r b.a (b.counters k)
  let cs := b.a.seg + 1
  (upto q.np).flatMap fun n => ((upto (q.kh * q.kw)).zip (q.taps n)).flatMap fun (j, _, y, x) => (upto cs).map fun c =>
    let v := mapElem s r q o (memWidth b.fmt) y x c
    if q.mode = 0 then (n, j * cs + c, v) else (n + q.np * j, c, v)

/-- Does D agree with the record of WINL? -/
def winlShape (b : LBlk) (q : WinRec) : Bool :=
  let c := b.a.seg + 1
  let kt := q.kh * q.kw
  let (seg, lines) := if q.mode = 0 then (kt * c, q.np) else (c, q.np * kt)
  b.d.seg + 1 == seg && b.d.ext2 + 1 == lines

def winlBody (b : LBlk) : Body := fun s r f k =>
  match readWindow s r f b false k with
  | .error e => .error e
  | .ok q =>
    if !winlShape b q then bad .shapeMismatch
    else
      let w := memWidth b.fmt
      let o := originAt s r b.d (b.counters k)
      .ok { tile := (winlElems s r b q k).map fun (l, e, v) => .tp (elemBit b.d o w l e).toNat w v }

/-- The map elements that the windows of an iteration reach: those of a record whose every check has passed (R254), also the
one on D's count (shape), since an iteration that faults on its record reads no map. -/
def mapReads (pool : Bool) (shape : WinRec → Bool) (b : LBlk) (s : State) (r : EngRef) (f : InFlight) (k : Nat) : List Touch :=
  match readWindow s r f b pool k with
  | .error _ => []
  | .ok q =>
    let o := originAt s r b.a (b.counters k)
    let n : Nat := (b.a.seg + 1) * (memWidth b.fmt / 8)
    if !shape q then []
    else
      (upto q.np).flatMap fun p => (q.taps p).filterMap fun (_, y, x) =>
        if q.onMap y x then some { space := spTp, lo := o + y * q.yp + x * q.xp, hi := o + y * q.yp + x * q.xp + n, write := false } else none

/-- WINL (R255). -/
def execWinl (b : LBlk) (s : State) : Host.Outcome State Fault Refusal :=
  .next (s.runBlock { body := winlBody b, reads := mapReads false (winlShape b) b } (.winl b))

/-! ### WPOOL (R259) -/

/-- The pooled value of the counted taps. -/
def poolValue (b : LBlk) (padv : Nat) (l : List Nat) : Nat :=
  match l with
  | [] => padv
  | v :: rest =>
    if b.opx = 0 then rest.foldl (pick b.fmt true) (pick b.fmt true (pickNone b.fmt true) v)
    else
      let f := fmtOf b.fmt
      let sum := rest.foldl (fun acc x => FVal.add b.rm acc (f.value x)) (f.value v)
      f.div b.rm false sum (FVal.ofInt l.length)

/-- Result elements n * C + c. -/
def wpoolElems (s : State) (r : EngRef) (b : LBlk) (q : WinRec) (k : Nat) : Runs :=
  let o := originAt s r b.a (b.counters k)
  let excl := bitAt b.cx 0
  runsOf ((upto q.np).flatMap fun n => (upto (b.a.seg + 1)).map fun c =>
    poolValue b q.padv ((q.taps n).filterMap fun (_, y, x) =>
      if q.onMap y x || !excl then some (mapElem s r q o (memWidth b.fmt) y x c) else none))

/-- A VXE result to a register, or densely to a tile pool window (R215, R254). -/
def finishAny (s : State) (r : EngRef) (b : LBlk) (n k : Nat) (y : Runs) (h : Hot) : Except BlockFault IterOut :=
  if b.d.space = spV then finishVec s r b b.fmt n (b.counters k) y h else storeWindow s r b b.fmt (b.counters k) y h

/-- Does a pool window D agree with the record of WPOOL? -/
def wpoolShape (b : LBlk) (q : WinRec) : Bool := b.d.space != spTp || b.d.count == q.np * (b.a.seg + 1)

def wpoolBody (b : LBlk) : Body := fun s r f k =>
  match readWindow s r f b true k with
  | .error e => .error e
  | .ok q =>
    let n := q.np * (b.a.seg + 1)
    if !wpoolShape b q then bad .shapeMismatch
    else finishAny s r b n k (wpoolElems s r b q k) []

/-- WPOOL (R259). -/
def execWpool (b : LBlk) (s : State) : Host.Outcome State Fault Refusal :=
  .next (s.runBlock { vecBehaviour (.wpool b) b (wpoolBody b) with reads := mapReads true (wpoolShape b) b } (.wpool b))

/-! ### Complex vectors (R260 to R263) -/

/-- The complex elements of an operand; an odd length has none. -/
def complexSeq (s : State) (r : EngRef) (f : InFlight) (x : Desc) (ctr : Counters) : Except BlockFault (List (Nat × Nat) × Hot) :=
  match operandSeq s r f x 1 ctr with
  | .error e => .error e
  | .ok (v, h) => if v.total % 2 = 1 then bad .lengthMismatch else .ok (pairUp v.elems, h)

/-- A complex result of n elements. -/
def finishComplex (s : State) (r : EngRef) (b : LBlk) (k : Nat) (l : List (Nat × Nat)) (h : Hot) : Except BlockFault IterOut :=
  let y := runsOf (l.flatMap fun (x, z) => [x, z])
  if b.d.space = spTp ∧ b.d.count ≠ 2 * l.length then bad .lengthMismatch else finishAny s r b (2 * l.length) k y h

/-- The butterfly outputs of one group of 2h elements (R261). -/
def butterfly (b : LBlk) (h : Nat) (l : List (Nat × Nat)) : List (Nat × Nat) :=
  let sat := b.sat == 1
  let pairs := (l.take h).zip (l.drop h)
  pairs.map (fun (x, y) => (fp32.add b.rm sat x.1 y.1, fp32.add b.rm sat x.2 y.2)) ++
    pairs.map (fun (x, y) => (fp32.sub b.rm sat x.1 y.1, fp32.sub b.rm sat x.2 y.2))

def bflyBody (b : LBlk) : Body := fun s r f k =>
  match complexSeq s r f b.a (b.counters k) with
  | .error e => .error e
  | .ok (l, h) =>
    let half := 2 ^ bits b.cx 0 4
    if l.length % (2 * half) ≠ 0 then bad .lengthMismatch
    else finishComplex s r b k ((chunks (2 * half) (l.length / (2 * half)) l).flatMap (butterfly b half)) h

/-- VBFLY (R261). -/
def execVbfly (b : LBlk) (s : State) : Host.Outcome State Fault Refusal := .next (runVec (.vbfly b) b (bflyBody b) s)

/-- Pi times 2^128. -/
def piFix : Nat := 0x3243F6A8885A308D313198A2E03707344

/-- Sums a Taylor series in units of 2^-128: term, its index j, the square of the angle. -/
def taylor (x2 : Int) : Nat → Nat → Int → Int → Int
  | 0, _, _, acc => acc
  | n + 1, j, t, acc =>
    let t1 := -(t * x2 / (2 ^ 128 : Nat)) / (((j + 1) * (j + 2) : Nat) : Int)
    taylor x2 n (j + 2) t1 (acc + t1)

/-- Cosine and sine of 2 pi m / 65536 for m below 16384, in units of 2^-128, far closer than any rounding
boundary of FP32. -/
def cosSinFix (m : Nat) : Int × Int :=
  let x : Int := ((piFix * m / 32768 : Nat) : Int)
  let x2 := x * x / (2 ^ 128 : Nat)
  (taylor x2 24 0 (2 ^ 128 : Nat) (2 ^ 128 : Nat), taylor x2 24 1 x x)

/-- A fixed-point value rounded to FP32; zero is +0. -/
def fixToFp32 (z : Int) : Nat := if z = 0 then 0 else fp32.fl rmRNE false (.fin (decide (z < 0)) z.natAbs (-128))

/-- cos and -sin of 2 pi k / 2^nlog, rounded to FP32 (R262). -/
def twiddle (nlog k : Nat) : Nat × Nat :=
  let kk := k * 2 ^ (16 - nlog) % 65536
  let (c, si) := cosSinFix (kk % 16384)
  match kk / 16384 with
  | 0 => (fixToFp32 c, fixToFp32 (-si))
  | 1 => (fixToFp32 (-si), fixToFp32 (-c))
  | 2 => (fixToFp32 (-c), fixToFp32 si)
  | _ => (fixToFp32 si, fixToFp32 c)

/-- A complex product rounded once in each part; conj conjugates y (R262, R263). -/
def complexMul (rm : Nat) (sat conj : Bool) (x y : Nat × Nat) : Nat × Nat :=
  let p (a b : Nat) (minus : Bool) : FVal := let v := FVal.mul (fp32.value a) (fp32.value b); if minus then FVal.neg v else v
  (fp32.fl rm sat (FVal.add rm (p x.1 y.1 false) (p x.2 y.2 (!conj))), fp32.fl rm sat (FVal.add rm (p x.1 y.2 conj) (p x.2 y.1 false)))

/-- Inverts a nonzero sign: sin for INV. -/
def flipPart (x : Nat) : Nat := if x = 0 then 0 else neg32 x

def twdBody (b : LBlk) : Body := fun s r f k =>
  match complexSeq s r f b.a (b.counters k) with
  | .error e => .error e
  | .ok (l, h) =>
    let nlog := bits b.cx 0 5
    let inv := bitAt b.cx 5
    let row := if bitAt b.cx 6 then b.b.base else b.b.base + k
    let out := (l.zip (upto l.length)).map fun (x, j) =>
      let w := twiddle nlog (row * j % 2 ^ nlog)
      complexMul b.rm (b.sat == 1) false x (if inv then (w.1, flipPart w.2) else w)
    finishComplex s r b k out h

/-- VTWD (R262). -/
def execVtwd (b : LBlk) (s : State) : Host.Outcome State Fault Refusal := .next (runVec (.vtwd b) b (twdBody b) s)

def cmulBody (b : LBlk) : Body := fun s r f k =>
  match complexSeq s r f b.a (b.counters k) with
  | .error e => .error e
  | .ok (l, h1) =>
    match complexSeq s r f b.b (b.counters k) with
    | .error e => .error e
    | .ok (m, h2) =>
      if m.length ≠ l.length ∧ m.length ≠ 1 then bad .lengthMismatch
      else
        let ys := if m.length = l.length then m else l.map fun _ => m.headD (0, 0)
        finishComplex s r b k ((l.zip ys).map fun (x, y) => complexMul b.rm (b.sat == 1) (bitAt b.cx 0) x y) (h1 ++ h2)

/-- VCMUL (R263). -/
def execVcmul (b : LBlk) (s : State) : Host.Outcome State Fault Refusal := .next (runVec (.vcmul b) b (cmulBody b) s)

end Sys2Proof.Machine
end

