-- ==== Sys2Proof/Machine/Dispatch.lean ====
section
/-! DEFINITION. One arm for each constructor of Instr: a direct call of its meaning. -/

namespace Sys2Proof.Machine

def exec (i : Instr) (s : State) : Host.Outcome State Fault Refusal :=
  match i with
  | .nop c => Sys2Proof.Machine.execNop c s
  | .endChain c => Sys2Proof.Machine.execEndChain c s
  | .link c tgt => Sys2Proof.Machine.execLink c tgt s
  | .brc c cond tgt imm off => Sys2Proof.Machine.execBrc c cond tgt imm off s
  | .brcd c tgt off => Sys2Proof.Machine.execBrcd c tgt off s
  | .patch c len tgt off => Sys2Proof.Machine.execPatch c len tgt off s
  | .patchi c len tgt imm => Sys2Proof.Machine.execPatchi c len tgt imm s
  | .patchv c len tgt elem vreg => Sys2Proof.Machine.execPatchv c len tgt elem vreg s
  | .yieldSlot c => Sys2Proof.Machine.execYieldSlot c s
  | .spawn c rb roff inh => Sys2Proof.Machine.execSpawn c rb roff inh s
  | .svc c svcno arg => Sys2Proof.Machine.execSvc c svcno arg s
  | .trap c tno arg => Sys2Proof.Machine.execTrap c tno arg s
  | .brkp c tag => Sys2Proof.Machine.execBrkp c tag s
  | .flti c cause val => Sys2Proof.Machine.execFlti c cause val s
  | .ldt b => Sys2Proof.Machine.execLdt b s
  | .ldg b => Sys2Proof.Machine.execLdg b s
  | .ldgr b => Sys2Proof.Machine.execLdgr b s
  | .ldwb b => Sys2Proof.Machine.execLdwb b s
  | .ldf b => Sys2Proof.Machine.execLdf b s
  | .ldx b => Sys2Proof.Machine.execLdx b s
  | .ldxl b => Sys2Proof.Machine.execLdxl b s
  | .ldw b => Sys2Proof.Machine.execLdw b s
  | .ldq b => Sys2Proof.Machine.execLdq b s
  | .sub b => Sys2Proof.Machine.execSub b s
  | .subc b => Sys2Proof.Machine.execSubc b s
  | .ldacq c wt w64 scope rb roff imm off => Sys2Proof.Machine.execLdacq c wt w64 scope rb roff imm off s
  | .stt b => Sys2Proof.Machine.execStt b s
  | .stg b => Sys2Proof.Machine.execStg b s
  | .stgr b => Sys2Proof.Machine.execStgr b s
  | .stx b => Sys2Proof.Machine.execStx b s
  | .stxl b => Sys2Proof.Machine.execStxl b s
  | .strd b => Sys2Proof.Machine.execStrd b s
  | .atadd b => Sys2Proof.Machine.execAtadd b s
  | .atsmin b => Sys2Proof.Machine.execAtsmin b s
  | .atsmax b => Sys2Proof.Machine.execAtsmax b s
  | .atumin b => Sys2Proof.Machine.execAtumin b s
  | .atumax b => Sys2Proof.Machine.execAtumax b s
  | .atand b => Sys2Proof.Machine.execAtand b s
  | .ator b => Sys2Proof.Machine.execAtor b s
  | .atxor b => Sys2Proof.Machine.execAtxor b s
  | .atxch b => Sys2Proof.Machine.execAtxch b s
  | .atcas b => Sys2Proof.Machine.execAtcas b s
  | .atfadd b => Sys2Proof.Machine.execAtfadd b s
  | .strel c si w64 scope rb roff imm off => Sys2Proof.Machine.execStrel c si w64 scope rb roff imm off s
  | .pub b => Sys2Proof.Machine.execPub b s
  | .pubc b => Sys2Proof.Machine.execPubc b s
  | .semi c sem val => Sys2Proof.Machine.execSemi c sem val s
  | .semq c sem off => Sys2Proof.Machine.execSemq c sem off s
  | .semw c dec sem cnt => Sys2Proof.Machine.execSemw c dec sem cnt s
  | .sems c rmt slot tile sem cnt => Sys2Proof.Machine.execSems c rmt slot tile sem cnt s
  | .regd c b2v b2w b2sem b1v b1w b1sem mode space reg len off => Sys2Proof.Machine.execRegd c b2v b2w b2sem b1v b1w b1sem mode space reg len off s
  | .ringd c prod esem fsem reg ring slot64 nslot => Sys2Proof.Machine.execRingd c prod esem fsem reg ring slot64 nslot s
  | .eos c ring => Sys2Proof.Machine.execEos c ring s
  | .bari c pt exp => Sys2Proof.Machine.execBari c pt exp s
  | .bara c pt pw off => Sys2Proof.Machine.execBara c pt pw off s
  | .barw c pt off => Sys2Proof.Machine.execBarw c pt off s
  | .fence c scope => Sys2Proof.Machine.execFence c scope s
  | .post c op scope rb roff val => Sys2Proof.Machine.execPost c op scope rb roff val s
  | .join c scope rb roff thr => Sys2Proof.Machine.execJoin c scope rb roff thr s
  | .vadd b => Sys2Proof.Machine.execVadd b s
  | .vsub b => Sys2Proof.Machine.execVsub b s
  | .vmul b => Sys2Proof.Machine.execVmul b s
  | .vdiv b => Sys2Proof.Machine.execVdiv b s
  | .vfma b => Sys2Proof.Machine.execVfma b s
  | .vfms b => Sys2Proof.Machine.execVfms b s
  | .vfnma b => Sys2Proof.Machine.execVfnma b s
  | .vsqrt b => Sys2Proof.Machine.execVsqrt b s
  | .vrndi b => Sys2Proof.Machine.execVrndi b s
  | .vmin b => Sys2Proof.Machine.execVmin b s
  | .vmax b => Sys2Proof.Machine.execVmax b s
  | .vabs b => Sys2Proof.Machine.execVabs b s
  | .vneg b => Sys2Proof.Machine.execVneg b s
  | .vcpys b => Sys2Proof.Machine.execVcpys b s
  | .vexpx b => Sys2Proof.Machine.execVexpx b s
  | .vmant b => Sys2Proof.Machine.execVmant b s
  | .vexpins b => Sys2Proof.Machine.execVexpins b s
  | .vfexp2 b => Sys2Proof.Machine.execVfexp2 b s
  | .vrcp b => Sys2Proof.Machine.execVrcp b s
  | .vrsq b => Sys2Proof.Machine.execVrsq b s
  | .vlog2f b => Sys2Proof.Machine.execVlog2f b s
  | .vmov b => Sys2Proof.Machine.execVmov b s
  | .vbcst b => Sys2Proof.Machine.execVbcst b s
  | .viota b => Sys2Proof.Machine.execViota b s
  | .vrun b => Sys2Proof.Machine.execVrun b s
  | .vlen b => Sys2Proof.Machine.execVlen b s
  | .viadd b => Sys2Proof.Machine.execViadd b s
  | .visub b => Sys2Proof.Machine.execVisub b s
  | .vimul b => Sys2Proof.Machine.execVimul b s
  | .vimad b => Sys2Proof.Machine.execVimad b s
  | .vimulh b => Sys2Proof.Machine.execVimulh b s
  | .vimulhu b => Sys2Proof.Machine.execVimulhu b s
  | .vimin b => Sys2Proof.Machine.execVimin b s
  | .vimax b => Sys2Proof.Machine.execVimax b s
  | .vumin b => Sys2Proof.Machine.execVumin b s
  | .vumax b => Sys2Proof.Machine.execVumax b s
  | .vand b => Sys2Proof.Machine.execVand b s
  | .vor b => Sys2Proof.Machine.execVor b s
  | .vxor b => Sys2Proof.Machine.execVxor b s
  | .vnot b => Sys2Proof.Machine.execVnot b s
  | .vshl b => Sys2Proof.Machine.execVshl b s
  | .vshr b => Sys2Proof.Machine.execVshr b s
  | .vsra b => Sys2Proof.Machine.execVsra b s
  | .vclz b => Sys2Proof.Machine.execVclz b s
  | .vpop b => Sys2Proof.Machine.execVpop b s
  | .vld b => Sys2Proof.Machine.execVld b s
  | .vst b => Sys2Proof.Machine.execVst b s
  | .vldr b => Sys2Proof.Machine.execVldr b s
  | .vstr b => Sys2Proof.Machine.execVstr b s
  | .vcmp b => Sys2Proof.Machine.execVcmp b s
  | .vicmp b => Sys2Proof.Machine.execVicmp b s
  | .vsel b => Sys2Proof.Machine.execVsel b s
  | .vmand b => Sys2Proof.Machine.execVmand b s
  | .vmor b => Sys2Proof.Machine.execVmor b s
  | .vmxor b => Sys2Proof.Machine.execVmxor b s
  | .vmnot b => Sys2Proof.Machine.execVmnot b s
  | .vmcnt b => Sys2Proof.Machine.execVmcnt b s
  | .vmfst b => Sys2Proof.Machine.execVmfst b s
  | .vrsum b => Sys2Proof.Machine.execVrsum b s
  | .vrisum b => Sys2Proof.Machine.execVrisum b s
  | .vrmax b => Sys2Proof.Machine.execVrmax b s
  | .vrmin b => Sys2Proof.Machine.execVrmin b s
  | .vrarg b => Sys2Proof.Machine.execVrarg b s
  | .vrcnt b => Sys2Proof.Machine.execVrcnt b s
  | .vscan b => Sys2Proof.Machine.execVscan b s
  | .vcomp b => Sys2Proof.Machine.execVcomp b s
  | .vexpd b => Sys2Proof.Machine.execVexpd b s
  | .vgath b => Sys2Proof.Machine.execVgath b s
  | .vrco b => Sys2Proof.Machine.execVrco b s
  | .vrcot b => Sys2Proof.Machine.execVrcot b s
  | .vtopk b => Sys2Proof.Machine.execVtopk b s
  | .vhist b => Sys2Proof.Machine.execVhist b s
  | .vdot b => Sys2Proof.Machine.execVdot b s
  | .fcvt b => Sys2Proof.Machine.execFcvt b s
  | .fcvti b => Sys2Proof.Machine.execFcvti b s
  | .icvtf b => Sys2Proof.Machine.execIcvtf b s
  | .icvt b => Sys2Proof.Machine.execIcvt b s
  | .lgenc b => Sys2Proof.Machine.execLgenc b s
  | .lgdec b => Sys2Proof.Machine.execLgdec b s
  | .qnt b => Sys2Proof.Machine.execQnt b s
  | .dqnt b => Sys2Proof.Machine.execDqnt b s
  | .pk4 b => Sys2Proof.Machine.execPk4 b s
  | .upk4 b => Sys2Proof.Machine.execUpk4 b s
  | .fclass b => Sys2Proof.Machine.execFclass b s
  | .mma b => Sys2Proof.Machine.execMma b s
  | .mmas b => Sys2Proof.Machine.execMmas b s
  | .mmd b => Sys2Proof.Machine.execMmd b s
  | .mmc b => Sys2Proof.Machine.execMmc b s
  | .acz b => Sys2Proof.Machine.execAcz b s
  | .acr b => Sys2Proof.Machine.execAcr b s
  | .acw b => Sys2Proof.Machine.execAcw b s
  | .acmv b => Sys2Proof.Machine.execAcmv b s
  | .drn b => Sys2Proof.Machine.execDrn b s
  | .winl b => Sys2Proof.Machine.execWinl b s
  | .wpool b => Sys2Proof.Machine.execWpool b s
  | .vbfly b => Sys2Proof.Machine.execVbfly b s
  | .vtwd b => Sys2Proof.Machine.execVtwd b s
  | .vcmul b => Sys2Proof.Machine.execVcmul b s
  | .migr c dtier rb roff npg => Sys2Proof.Machine.execMigr c dtier rb roff npg s
  | .migrs c dtier rb roff npg => Sys2Proof.Machine.execMigrs c dtier rb roff npg s
  | .mpin c rb roff npg => Sys2Proof.Machine.execMpin c rb roff npg s
  | .munpin c rb roff npg => Sys2Proof.Machine.execMunpin c rb roff npg s
  | .madv c adv rb roff npg => Sys2Proof.Machine.execMadv c adv rb roff npg s
  | .mabrt c rb roff npg => Sys2Proof.Machine.execMabrt c rb roff npg s
  | .mhot c clr rb roff npg off => Sys2Proof.Machine.execMhot c clr rb roff npg off s
  | .mqry c rb roff npg off => Sys2Proof.Machine.execMqry c rb roff npg off s
  | .tkpost rd rs1 rs2 => Sys2Proof.Machine.execTkpost rd rs1 rs2 s
  | .tkcncl rd rs1 rs2 => Sys2Proof.Machine.execTkcncl rd rs1 rs2 s
  | .tkstat rd rs1 rs2 => Sys2Proof.Machine.execTkstat rd rs1 rs2 s
  | .tkrsm rd rs1 rs2 => Sys2Proof.Machine.execTkrsm rd rs1 rs2 s
  | .tkpark rd rs1 rs2 => Sys2Proof.Machine.execTkpark rd rs1 rs2 s
  | .lnnew rd rs1 => Sys2Proof.Machine.execLnnew rd rs1 s
  | .lncnt rd rs1 => Sys2Proof.Machine.execLncnt rd rs1 s
  | .lncncl rd rs1 => Sys2Proof.Machine.execLncncl rd rs1 s
  | .grcnt rd rs1 => Sys2Proof.Machine.execGrcnt rd rs1 s
  | .grcncl rd rs1 => Sys2Proof.Machine.execGrcncl rd rs1 s
  | .jbcnt rd rs1 => Sys2Proof.Machine.execJbcnt rd rs1 s
  | .jbcncl rd rs1 => Sys2Proof.Machine.execJbcncl rd rs1 s
  | .semrd rd rs1 => Sys2Proof.Machine.execSemrd rd rs1 s
  | .semwr rd rs1 rs2 => Sys2Proof.Machine.execSemwr rd rs1 rs2 s
  | .semsig rd rs1 rs2 => Sys2Proof.Machine.execSemsig rd rs1 rs2 s
  | .barini rd rs1 rs2 => Sys2Proof.Machine.execBarini rd rs1 rs2 s
  | .bararv rd rs1 => Sys2Proof.Machine.execBararv rd rs1 s
  | .barwt rd rs1 rs2 => Sys2Proof.Machine.execBarwt rd rs1 rs2 s
  | .fqpop rd rs1 => Sys2Proof.Machine.execFqpop rd rs1 s
  | .fbrd rd rs1 => Sys2Proof.Machine.execFbrd rd rs1 s
  | .stoprd rd rs1 rs2 => Sys2Proof.Machine.execStoprd rd rs1 rs2 s
  | .ctxsv rd rs1 rs2 => Sys2Proof.Machine.execCtxsv rd rs1 rs2 s
  | .ctxrs rd rs1 rs2 => Sys2Proof.Machine.execCtxrs rd rs1 rs2 s
  | .tlbinv rd rs1 rs2 => Sys2Proof.Machine.execTlbinv rd rs1 rs2 s
  | .hinv rd rs1 rs2 => Sys2Proof.Machine.execHinv rd rs1 rs2 s
  | .stepctl rd rs1 rs2 => Sys2Proof.Machine.execStepctl rd rs1 rs2 s
  | .wdset rd rs1 rs2 => Sys2Proof.Machine.execWdset rd rs1 rs2 s
  | .budset rd rs1 rs2 => Sys2Proof.Machine.execBudset rd rs1 rs2 s
  | .caprd rd rs1 => Sys2Proof.Machine.execCaprd rd rs1 s
  | .cycrd rd => Sys2Proof.Machine.execCycrd rd s
  | .thyrd rd rs1 rs2 => Sys2Proof.Machine.execThyrd rd rs1 rs2 s
  | .pclcfg rd rs1 rs2 => Sys2Proof.Machine.execPclcfg rd rs1 rs2 s
  | .blockFetch e => Sys2Proof.Machine.execBlockFetch e s
  | .encodingFault e => Sys2Proof.Machine.execEncodingFault e s
  | .blockComplete e idx => Sys2Proof.Machine.execBlockComplete e idx s
  | .forkJoin idx => Sys2Proof.Machine.execForkJoin idx s
  | .spawnAccept idx => Sys2Proof.Machine.execSpawnAccept idx s
  | .spawnRefusalRaise e => Sys2Proof.Machine.execSpawnRefusalRaise e s
  | .guardFaultRaise e => Sys2Proof.Machine.execGuardFaultRaise e s
  | .ringSlotTake e => Sys2Proof.Machine.execRingSlotTake e s
  | .ringEndSkip e => Sys2Proof.Machine.execRingEndSkip e s
  | .subTileDelivery tile slot ring => Sys2Proof.Machine.execSubTileDelivery tile slot ring s
  | .pubSlotDrain tile slot ring => Sys2Proof.Machine.execPubSlotDrain tile slot ring s
  | .pageWalk tile pasid va => Sys2Proof.Machine.execPageWalk tile pasid va s
  | .accessEntryFreed tile => Sys2Proof.Machine.execAccessEntryFreed tile s
  | .hotnessSample => Sys2Proof.Machine.execHotnessSample s
  | .hotnessDecay => Sys2Proof.Machine.execHotnessDecay s
  | .promotion pasid va => Sys2Proof.Machine.execPromotion pasid va s
  | .demotion pasid va => Sys2Proof.Machine.execDemotion pasid va s
  | .migrationAccept idx => Sys2Proof.Machine.execMigrationAccept idx s
  | .chunkCopy idx => Sys2Proof.Machine.execChunkCopy idx s
  | .commit idx => Sys2Proof.Machine.execCommit idx s
  | .migrationRelease idx => Sys2Proof.Machine.execMigrationRelease idx s
  | .migrationAbort idx reason => Sys2Proof.Machine.execMigrationAbort idx reason s
  | .abortComplete idx => Sys2Proof.Machine.execAbortComplete idx s
  | .taskDispatch => Sys2Proof.Machine.execTaskDispatch s
  | .taskRestore => Sys2Proof.Machine.execTaskRestore s
  | .contextSave tile slot => Sys2Proof.Machine.execContextSave tile slot s
  | .taskPark tile slot => Sys2Proof.Machine.execTaskPark tile slot s
  | .taskComplete task => Sys2Proof.Machine.execTaskComplete task s
  | .budgetExhausted tile slot => Sys2Proof.Machine.execBudgetExhausted tile slot s
  | .watchdog tile slot => Sys2Proof.Machine.execWatchdog tile slot s
  | .slotAged e => Sys2Proof.Machine.execSlotAged e s
  | .haltLine pasid => Sys2Proof.Machine.execHaltLine pasid s
  | .engineStop e => Sys2Proof.Machine.execEngineStop e s
  | .slotRelease tile slot => Sys2Proof.Machine.execSlotRelease tile slot s
  | .heldRecordWrite die => Sys2Proof.Machine.execHeldRecordWrite die s
  | .scrub t sector correctable => Sys2Proof.Machine.execScrub t sector correctable s
  | .linkFailure pasid task noPath va => Sys2Proof.Machine.execLinkFailure pasid task noPath va s
  | .fatalError location kind => Sys2Proof.Machine.execFatalError location kind s
  | .temperatureTrip => Sys2Proof.Machine.execTemperatureTrip s
  | .powerMeasurement => Sys2Proof.Machine.execPowerMeasurement s
  | .coldReset => Sys2Proof.Machine.execColdReset s
  | .warmReset => Sys2Proof.Machine.execWarmReset s
  | .recoveryImage => Sys2Proof.Machine.execRecoveryImage s
  | .launchLine qid dws => Sys2Proof.Machine.execLaunchLine qid dws s
  | .launchPageOtherWrite qid off => Sys2Proof.Machine.execLaunchPageOtherWrite qid off s
  | .ringSlotReread qid => Sys2Proof.Machine.execRingSlotReread qid s
  | .mailboxMessage pair reply => Sys2Proof.Machine.execMailboxMessage pair reply s
  | .launchPacket qid => Sys2Proof.Machine.execLaunchPacket qid s
  | .graphPacket qid => Sys2Proof.Machine.execGraphPacket qid s
  | .modelPacket qid => Sys2Proof.Machine.execModelPacket qid s
  | .signalPacket qid => Sys2Proof.Machine.execSignalPacket qid s
  | .waitPacket qid => Sys2Proof.Machine.execWaitPacket qid s
  | .waitPacketComplete qid => Sys2Proof.Machine.execWaitPacketComplete qid s
  | .pasnew => Sys2Proof.Machine.execPasnew s
  | .pasdel => Sys2Proof.Machine.execPasdel s
  | .qnew => Sys2Proof.Machine.execQnew s
  | .qdel => Sys2Proof.Machine.execQdel s
  | .hset => Sys2Proof.Machine.execHset s
  | .grant => Sys2Proof.Machine.execGrant s
  | .mload => Sys2Proof.Machine.execMload s
  | .munld => Sys2Proof.Machine.execMunld s
  | .dumpreg => Sys2Proof.Machine.execDumpreg s
  | .fwupd => Sys2Proof.Machine.execFwupd s
  | .attest => Sys2Proof.Machine.execAttest s
  | .wreset => Sys2Proof.Machine.execWreset s
  | .peerWindowAccess t addr op width value => Sys2Proof.Machine.execPeerWindowAccess t addr op width value s
  | .partialLaunchLine qid => Sys2Proof.Machine.execPartialLaunchLine qid s
  | .illegalInstruction w => Sys2Proof.Machine.execIllegalInstruction w s

end Sys2Proof.Machine
end

