-- ==== Sys2Proof/Machine/Step.lean ====
section
/-! DEFINITION. One step of the module: time passes, and one agent takes its turn (log 1). -/

namespace Sys2Proof.Machine

/-- Is an instruction an event of the part, with no encoding? -/
def isEvent (i : Instr) : Bool := (lParts i).isNone && (sParts i).isNone && (xParts i).isNone

/-- The next turn: the agenda's first, or one that the spec leaves open. -/
def State.nextTurn (s : State) : Pending := match s.agenda with | p :: _ => p | [] => Config.interleave s.steps

/-- Events whose moment the spec fixes, each with the cycles until then: the watchdog of a slot whose job runs (R310), the
end of a decay period (R278). -/
def State.timed (s : State) : List (Nat × Instr) :=
  (s.slots.filter fun (k, x) => x.task.isSome && !x.inPlace && !x.cancelled && (s.jobOf (k / 4) (k % 4)).runs).map
    (fun (k, x) => (x.wdActive - x.ctx.wdc, .watchdog (k / 4) (k % 4))) ++
  [(s.untilDecay, .hotnessDecay)]

/-- The first of those whose moment comes within dt cycles: it is taken before the next turn. -/
def State.dueIn (s : State) (dt : Nat) : Option (Nat × Instr) :=
  s.timed.foldl (fun o e => if dt < e.1 then o else match o with | none => some e | some f => if e.1 < f.1 then some e else o) none

/-- The state in which a turn is taken; rest: the turns that follow. -/
def State.begin (s : State) (p : Pending) (rest : List Pending) : State :=
  ({ s.tick p.dt with agenda := rest, steps := s.steps + 1, env := p.env } : State).meetSectors

/-- A chain sequencer's turn: what its head block watches may be reported, and it takes a step. -/
def engineTurn (r : EngRef) (s : State) : Host.Outcome State Fault Refusal :=
  if !r.ok then .fault .noSuchUnit
  else
    let t := ({ s with ref := r } : State).watchHead r
    match t.sequence r with
    | some (i, s1) => exec i s1
    | none => .next t

/-- A supervisor's turn: it fetches at its pc and runs the instruction. -/
def supervisorTurn (c : Nat) (s : State) : Host.Outcome State Fault Refusal :=
  if numClusters ≤ c then .fault .noSuchUnit
  else
    match s.supInstr c with
    | some i => exec i { s with hart := c }
    | none => .refused .rv64Instruction

/-- An event's turn. -/
def eventTurn (i : Instr) (s : State) : Host.Outcome State Fault Refusal :=
  if isEvent i then exec i s else .fault .noSuchUnit

/-- One step: a turn, or the event that comes before it. A module without power only waits for a cold reset (R357,
R359). -/
def step (s : State) : Host.Outcome State Fault Refusal :=
  let p := s.nextTurn
  let rest := s.agenda.tail
  if !s.mgmt.powered && p.turn != .event .coldReset then .next (s.begin p rest)
  else
  match s.dueIn p.dt with
  | some (n, i) => eventTurn i (s.begin { dt := n, turn := .event i } ({ p with dt := p.dt - n } :: rest))
  | none =>
  match p.turn with
  | .engine r => engineTurn r (s.begin p rest)
  | .supervisor c => supervisorTurn c (s.begin p rest)
  | .event i => eventTurn i (s.begin p rest)

/-- The chain sequencer that withFetchWord gives a block to: the first whose engine accepts it. -/
def engineFor (ws : List Nat) : Engine :=
  (Engine.all.find? fun e => (decode e 0 ws).toOption.isSome).getD .lde

/-- An X-form word at the pc of cluster 0's supervisor, or a block at the head of a queue in slot 0 of tile 0;
and the turn that runs it next (log 9). -/
def State.withFetchWord (s : State) (nbits w : Nat) : State :=
  if nbits ≤ 32 then
    { s with supmem := Memory.putNat s.supmem (s.hartAt 0).pc 4 w, agenda := [{ turn := .supervisor 0 }] }
  else
    let ws := dwsOf (if szOf (bits w 0 64) = 1 then 16 else 4) w
    let r := engRef 0 0 (engineFor ws)
    let s1 := s.setTask s.nextTask { state := .resident, place := some 0 }
    let s2 := s1.setSlot 0 0 { task := some s.nextTask }
    let s3 := s2.setChain r { present := true, queue := [{ addr := 0, words := ws }] }
    { s3 with agenda := [{ turn := .engine r }] }

end Sys2Proof.Machine
end

