-- ==== Sys2Proof/Safety.lean ====
section
/-! DEFINITION. The terms that statements about runs are said in: a block that may issue, what it reads as it
issues and as it runs, the state after its one iteration, tables of forms of one shape, and the invariant of the state. -/

namespace Sys2Proof.Machine

/-! ### Blocks that issue -/

/-- The entry of a block as it issues, with the descriptor it has read (R88). -/
def State.newEntry (s : State) (i : Instr) (hd : Option Handle) : InFlight :=
  let c := s.ctx s.ref
  { addr := (s.chain s.ref).cursor, words := encode i, instr := i, serial := s.steps, handle := hd,
    rights := c.granted (ctlOf i), slots := c.grantedSlots (ctlOf i),
    taken := ((c.takeWaits (Ctl.waits (ctlOf i))).takeSlots (rqRings i)).2, stepped := c.step && (s.chain s.ref).stepDue,
    since := if ordersIssue i then s.steps else (s.chain s.ref).since }

/-- The run of an issued block before its first iteration. -/
def State.firstRun (s : State) (i : Instr) (hd : Option Handle) : Run :=
  let s1 := s.startBlock s.ref i hd
  { s := s1, v := s1.viewOf s.ref (s.nextIndex s.ref), f := s.newEntry i hd }

/-- A block may issue on the acting engine and meets none of the faults that every block is checked for at issue
(R88, R169, R171, R93, R33, R34); no check of storage fails in this turn and no word of the tile is lost (R114, R338); and
nothing holds the block up once it has issued: no earlier block of its chain is to come before its first iteration, an accumulating
one with a common cell (R241) or a store with a common sector (R155), its accesses find entries (R12), and a ring slot that its
first iteration gives back is added to a semaphore that has not been tested in this cycle (R167). -/
structure State.Issues (s : State) (i : Instr) : Prop where
  fresh : findRun i (s.chain s.ref).inflight 0 = none
  gate  : s.gate s.ref i = .go
  fine  : s.issueFault s.ref i = none
  calm  : s.env = {}
  whole : (s.tile s.ref.tile).whole = true
  clear : ∀ hd, (s.startBlock s.ref i hd).mayIterate s.ref (s.nextIndex s.ref) = true
  timely : (s.firstRun i none).late s.ref = false

/-- The same for a block of one step. -/
structure State.Goes (s : State) (i : Instr) : Prop where
  gate  : s.gate s.ref i = .go
  fine  : s.issueFault s.ref i = none
  calm  : s.env = {}
  whole : (s.tile s.ref.tile).whole = true

/-- Such a block with one iteration. -/
def State.IssuesOnce (s : State) (i : Instr) : Prop := s.Issues i ∧ iterationsOf i = 1

/-- The chain of a block that has issued (R88). -/
def State.issuedChain (s : State) (i : Instr) (hd : Option Handle) : Chain :=
  let h := s.chain s.ref
  { h with cursor := nextAddr h.cursor i, queue := popQueue h.queue h.cursor, inflight := h.inflight ++ [s.newEntry i hd],
           passBrk := false, stepBusy := (s.ctx s.ref).step && h.stepDue, stepDue := false, headParked := false, report := none,
           since := if ordersIssue i then s.steps else h.since,
           feet := if (s.task (s.taskOf s.ref)).check then
               h.feetAfter i ++ [{ slot := (ctlOf i).sbset, hold := isHolding i || isImmediate i || loneWriter s s.ref i,
                                   parts := footOf s s.ref i, serial := s.steps }]
             else [] }

/-- The slot of a block that has issued. -/
def State.issuedCtx (s : State) (i : Instr) (hd : Option Handle) : Ctx :=
  ((((s.ctx s.ref).takeWaits (Ctl.waits (ctlOf i))).takeSlots (rqRings i)).1).setChain s.ref.eng (s.issuedChain i hd)

/-- The state in which an S-form block has issued, its index in flight, and its completion in that step. -/
def State.issued (s : State) (i : Instr) : State := s.startBlock s.ref i none
def State.finish (s : State) (t : State) : State := t.completeBlock s.ref (s.nextIndex s.ref)
/-- The slot as an issued S-form block sees it (R91). -/
def State.sees (s : State) (i : Instr) : Ctx := (s.issued i).viewOf s.ref (s.nextIndex s.ref)
/-- An issued block stays in flight with the given writes, made at its completion. -/
def State.leaves (s : State) (t : State) (ws : List TileWrite) : State :=
  t.updEntry s.ref (s.nextIndex s.ref) fun f => { f with writes := ws }

/-- The state in which the first iteration of a block reads: it has issued, its slot is as the block sees it (R91), and memory as
its reads find it (R189). -/
def State.reading (s : State) (i : Instr) (hd : Option Handle) : State := (s.firstRun i hd).seen s.ref

/-- The two states in which a VXE block looks at its operands: for the checks of issue, and for its first iteration. -/
def State.views (s : State) (i : Instr) : List (State × InFlight) :=
  [(s.seenBy s.ref (s.nextIndex s.ref), wouldBe s s.ref i), (s.reading i none, s.newEntry i none)]

/-- Every register operand of a VXE block carries its format as the block issues (R76, R199, R200). -/
def State.TagsOk (s : State) (i : Instr) (b : LBlk) : Prop := tagsOk (s.seenBy s.ref (s.nextIndex s.ref)) s.ref i b = true

/-- The state after a block of one iteration has issued and run: its entry is in flight with the writes that become
visible at completion (R89), its accesses are handed out as its fork (R148). -/
def State.ran (s : State) (i : Instr) (hd : Option Handle) (o : IterOut) : State :=
  let y := (s.firstRun i hd).after s.ref o
  y.s.endRun s.ref (s.nextIndex s.ref) { y.f with phase := .done } y.fork y.fault

/-- An operand's logical sequence, and the sectors sampled, as the block reads it; sfmt: the format whose sign its modifier
works on (R220). -/
def State.Reads (s : State) (i : Instr) (x : Desc) (fmt : Nat) (ctr : Counters) (v : Runs) (h : Hot) (sfmt : Nat := fmt) : Prop :=
  ∀ p ∈ s.views i, operandSeq p.1 s.ref p.2 x fmt ctr sfmt = .ok (v, h)

/-- An operand's elements as memory bits of a width. -/
def State.ReadsBits (s : State) (i : Instr) (x : Desc) (w : Nat) (ctr : Counters) (l : List Nat) (h : Hot) : Prop :=
  ∀ p ∈ s.views i, readOperand p.1 s.ref p.2 x w ctr = .ok (l, h)

/-- A complex operand's elements (R260). -/
def State.ReadsComplex (s : State) (i : Instr) (x : Desc) (ctr : Counters) (l : List (Nat × Nat)) (h : Hot) : Prop :=
  ∀ p ∈ s.views i, complexSeq p.1 s.ref p.2 x ctr = .ok (l, h)

/-- The window record of a block as it reads it, checked (R254, R256). -/
def State.ReadsWindow (s : State) (i : Instr) (b : LBlk) (pool : Bool) (q : WinRec) : Prop :=
  ∀ p ∈ s.views i, readWindow p.1 s.ref p.2 b pool 0 = .ok q

/-- The state after a block's first iteration has met a fault: the block is in flight at that iteration (R119, R201). -/
def State.faulted (s : State) (i : Instr) (hd : Option Handle) (e : BlockFault) : State :=
  (s.startBlock s.ref i hd).endRun s.ref (s.nextIndex s.ref) (s.newEntry i hd) [] (some { e with ctr := ctrOf i 0 })

/-- The mask of the block as it reads it. -/
def State.Masks (s : State) (i : Instr) (b : LBlk) (n : Nat) (m : Option Runs) : Prop :=
  ∀ p ∈ s.views i, maskSeq p.1 s.ref b n = .ok m

/-- Old D as the block reads it. -/
def State.ReadsOld (s : State) (i : Instr) (b : LBlk) (tag : Nat) (v : Runs) : Prop :=
  ∀ p ∈ s.views i, (p.1.ctx s.ref).regSeq b.d tag (b.counters 0) = .ok v

/-- The selector mask of the block as it reads it. -/
def State.Selects (s : State) (i : Instr) (b : LBlk) (m : Runs) : Prop :=
  ∀ p ∈ s.views i, selectorSeq p.1 s.ref b = m

/-- A masked result y of n elements goes to D as the output o (R199 to R201), every tag being right. -/
def State.Delivers (s : State) (i : Instr) (b : LBlk) (tag n : Nat) (y : Runs) (h : Hot) (o : IterOut) : Prop :=
  s.TagsOk i b ∧ ∀ p ∈ s.views i, finishVec p.1 s.ref b tag n (b.counters 0) y h = .ok o

/-- A result y to which no mask applies goes to D as the output o (R200, R201). -/
def State.DeliversPlain (s : State) (i : Instr) (b : LBlk) (tag : Nat) (y : Runs) (h : Hot) (o : IterOut) : Prop :=
  s.TagsOk i b ∧ ∀ p ∈ s.views i, finishPlain p.1 s.ref b tag (b.counters 0) y h = .ok o

/-- A result y of n elements goes under the mask to a register or a tile pool window as the output o (R254). -/
def State.DeliversAny (s : State) (i : Instr) (b : LBlk) (n : Nat) (y : Runs) (h : Hot) (o : IterOut) : Prop :=
  s.TagsOk i b ∧ ∀ p ∈ s.views i, finishAny p.1 s.ref b n 0 y h = .ok o

/-- A sequence y goes under the mask to D's pool window as the output o (R215). -/
def State.DeliversWindow (s : State) (i : Instr) (b : LBlk) (fmt : Nat) (y : Runs) (h : Hot) (o : IterOut) : Prop :=
  s.TagsOk i b ∧ ∀ p ∈ s.views i, storeWindow p.1 s.ref b fmt (b.counters 0) y h = .ok o

/-! ### Elementwise forms -/

/-- An elementwise form: its result's format, whether it reads B and old D, and its function of the elements of A, B
and old D at one position. -/
structure ElementForm where
  ins : LBlk → Instr
  F   : LBlk → Nat → Nat → Nat → Nat
  two : Bool := false
  old : Bool := false
  tag : LBlk → Nat := LBlk.fmt

/-- Floating-point arithmetic (R204 to R210) and pool reads (R213, R215). -/
def floatForms : List ElementForm :=
  [ { ins := .vadd, two := true, F := fun b x z _ => (fmtOf b.fmt).add b.rm (b.sat == 1) x z },
    { ins := .vsub, two := true, F := fun b x z _ => (fmtOf b.fmt).sub b.rm (b.sat == 1) x z },
    { ins := .vmul, two := true, F := fun b x z _ => (fmtOf b.fmt).mul b.rm (b.sat == 1) x z },
    { ins := .vdiv, two := true, F := fun b x z _ => (fmtOf b.fmt).div b.rm (b.sat == 1) ((fmtOf b.fmt).value x) ((fmtOf b.fmt).value z) },
    { ins := .vfma, two := true, old := true, F := fun b x z d => (fmtOf b.fmt).fma b.rm (b.sat == 1) x z d },
    { ins := .vfms, two := true, old := true, F := fun b x z d => (fmtOf b.fmt).fl b.rm (b.sat == 1)
        (FVal.add b.rm (FVal.mul ((fmtOf b.fmt).value x) ((fmtOf b.fmt).value z)) (FVal.neg ((fmtOf b.fmt).value d))) },
    { ins := .vfnma, two := true, old := true, F := fun b x z d => (fmtOf b.fmt).fl b.rm (b.sat == 1)
        (FVal.add b.rm ((fmtOf b.fmt).value d) (FVal.neg (FVal.mul ((fmtOf b.fmt).value x) ((fmtOf b.fmt).value z)))) },
    { ins := .vsqrt, F := fun b x _ _ => (fmtOf b.fmt).sqrt b.rm ((fmtOf b.fmt).value x) },
    { ins := .vrndi, F := fun b x _ _ => rndi (fmtOf b.fmt) b.rm x },
    { ins := .vmin, two := true, F := fun b x z _ => (fmtOf b.fmt).minNum x z },
    { ins := .vmax, two := true, F := fun b x z _ => (fmtOf b.fmt).maxNum x z } ] ++
  [ { ins := .vabs, F := fun b x _ _ => nanOr (fmtOf b.fmt) x fun _ => x % (fmtOf b.fmt).signBit },
    { ins := .vneg, F := fun b x _ _ => nanOr (fmtOf b.fmt) x fun _ => xorN x (fmtOf b.fmt).signBit },
    { ins := .vcpys, two := true, F := fun b x z _ => copySign (fmtOf b.fmt) x z },
    { ins := .vexpx, F := fun b x _ _ => expx (fmtOf b.fmt) x },
    { ins := .vmant, F := fun b x _ _ => mant (fmtOf b.fmt) x },
    { ins := .vexpins, two := true, F := fun b x z _ => expins (fmtOf b.fmt) b.rm (b.sat == 1) x z },
    { ins := .vfexp2, F := fun _ x _ _ => fexp2 x }, { ins := .vrcp, F := fun _ x _ _ => rcp x },
    { ins := .vrsq, F := fun _ x _ _ => rsq x }, { ins := .vlog2f, F := fun _ x _ _ => log2f x },
    { ins := .vmov, tag := fun b => if b.dfmt = 0 then b.fmt else b.dfmt,
      F := fun b x _ _ => x % 2 ^ fmtWidth (if b.dfmt = 0 then b.fmt else b.dfmt) },
    { ins := .vld, F := fun _ x _ _ => x } ]

/-- Integer arithmetic (R212). -/
def intForms : List ElementForm :=
  [ { ins := .viadd, two := true, F := fun b x z _ => wrapClamp b.fmt (b.sat == 1) (intVal b.fmt x + intVal b.fmt z) },
    { ins := .visub, two := true, F := fun b x z _ => wrapClamp b.fmt (b.sat == 1) (intVal b.fmt x - intVal b.fmt z) },
    { ins := .vimul, two := true, F := fun b x z _ => wrapClamp b.fmt (b.sat == 1) (intVal b.fmt x * intVal b.fmt z) },
    { ins := .vimad, two := true, old := true,
      F := fun b x z d => wrapClamp b.fmt (b.sat == 1) (intVal b.fmt x * intVal b.fmt z + intVal b.fmt d) },
    { ins := .vimulh, two := true, F := fun b x z _ => mulHigh b.fmt x z },
    { ins := .vimulhu, two := true, F := fun b x z _ => x * z / 2 ^ fmtWidth b.fmt },
    { ins := .vimin, two := true, F := fun b x z _ => if signed (fmtWidth b.fmt) z < signed (fmtWidth b.fmt) x then z else x },
    { ins := .vimax, two := true, F := fun b x z _ => if signed (fmtWidth b.fmt) x < signed (fmtWidth b.fmt) z then z else x },
    { ins := .vumin, two := true, F := fun _ x z _ => min x z }, { ins := .vumax, two := true, F := fun _ x z _ => max x z } ] ++
  [ { ins := .vand, two := true, F := fun _ x z _ => andN x z }, { ins := .vor, two := true, F := fun _ x z _ => orN x z },
    { ins := .vxor, two := true, F := fun _ x z _ => xorN x z }, { ins := .vnot, F := fun b x _ _ => 2 ^ fmtWidth b.fmt - 1 - x },
    { ins := .vshl, two := true, F := fun b x z _ => shiftLeft (fmtWidth b.fmt) x z },
    { ins := .vshr, two := true, F := fun b x z _ => shiftRight (fmtWidth b.fmt) x z },
    { ins := .vsra, two := true, F := fun b x z _ => shiftArith b.fmt x z },
    { ins := .vclz, F := fun b x _ _ => fmtWidth b.fmt - bitLen x }, { ins := .vpop, F := fun b x _ _ => popCount (fmtWidth b.fmt) x } ]

/-- Compares and mask algebra (R222, R224), conversions of elements (R78 to R82, R84, R85). -/
def maskForms : List ElementForm :=
  [ { ins := .vcmp, two := true, tag := fun _ => 10, F := fun b x z _ => ofBool (fcmp b.opx ((fmtOf b.fmt).value x) ((fmtOf b.fmt).value z)) },
    { ins := .vicmp, two := true, tag := fun _ => 10, F := fun b x z _ => ofBool (icmp b.opx (fmtWidth b.fmt) x z) },
    { ins := .vmand, two := true, F := fun _ x z _ => andN x z }, { ins := .vmor, two := true, F := fun _ x z _ => orN x z },
    { ins := .vmxor, two := true, F := fun _ x z _ => xorN x z }, { ins := .vmnot, F := fun _ x _ _ => 1 - x } ]

def convertForms : List ElementForm :=
  [ { ins := .fcvt, tag := LBlk.dfmt, F := fun b x _ _ => (fmtOf b.dfmt).fl b.rm (b.sat == 1) ((fmtOf b.fmt).value x) },
    { ins := .fcvti, tag := LBlk.dfmt, F := fun b x _ _ => fvalToInt b.dfmt b.rm ((fmtOf b.fmt).value x) },
    { ins := .icvtf, tag := LBlk.dfmt, F := fun b x _ _ => (fmtOf b.dfmt).fl b.rm (b.sat == 1) (FVal.ofInt (intVal b.fmt x)) },
    { ins := .icvt, tag := LBlk.dfmt, F := fun b x _ _ => icvt b.fmt b.dfmt (b.sat == 1) x },
    { ins := .lgenc, tag := LBlk.dfmt, F := fun b x _ _ => l6OfFp32 (toFp32 (fmtOf b.fmt) x) },
    { ins := .lgdec, tag := LBlk.dfmt, F := fun _ x _ _ => l6ToFp32 x },
    { ins := .upk4, tag := LBlk.dfmt, F := fun b x _ _ => icvt 7 b.dfmt false x },
    { ins := .fclass, tag := LBlk.dfmt, F := fun b x _ _ => fclass (fmtOf b.fmt) x } ]

/-- Elements of an aligned result: at every position F of what A, B and old D hold there, an operand of one element
holding it everywhere (R197, R198). -/
def ElementForm.Computes (e : ElementForm) (b : LBlk) (n : Nat) (a z d y : Runs) : Prop :=
  y.total = n ∧ ∀ p < n, y.at_ p = e.F b ((broadcast n a).at_ p) ((broadcast n z).at_ p) ((broadcast n d).at_ p)

/-! ### Reductions -/

/-- A reduction: its result's format and its function of the contribution runs (R225 to R227, R224). -/
structure ReductionForm where
  ins : LBlk → Instr
  tag : LBlk → Nat := fun _ => 8
  F   : LBlk → List (Nat × Nat × Nat) → Nat

def reductionForms : List ReductionForm :=
  [ { ins := .vmcnt, F := fun _ l => ((l.filter (·.1 == 1)).map (·.2.1)).sum },
    { ins := .vmfst, F := fun _ l => ((l.find? (·.1 == 1)).map (·.2.2)).getD 0xFFFFFFFF },
    { ins := .vrsum, tag := LBlk.dfmt, F := fun b => runSum (fmtOf b.fmt) (fmtOf b.dfmt) b.rm (b.sat == 1) },
    { ins := .vrisum, tag := LBlk.dfmt,
      F := fun b l => l.foldl (fun acc (v, c, _) => wrapClamp b.dfmt (b.sat == 1) (intVal b.dfmt acc + intVal b.fmt v * c)) 0 },
    { ins := .vrmax, tag := LBlk.fmt, F := fun b => extremeOf b.fmt true },
    { ins := .vrmin, tag := LBlk.fmt, F := fun b => extremeOf b.fmt false },
    { ins := .vrarg, F := fun b => argOf b.fmt (b.opx == 0) }, { ins := .vrcnt, F := fun _ => List.length } ]

/-- The contribution runs of a sequence under its filter mask: value, count, start (R225). -/
def contributions (a : Runs) (m : Option Runs) : List (Nat × Nat × Nat) :=
  contribRuns (mapRuns (fun (v, on) => (v, on == 1)) (alignRuns a (maskOr a.total m)))

/-! ### Matrix and memory forms -/

/-- An iteration that writes tile-owned state and samples sectors. -/
def wrote (tile : List TileWrite) (hot : Hot) : IterOut := { tile := tile, hot := hot }

/-- The two sources of a step form as rows, as its first iteration reads them (R240). -/
def State.StepRows (s : State) (i : Instr) (b : LBlk) (fb : Nat) (rows cols : List (List Nat)) (h1 h2 : Hot) : Prop :=
  matCheck i b s s.ref = .ok none ∧
  operandRows (s.reading i none) s.ref (s.newEntry i none) b.a b.fmt (b.counters 0) = .ok (rows, h1) ∧
  operandRows (s.reading i none) s.ref (s.newEntry i none) b.b fb (b.counters 0) = .ok (cols, h2)

/-- The writes that add to each D cell, in order, the products of its pairs (R73, R74, R240). -/
def State.cellSums (s : State) (i : Instr) (b : LBlk) (fb : Nat) (pairs : List (List (Nat × Nat))) : List TileWrite :=
  (cellsAt b.d (b.counters 0)).zipWith
    (fun p l => .acc (cellKey p) (macAll b.fmt fb (b.sat == 1) (((s.reading i none).ctx s.ref).cell (cellKey p)) l)) pairs

/-- The accumulator cell of an issuing block's slot as it reads it. -/
def State.cellSeen (s : State) (i : Instr) (p : Int × Int) : Nat := ((s.reading i none).ctx s.ref).cell (cellKey p)

/-- A block's source window as its first iteration reads it. -/
def State.Source (s : State) (i : Instr) (x : Desc) (w : Nat) (ctr : Counters) (l : List Nat) (h : Hot) : Prop :=
  readOperand (s.reading i none) s.ref (s.newEntry i none) x w ctr = .ok (l, h)

/-- A block's destination window takes values in its first iteration as the given writes (R149). -/
def State.Target (s : State) (i : Instr) (hd : Option Handle) (b : LBlk) (vals : List Nat) (w : Writes) : Prop :=
  writeOperand (s.reading i hd) s.ref b.d (memWidth b.fmt) b 0 vals = .ok w

/-- The translated places of a list of bit addresses (none: a null index or an element out of extent). -/
def State.Places (s : State) (i : Instr) (hd : Option Handle) (k : AccessKind) (w : Nat) (l : List (Option Int))
    (pss : List (Option (List Piece))) : Prop := translateTile (s.reading i hd) s.ref k w l = .ok pss

/-- The values at some places; 0 at none. -/
def State.valuesAt (s : State) (i : Instr) (pss : List (Option (List Piece))) : List Nat :=
  pss.map fun p => match p with | some ps => readPieces (s.reading i none) ps | none => 0

/-- Sectors sampled at some places. -/
def placesHot (pss : List (Option (List Piece))) : Hot := hotSectors (pss.flatMap fun p => p.getD [])

/-- An atomic form and its step (R156). -/
structure AtomForm where
  ins : LBlk → Instr
  F   : LBlk → Rmw

def atomForms : List AtomForm :=
  [ { ins := .atadd, F := fun b => .add b.fmt (b.sat == 1) }, { ins := .atsmin, F := fun _ => .smin }, { ins := .atsmax, F := fun _ => .smax },
    { ins := .atumin, F := fun _ => .umin }, { ins := .atumax, F := fun _ => .umax }, { ins := .atand, F := fun _ => .and },
    { ins := .ator, F := fun _ => .or }, { ins := .atxor, F := fun _ => .xor }, { ins := .atxch, F := fun _ => .xch },
    { ins := .atcas, F := fun _ => .cas }, { ins := .atfadd, F := fun b => .fadd b.rm } ]

/-! ### The nest -/

/-- An L-form that runs over its nest, with its own behaviour: what it checks at issue, what its kth iteration does. -/
structure NestForm where
  ins : LBlk → Instr
  beh : LBlk → Behaviour

/-- A VXE form by its body. -/
def NestForm.vec (ins : LBlk → Instr) (body : LBlk → Body) : NestForm := ⟨ins, fun b => vecBehaviour (ins b) b (body b)⟩
/-- An MXE form by its body. -/
def NestForm.mat (ins : LBlk → Instr) (body : LBlk → Body) : NestForm := ⟨ins, fun b => { check := matCheck (ins b) b, body := body b }⟩
/-- A form that checks nothing of its own at issue. -/
def NestForm.plain (ins : LBlk → Instr) (body : LBlk → Body) : NestForm := ⟨ins, fun b => { body := body b }⟩

/-- The load and store forms but those of streams (R131 to R135, R152 to R156). -/
def memoryNests : List NestForm :=
  [ ⟨.ldt, fun b => { check := tileCheck b b.a b.d, body := tileLoadBody b }⟩, .plain .ldg copyBody, .plain .ldgr copyBody,
    ⟨.ldwb, fun b => if b.a.space = spTh then { check := tileCheck b b.a b.d, body := tileLoadBody b } else { body := copyBody b }⟩,
    .plain .ldf fillBody, ⟨.ldx, fun b => { body := ldxBody b, reads := ldxReads b }⟩, .plain .ldxl ldxlBody,
    ⟨.ldw, fun b => { check := walkCheck b, body := ldwBody b }⟩, .plain .ldq ldqBody,
    ⟨.stt, fun b => { check := tileCheck b b.d b.a, body := sttBody b }⟩, .plain .stg stgBody, .plain .stgr storeBody,
    .plain .stx stxBody, .plain .stxl stxlBody, .plain .strd strdBody ] ++
  atomForms.map fun e => .plain e.ins fun b => atomBody b (e.F b)

/-- The elementwise forms and the reductions, by their functions. -/
def vectorNests : List NestForm :=
  ((floatForms ++ intForms ++ maskForms ++ convertForms).map fun e =>
    .vec e.ins fun b => elemBody b b.fmt b.fmt (e.tag b) e.two e.old (e.F b)) ++
  reductionForms.map fun e => .vec e.ins fun b => reduceBody b (e.tag b) (e.F b)

/-- The other VXE forms: construction, pack and unpack, permutation, scaled conversion, complex vectors. -/
def sequenceNests : List NestForm :=
  [ .vec .vbcst bcastBody, .vec .viota iotaBody, .vec .vrun vrunBody, .vec .vlen vlenBody, .vec .vst vstBody, .vec .vldr vldrBody,
    .vec .vstr vstrBody, .vec .vsel vselBody, .vec .vscan scanBody, .vec .vcomp compBody, .vec .vexpd expdBody, .vec .vrco rcoBody,
    .vec .vrcot rcotBody, .vec .vgath gathBody, .vec .vtopk topkBody, .vec .vhist histBody, .vec .vdot dotBody, .vec .pk4 pk4Body,
    .vec .qnt fun b => scaledBody b fun x z => fvalToInt b.dfmt b.rm (FVal.mul ((fmtOf b.fmt).value x) (fp32.value z)),
    .vec .dqnt fun b => scaledBody b fun x z =>
      (fmtOf b.dfmt).fl b.rm (b.sat == 1) (FVal.mul (FVal.ofInt (intVal b.fmt x)) (fp32.value z)),
    .vec .vbfly bflyBody, .vec .vtwd twdBody, .vec .vcmul cmulBody,
    ⟨.wpool, fun b => { vecBehaviour (.wpool b) b (wpoolBody b) with reads := mapReads true (wpoolShape b) b }⟩ ]

/-- The MXE forms (R240 to R250, R255). -/
def matrixNests : List NestForm :=
  [ .mat .mma mmaBody, .mat .mmas mmasBody, .mat .mmd mmdBody, .mat .mmc mmcBody, .mat .acz aczBody, .mat .acr acrBody, .mat .acw acwBody,
    .mat .acmv acmvBody, ⟨.drn, fun b => { check := matCheck (.drn b) b, body := drnBody b, reads := drainReads b }⟩,
    ⟨.winl, fun b => { body := winlBody b, reads := mapReads false (winlShape b) b }⟩ ]

/-- Every L-form but SUB, SUBC, PUB and PUBC, which have no nest. -/
def nestForms : List NestForm := memoryNests ++ (vectorNests ++ (sequenceNests ++ matrixNests))

/-- Iterations of a block done in nest order: before each, a slot of every ring it reads is held, and what it reads has passed its
checks (R29, R114, R119, R172). -/
inductive Nest (beh : Behaviour) (r : EngRef) : Nat → Run → Run → Prop
  | start (x : Run) : Nest beh r 0 x x
  | iter {m : Nat} {x y z : Run} {o : IterOut} (h : Nest beh r m x y) (hf : y.fault = none)
      (ht : rqRings y.f.instr = [] ∨ y.f.taken ≠ []) (hl : y.late r = false)
      (hz : y.read beh r = z) (hr : z.fault = none) (ho : beh.body (z.seen r) r z.f z.f.ctr = .ok o) : Nest beh r (m + 1) x (z.after r o)

/-- What n iterations from a run on end in, the block standing at index k of its chain: all done; a wait for a ring slot, a
point at which other agents act after some, or a wait for a cycle in which the next may give its slots back; or a fault. -/
def NestEnds (beh : Behaviour) (r : EngRef) (k n : Nat) (x : Run) (t : State) : Prop :=
  ∃ m y, Nest beh r m x y ∧ m ≤ n ∧ y.f.ctr = x.f.ctr + m ∧
    ((m = n ∧ y.fault = none ∧ t = y.s.endRun r k { y.f with phase := .done } y.fork none) ∨
     (m < n ∧ y.fault = none ∧ rqRings y.f.instr ≠ [] ∧ y.f.taken = [] ∧ t = y.s.endRun r k { y.f with phase := .ring } y.fork none) ∨
     ((0 < m ∨ y.late r = true) ∧ m < n ∧ y.fault = none ∧ t = y.s.endRun r k { y.f with phase := .run } y.fork none) ∨
     (∃ e, y.fault = some e ∧ t = y.s.endRun r k y.f y.fork (some e)) ∨
     (∃ e z, m < n ∧ y.fault = none ∧ y.read beh r = z ∧
        ((z.fault = some e ∧ t = z.s.endRun r k z.f z.fork (some e)) ∨
         (z.fault = none ∧ beh.body (z.seen r) r z.f z.f.ctr = .error e ∧
          t = z.s.endRun r k z.f z.fork (some { e with ctr := ctrOf z.f.instr z.f.ctr })))))

/-! ### What a step leaves alone -/

/-- Every byte of device memory, host memory, the pools and the supervisors' memory reads as before. -/
def State.KeepsMemory (s t : State) : Prop :=
  (∀ (m : Tier) a, (t.tierMem m).byte a = (s.tierMem m).byte a) ∧ (∀ a, t.clusterPool.byte a = s.clusterPool.byte a) ∧
  (∀ a, t.diePool.byte a = s.diePool.byte a) ∧ (∀ a, t.supmem.byte a = s.supmem.byte a)

/-- Every other slot is as before. -/
def State.KeepsOtherSlots (s t : State) (r : EngRef) : Prop :=
  ∀ tile slot, slotKey tile slot ≠ slotKey r.tile r.slot → t.slotAt tile slot = s.slotAt tile slot

/-- What no issuing block touches: time, supervisors, tasks, launches, rendezvous points, faults, page tables' registers, host
queues, models and the management complex. -/
def State.KeepsSystem (s t : State) : Prop :=
  t.cycle = s.cycle ∧ t.harts = s.harts ∧ t.tasks = s.tasks ∧ t.nextTask = s.nextTask ∧ t.launches = s.launches ∧
  t.points = s.points ∧ t.dies = s.dies ∧ t.faultQueues = s.faultQueues ∧ t.faultIrqs = s.faultIrqs ∧ t.pasids = s.pasids ∧
  t.granules = s.granules ∧ t.granuleFrom = s.granuleFrom ∧ t.granulesOut = s.granulesOut ∧ t.poison = s.poison ∧ t.queues = s.queues ∧ t.runLists = s.runLists ∧
  t.walkers = s.walkers ∧ t.models = s.models ∧ t.mgmt = s.mgmt ∧ t.clusterTlb = s.clusterTlb ∧ t.carafeTlb = s.carafeTlb

/-! ### Ranges of pages -/

/-- A class 9 block works on page j of its range of n pages from VA a, in the state t, at index k of its chain's issued blocks:
it issues, or runs on (R281, R283). -/
def State.OnPage (s : State) (i : Instr) (rb roff n : Nat) (t : State) (k a j : Nat) : Prop :=
  rbAddr t s.ref rb roff = (a : Int) ∧
  ((s.Issues i ∧ t = s.issued i ∧ k = s.nextIndex s.ref ∧ j = 0 ∧ a % pageBytes = 0 ∧ a + n * pageBytes ≤ vaLimit) ∨
   (t = s ∧ s.runnable s.ref = true ∧ findRun i (s.chain s.ref).inflight 0 = some k ∧
    ∃ f, (s.chain s.ref).inflight[k]? = some f ∧ f.ctr = j))

/-- The block at index k has done a page; after n pages it only awaits completion. -/
def State.pageDone (t : State) (r : EngRef) (k n : Nat) : State :=
  t.updEntry r k fun f => { f with ctr := f.ctr + 1, phase := if n ≤ f.ctr + 1 then .done else .run }

/-- The block waits at its page. -/
def State.pageWaits (t : State) (r : EngRef) (k : Nat) : State := t.updEntry r k fun f => { f with phase := .waiting }

/-- A page's result goes to the tile pool as the block completes; the block keeps the HOT of the page. -/
def State.pageWrites (t : State) (r : EngRef) (k bit w v hot : Nat) : State :=
  t.updEntry r k fun f => { f with writes := f.writes ++ [.tp bit w v], hot := hot }

/-- The block stops at a page with a fault; what the pages before it have written is visible (R283). -/
def State.pageStops (t : State) (r : EngRef) (k : Nat) (e : BlockFault) : State :=
  let f := ((t.chain r).inflight[k]?).getD default
  ((t.updCtx r fun c => c.applyAll f.writes).updEntry r k fun f => { f with writes := [], phase := .parked, parked := e.cause.disp == .park }).takeFault r f.addr e
    e.cause.disp

/-! ### Supervisors and the front end -/

/-- The executing supervisor is in supervisor or machine mode (R291). -/
def State.Priv (s : State) : Prop := (s.hartAt s.hart).mode ≠ 0

/-- The next packet that the front end starts is packet HEAD of queue q, and keeps R349 (R344). -/
def State.Starts (s : State) (q : Nat) (dws : List Nat) : Prop :=
  q < 4096 ∧ s.nextQueue = some q ∧ s.startable q = some dws ∧ packetOk q dws = true

/-- The state in which that packet has started: the walker has visited its queue, HEAD has moved on (R343, R344). -/
def State.started (s : State) (q : Nat) (dws : List Nat) : State :=
  ({ s with walkers := Map.set 0 s.walkers (s.queue q).prio (q + 1) } : State).startPacket q dws (packetType dws == 5)

/-- The next packet of queue 0 is a command, and no command of its kind is under way. -/
def State.Commands (s : State) (cmd : Nat) (dws : List Nat) : Prop :=
  s.Starts 0 dws ∧ isCommand cmd dws = true ∧ (s.queue 0).started.all (fun p => !isCommand cmd p.dws) = true

/-! ### Accesses to memory -/

/-- An element of an access to a tier touches a byte of memory: where the access is ordered, or at the second copy of a page in
motion (R149, R273). -/
def State.Touches (s : State) (t : Tier) (o : HomeOp) (t' : Tier) (x : Nat) : Prop :=
  (∃ a, s.serveAt t (o.bit / 8) = (t', a) ∧ a ≤ x ∧ x < a + (o.bit % 8 + o.w + 7) / 8) ∨
  (∃ a, s.forwardTo t (o.bit / 8) = some (t', a) ∧ a ≤ x ∧ x < a + (o.bit % 8 + o.w + 7) / 8)

/-- The bytes of a pool that an element touches. -/
def HomeOp.covers (o : HomeOp) (x : Nat) : Prop := o.bit / 8 ≤ x ∧ x < (o.bit + o.w + 7) / 8

/-- The access by which a patch writes n bytes of the value v into the block at T, translated to p (R102). -/
def patchWrite (p : Phys) (T n v : Nat) : Access :=
  { place := p.place, unit := p.addr / 32, va := T, hot := if p.hs then some p.size else none,
    ops := [{ bit := p.addr * 8, w := 8 * n, kind := .write (v % 2 ^ (8 * n)) }] }

/-! ### X-forms -/

/-- The X-forms by funct3 and funct7 (R50), with the registers each uses: rs1, rs2. -/
def xTable : List (Nat × Nat × (Nat → Nat → Nat → Instr) × Bool × Bool) :=
  [ (0, 0, .tkpost, true, true), (0, 1, .tkcncl, true, true), (0, 2, .tkstat, true, true), (0, 3, .tkrsm, true, true), (0, 4, .tkpark, true, true),
    (1, 0, fun d a _ => .lnnew d a, true, false), (1, 1, fun d a _ => .lncnt d a, true, false), (1, 2, fun d a _ => .lncncl d a, true, false),
    (1, 3, fun d a _ => .grcnt d a, true, false), (1, 4, fun d a _ => .grcncl d a, true, false), (1, 5, fun d a _ => .jbcnt d a, true, false),
    (1, 6, fun d a _ => .jbcncl d a, true, false), (2, 0, fun d a _ => .semrd d a, true, false), (2, 1, .semwr, true, true),
    (2, 2, .semsig, true, true), (2, 3, .barini, true, true), (2, 4, fun d a _ => .bararv d a, true, false), (2, 5, .barwt, true, true) ] ++
  [ (3, 0, fun d a _ => .fqpop d a, true, false), (3, 1, fun d a _ => .fbrd d a, true, false), (3, 2, .stoprd, true, true),
    (4, 0, .ctxsv, true, true), (4, 1, .ctxrs, true, true), (4, 2, .tlbinv, true, true), (4, 3, .hinv, true, true),
    (5, 0, .stepctl, true, true), (5, 1, .wdset, true, true), (5, 2, .budset, true, true), (6, 0, fun d a _ => .caprd d a, true, false),
    (6, 1, fun d _ _ => .cycrd d, false, false), (6, 2, .thyrd, true, true), (6, 3, .pclcfg, true, true) ]

/-! ### The invariant -/

/-- A hart as RV64 allows it: a legal mode, 64-bit registers, x0 not among those it stores. -/
def Hart.Legal (h : Hart) : Prop :=
  (h.mode = 0 ∨ h.mode = 1 ∨ h.mode = 3) ∧ h.pc < 2 ^ 64 ∧ h.mtvec < 2 ^ 64 ∧ h.stvec < 2 ^ 64 ∧ h.regs.rising ∧
  ∀ n, Map.get 0 h.regs n < 2 ^ 64 ∧ (n = 0 → Map.get 0 h.regs n = 0)

/-- What every step keeps: the seven memories in canonical form, every table with one place for each key, harts legal, the cycle
stamp of 64 bits, the Thyme buffer within its 4,096 events. -/
structure State.Inv (s : State) : Prop where
  hbm : s.hbm.wf = true
  lpddr : s.lpddr.wf = true
  cxl : s.cxl.wf = true
  host : s.host.wf = true
  clusterPool : s.clusterPool.wf = true
  diePool : s.diePool.wf = true
  supmem : s.supmem.wf = true
  slots : s.slots.rising
  tasks : s.tasks.rising
  pasids : s.pasids.rising
  tiles : s.tiles.rising
  launches : s.launches.rising
  points : s.points.rising
  dies : s.dies.rising
  queues : s.queues.rising
  models : s.models.rising
  harts : s.harts.rising
  legal : ∀ c, (s.hartAt c).Legal
  cycle : s.cycle < 2 ^ 64
  thyme : s.thyme.length ≤ 4096

end Sys2Proof.Machine
end

