-- ==== Sys2Proof/Certificates/Slice0/Obligations.lean ====
section
/-! DEFINITION. The statements for the provers. -/

open Sys2Proof Sys2Proof.Machine

/-! ### L-form blocks -/

/-- R197, R198, R204 to R210, R212, R213, R215, R222, R224, R78 to R85: every elementwise form, on operands of agreeing
lengths, issues and runs with a result that holds at each position the form's function of what the operands hold there. -/
def Obligations.ElementwiseForms : Prop :=
  ∀ e ∈ floatForms ++ intForms ++ maskForms ++ convertForms, ∀ (b : LBlk) (s : State) (a z d : Runs) (h1 h2 : Hot) (n : Nat),
    s.Issues (e.ins b) → b.iterations = 1 →
    s.Reads (e.ins b) b.a b.fmt (b.counters 0) a h1 →
    (if e.two then s.Reads (e.ins b) b.b b.fmt (b.counters 0) z h2 else z = a ∧ h2 = []) →
    (if e.old then s.ReadsOld (e.ins b) b (e.tag b) d else d = z) →
    resultLen ([a.total] ++ (if e.two then [z.total] else []) ++ (if e.old then [d.total] else [])) = some n →
    ∃ y, e.Computes b n a z d y ∧
      ∀ o, s.Delivers (e.ins b) b (e.tag b) n y (h1 ++ h2) o → exec (e.ins b) s = .next (s.ran (e.ins b) none o)

/-- R199: a merge mask takes the result where it holds 1 and old D elsewhere, a zeroing mask 0 elsewhere; a block without
a mask takes the result everywhere. A mask has the result's length. -/
def Obligations.MaskedResult : Prop :=
  ∀ (s : State) (r : EngRef) (b : LBlk) (tag n : Nat) (ctr : Counters) (y out : Runs),
    y.total = n → applyMask s r b tag n ctr y = .ok out →
    out.total = n ∧
    (b.msk = 0 → ∀ p < n, out.at_ p = y.at_ p) ∧
    (b.msk ≠ 0 → ((s.ctx r).vreg b.mreg).len = n ∧
      ∀ p < n, (Runs.at_ ((s.ctx r).vreg b.mreg).runs p % 2 = 1 → out.at_ p = y.at_ p) ∧
        (Runs.at_ ((s.ctx r).vreg b.mreg).runs p % 2 = 0 → b.zm = 1 → out.at_ p = 0) ∧
        (Runs.at_ ((s.ctx r).vreg b.mreg).runs p % 2 = 0 → b.zm ≠ 1 →
          ∃ d, (s.ctx r).regSeq b.d tag ctr = .ok d ∧ d.total = n ∧ out.at_ p = d.at_ p))

/-- R201, R76, R197: an elementwise form whose result has more than 512 runs stops in flight with RUN OVERFLOW; one of whose
registers has a wrong tag, its mask and the D that it reads among them, or whose whole operands have lengths that do not agree,
faults at issue, whatever its D. -/
def Obligations.ElementwiseTraps : Prop :=
  ∀ e ∈ floatForms ++ intForms ++ maskForms ++ convertForms, ∀ (b : LBlk) (s : State) (a z d : Runs) (h1 h2 : Hot),
    s.Issues (e.ins b) → b.iterations = 1 →
    (¬ s.TagsOk (e.ins b) b → exec (e.ins b) s = .next (s.issueStop s.ref { cause := .formatTag })) ∧
    (s.Reads (e.ins b) b.a b.fmt (b.counters 0) a h1 →
     (if e.two then s.Reads (e.ins b) b.b b.fmt (b.counters 0) z h2 else z = a ∧ h2 = []) →
     (if e.old then s.ReadsOld (e.ins b) b (e.tag b) d else d = z) →
      (resultLen ([a.total] ++ (if e.two then [z.total] else []) ++ (if e.old then [d.total] else [])) = none →
        b.a.pad = 0 → b.b.pad = 0 → (e.old = true → b.d.pad = 0) → s.TagsOk (e.ins b) b →
        exec (e.ins b) s = .next (s.issueStop s.ref { cause := .lengthMismatch })) ∧
      ∀ n, resultLen ([a.total] ++ (if e.two then [z.total] else []) ++ (if e.old then [d.total] else [])) = some n →
        b.msk = 0 → b.d.pad = 0 → (e.two = false → b.b.space = spNone) → s.TagsOk (e.ins b) b →
        ∃ y, e.Computes b n a z d y ∧ (512 < (mergeRuns y).length →
          exec (e.ins b) s = .next (s.faulted (e.ins b) none (overflowFault (mergeRuns y)))))

/-- R214 to R216, R85: construction, pack and unpack of sequences. VBCST repeats one element; VIOTA steps up by one after
every S elements; VRUN repeats each element of A by its count in B; VLEN cuts or extends to a length; VST and PK4 write a pool
window; VLDR and VSTR move raw run images. -/
def Obligations.ConstructionForms : Prop :=
  ∀ (b : LBlk) (s : State) (a v : Runs) (x : Nat) (l : List Nat) (g : VReg) (h1 h2 : Hot) (o : IterOut),
    (s.IssuesOnce (.vbcst b) → s.Reads (.vbcst b) b.a b.fmt (b.counters 0) [(x, 1)] h1 → 1 ≤ b.b.base → b.b.base ≤ 65536 →
      s.Delivers (.vbcst b) b b.fmt b.b.base [(x, b.b.base)] h1 o → exec (.vbcst b) s = .next (s.ran (.vbcst b) none o)) ∧
    (∃ y : Runs, y.total = bits b.b.base 0 16 + 1 ∧
      (∀ p < bits b.b.base 0 16 + 1, y.at_ p = wrapTo (fmtWidth b.fmt) (intVal b.fmt x + (p / (bits b.b.base 16 16 + 1) : Nat))) ∧
      (s.IssuesOnce (.viota b) → s.Reads (.viota b) b.a b.fmt (b.counters 0) [(x, 1)] h1 →
        s.Delivers (.viota b) b b.fmt (bits b.b.base 0 16 + 1) y h1 o → exec (.viota b) s = .next (s.ran (.viota b) none o))) ∧
    (s.IssuesOnce (.vrun b) → s.Reads (.vrun b) b.a b.fmt (b.counters 0) a h1 → s.Reads (.vrun b) b.b 8 (b.counters 0) v h2 b.fmt →
      a.total = v.total → 1 ≤ Runs.total ((alignRuns a v).map fun ((x, n), m) => (x, n * m)) →
      Runs.total ((alignRuns a v).map fun ((x, n), m) => (x, n * m)) ≤ 65536 →
      s.DeliversPlain (.vrun b) b b.fmt ((alignRuns a v).map fun ((x, n), m) => (x, n * m)) (h1 ++ h2) o →
      exec (.vrun b) s = .next (s.ran (.vrun b) none o)) ∧
    (s.IssuesOnce (.vlen b) → s.Reads (.vlen b) b.a b.fmt (b.counters 0) a h1 → 1 ≤ b.b.base → b.b.base ≤ 65536 →
      s.DeliversPlain (.vlen b) b b.fmt (takeRuns a b.b.base ++ [(0, b.b.base - a.total)]) h1 o →
      exec (.vlen b) s = .next (s.ran (.vlen b) none o)) ∧
    (s.IssuesOnce (.vst b) → s.Reads (.vst b) b.a b.fmt (b.counters 0) a h1 → a.total = b.d.count →
      s.DeliversWindow (.vst b) b b.fmt a h1 o → exec (.vst b) s = .next (s.ran (.vst b) none o)) ∧
    (s.IssuesOnce (.pk4 b) → s.Reads (.pk4 b) b.a b.fmt (b.counters 0) a h1 → a.total = b.d.count ∨ a.total = 1 →
      s.DeliversWindow (.pk4 b) b 7 (mapRuns (icvt b.fmt 7 (b.sat == 1)) (broadcast b.d.count a)) h1 o →
      exec (.pk4 b) s = .next (s.ran (.pk4 b) none o)) ∧
    (s.IssuesOnce (.vldr b) → s.TagsOk (.vldr b) b → s.ReadsBits (.vldr b) b.a 64 (b.counters 0) l h1 → Runs.total (l.map recordRun) ≤ 65536 →
      exec (.vldr b) s = .next (s.ran (.vldr b) none
        { tile := [.vreg b.d.base { runs := l.map recordRun, tag := b.fmt, valid := true }], hot := h1 })) ∧
    (s.IssuesOnce (.vstr b) → s.TagsOk (.vstr b) b → (∀ p ∈ s.views (.vstr b), (p.1.ctx s.ref).vreg b.a.base = g) →
      b.d.space = spTp → (b.b.space = spNone ∨ b.b.space = spTp) → g.rc ≤ b.d.seg + 1 →
      exec (.vstr b) s = .next (s.ran (.vstr b) none
        { tile := (elemBits b.d (originAt s s.ref b.d (b.counters 0)) 64).zipWith (fun a (v, n) => .tp a.toNat 64 (runRecord v n)) g.runs ++
            if b.b.space = spNone then [] else [.tp (8 * (originAt s s.ref b.b (b.counters 0)).toNat) 64 (statusWord g)] }))

/-- R224 to R227: a reduction writes one element, its function of the contribution runs of A under the filter mask. -/
def Obligations.ReductionForms : Prop :=
  ∀ e ∈ reductionForms, ∀ (b : LBlk) (s : State) (a : Runs) (m : Option Runs) (h : Hot) (o : IterOut),
    s.IssuesOnce (e.ins b) → s.Reads (e.ins b) b.a b.fmt (b.counters 0) a h → s.Masks (e.ins b) b a.total m →
    s.DeliversPlain (e.ins b) b (e.tag b) [(e.F b (contributions a m), 1)] h o →
    exec (e.ins b) s = .next (s.ran (e.ins b) none o)

/-- R225: the contribution runs of a sequence are its maximal ranges of equal elements that the mask selects, in order. -/
def Obligations.ContributionRuns : Prop :=
  ∀ (a : Runs) (m : Option Runs), (∀ r, m = some r → r.total = a.total) →
    (∀ v c q, (v, c, q) ∈ contributions a m → 0 < c ∧ q + c ≤ a.total ∧
      (∀ p, q ≤ p → p < q + c → a.at_ p = v ∧ (maskOr a.total m).at_ p = 1) ∧
      (0 < q → a.at_ (q - 1) ≠ v ∨ (maskOr a.total m).at_ (q - 1) ≠ 1) ∧
      (q + c < a.total → a.at_ (q + c) ≠ v ∨ (maskOr a.total m).at_ (q + c) ≠ 1)) ∧
    (∀ p < a.total, (maskOr a.total m).at_ p = 1 → ∃ v c q, (v, c, q) ∈ contributions a m ∧ q ≤ p ∧ p < q + c) ∧
    (contributions a m).Pairwise (fun x y => x.2.2 + x.2.1 ≤ y.2.2)

/-- R223, R228 to R234, R83: selection, scans, compress and expand, gathers, coalescing, top-k, histograms and dot products; QNT and DQNT
multiply by a scale that is a positive normal FP32 value, with one rounding. -/
def Obligations.PermutationForms : Prop :=
  (∀ (b : LBlk) (s : State) (a v m : Runs) (fm : Option Runs) (n : Nat) (h1 h2 : Hot) (o : IterOut),
    (s.IssuesOnce (.vsel b) → s.Selects (.vsel b) b m → s.Reads (.vsel b) b.a b.fmt (b.counters 0) a h1 →
      s.Reads (.vsel b) b.b b.fmt (b.counters 0) v h2 → a.total = m.total ∨ a.total = 1 → v.total = m.total ∨ v.total = 1 →
      ∃ y : Runs, (y.total = m.total ∧ ∀ p < m.total, y.at_ p =
          if m.at_ p = 1 then (broadcast m.total a).at_ p else (broadcast m.total v).at_ p) ∧
        (s.DeliversPlain (.vsel b) b b.fmt y (h1 ++ h2) o → exec (.vsel b) s = .next (s.ran (.vsel b) none o))) ∧
    (s.IssuesOnce (.vscan b) → s.Reads (.vscan b) b.a b.fmt (b.counters 0) a h1 → s.Masks (.vscan b) b a.total fm →
      s.Delivers (.vscan b) b b.fmt a.total (scanFrom b a.total 0 none (contributions a fm)) h1 o →
      (∀ r, fm = some r → r.total = a.total) → exec (.vscan b) s = .next (s.ran (.vscan b) none o)) ∧
    (s.IssuesOnce (.vcomp b) → s.Reads (.vcomp b) b.a b.fmt (b.counters 0) a h1 → s.Selects (.vcomp b) b m → m.total = a.total →
      s.DeliversPlain (.vcomp b) b b.fmt ((alignRuns a m).filterMap fun ((v, on), n) => if on = 1 then some (v, n) else none) h1 o →
      exec (.vcomp b) s = .next (s.ran (.vcomp b) none o)) ∧
    (s.IssuesOnce (.vexpd b) → s.Reads (.vexpd b) b.a b.fmt (b.counters 0) a h1 → s.Selects (.vexpd b) b m →
      onesOf m = 0 ∨ a.total = onesOf m ∨ a.total = 1 →
      s.Delivers (.vexpd b) b b.fmt m.total (dealRuns (broadcast (onesOf m) a) m) h1 o →
      exec (.vexpd b) s = .next (s.ran (.vexpd b) none o)) ∧
    (s.IssuesOnce (.vgath b) → s.Reads (.vgath b) b.a b.fmt (b.counters 0) a h1 → s.Reads (.vgath b) b.b 8 (b.counters 0) v h2 →
      (∀ p ∈ v, p.1 < a.total ∨ p.1 = 0xFFFFFFFF) →
      ∃ y : Runs, (y.total = v.total ∧ ∀ p < v.total, y.at_ p = if v.at_ p = 0xFFFFFFFF then 0 else a.at_ (v.at_ p)) ∧
        (s.Delivers (.vgath b) b b.fmt v.total y (h1 ++ h2) o → exec (.vgath b) s = .next (s.ran (.vgath b) none o))) ∧
    (s.IssuesOnce (.vrco b) → s.Reads (.vrco b) b.a b.fmt (b.counters 0) a h1 → s.DeliversPlain (.vrco b) b b.fmt a h1 o →
      exec (.vrco b) s = .next (s.ran (.vrco b) none o)) ∧
    (s.IssuesOnce (.vrcot b) → s.Reads (.vrcot b) b.a b.fmt (b.counters 0) a h1 →
      s.Reads (.vrcot b) b.b b.fmt (b.counters 0) [(n, 1)] h2 → badTol b.fmt n = false →
      s.DeliversPlain (.vrcot b) b b.fmt (coalesce b.fmt n (a.headD (0, 1)).1 a) (h1 ++ h2) o →
      exec (.vrcot b) s = .next (s.ran (.vrcot b) none o)) ∧
    (s.IssuesOnce (.vtopk b) → s.Reads (.vtopk b) b.a b.fmt (b.counters 0) a h1 → s.Masks (.vtopk b) b a.total fm →
      s.Reads (.vtopk b) b.b 8 (b.counters 0) [(n, 1)] h2 b.fmt → 1 ≤ n → n ≤ 65536 →
      s.DeliversPlain (.vtopk b) b 8 (((topPositions b.fmt (contributions a fm)).take n).map fun p => (p, 1)) h1 o →
      exec (.vtopk b) s = .next (s.ran (.vtopk b) none o)) ∧
    (s.IssuesOnce (.vhist b) → s.Reads (.vhist b) b.a b.fmt (b.counters 0) a h1 → s.Masks (.vhist b) b a.total fm →
      s.Reads (.vhist b) b.b 8 (b.counters 0) [(n, 1)] h2 b.fmt → 1 ≤ n → n ≤ 65536 →
      s.DeliversPlain (.vhist b) b b.fmt
        ((upto n).map fun j => ((((contributions a fm).filter (·.1 == j)).map (·.2.1)).sum, 1)) h1 o →
      exec (.vhist b) s = .next (s.ran (.vhist b) none o)) ∧
    (s.IssuesOnce (.vdot b) → s.Reads (.vdot b) b.a b.fmt (b.counters 0) a h1 → s.Reads (.vdot b) b.b b.fmt (b.counters 0) v h2 →
      resultLen [a.total, v.total] = some n → s.Masks (.vdot b) b n fm →
      s.DeliversPlain (.vdot b) b b.dfmt [((alignRuns (alignRuns (broadcast n a) (broadcast n v)) (maskOr n fm)).foldl
        (fun acc (((x, z), on), c) => if on = 1 then repeatTerm b.fmt (b.sat == 1) x z c acc else acc) 0, 1)] (h1 ++ h2) o →
      exec (.vdot b) s = .next (s.ran (.vdot b) none o))) ∧
  (∀ (b : LBlk) (s : State) (a v : Runs) (h1 h2 : Hot) (o : IterOut), v.total = a.total ∨ v.total = 1 →
    (∀ p ∈ v, 0x00800000 ≤ p.1 ∧ p.1 < 0x7F800000) →
    (s.IssuesOnce (.qnt b) → s.Reads (.qnt b) b.a b.fmt (b.counters 0) a h1 → s.Reads (.qnt b) b.b 1 (b.counters 0) v h2 b.fmt →
      ∃ y : Runs, (y.total = a.total ∧ ∀ p < a.total, y.at_ p =
          fvalToInt b.dfmt b.rm (FVal.mul ((fmtOf b.fmt).value (a.at_ p)) (fp32.value ((broadcast a.total v).at_ p)))) ∧
        (s.Delivers (.qnt b) b b.dfmt a.total y (h1 ++ h2) o → exec (.qnt b) s = .next (s.ran (.qnt b) none o))) ∧
    (s.IssuesOnce (.dqnt b) → s.Reads (.dqnt b) b.a b.fmt (b.counters 0) a h1 → s.Reads (.dqnt b) b.b 1 (b.counters 0) v h2 b.fmt →
      ∃ y : Runs, (y.total = a.total ∧ ∀ p < a.total, y.at_ p = (fmtOf b.dfmt).fl b.rm (b.sat == 1)
          (FVal.mul (FVal.ofInt (intVal b.fmt (a.at_ p))) (fp32.value ((broadcast a.total v).at_ p)))) ∧
        (s.Delivers (.dqnt b) b b.dfmt a.total y (h1 ++ h2) o → exec (.dqnt b) s = .next (s.ran (.dqnt b) none o))))

/-- R240 to R246: the step forms add to each D cell, in order, the products of a row of A with a column of B: all pairs of
K, or the first KLEN; MMAS those that its metadata keeps, or dense INT4; MMD each channel with its taps; MMC complex terms. -/
def Obligations.StepForms : Prop :=
  ∀ (b : LBlk) (s : State) (rows cols : List (List Nat)) (h1 h2 : Hot),
    (s.IssuesOnce (.mma b) → s.StepRows (.mma b) b b.fmt rows cols h1 h2 →
      exec (.mma b) s = .next (s.ran (.mma b) none (wrote (s.cellSums (.mma b) b b.fmt
        (rows.flatMap fun x => cols.map fun y => (x.zip y).take (keff b (stepRows b.a).1))) (h1 ++ h2)))) ∧
    (s.IssuesOnce (.mmas b) → s.StepRows (.mmas b) b (fmtB 7 1 b) rows cols h1 h2 →
      (∀ ms, ms = lineMeta (s.reading (.mmas b) none) s.ref b (b.counters 0) → cform b = 0 → ms.all (metadataOk (b.b.seg + 1)) = true →
        exec (.mmas b) s = .next (s.ran (.mmas b) none (wrote (s.cellSums (.mmas b) b (fmtB 7 1 b)
          (rows.flatMap fun x => (cols.zip ms).map fun (y, m) =>
            (((keptPositions (b.b.seg + 1) m).map fun p => x.getD p 0).zip y).take (keff b (b.b.seg + 1)))) (h1 ++ h2)))) ∧
      (cform b ≠ 0 → exec (.mmas b) s = .next (s.ran (.mmas b) none (wrote (s.cellSums (.mmas b) b (fmtB 7 1 b)
          (rows.flatMap fun x => cols.map fun y => (x.zip y).take (keff b (b.b.seg + 1)))) (h1 ++ h2))))) ∧
    (s.IssuesOnce (.mmd b) → s.StepRows (.mmd b) b b.fmt rows cols h1 h2 →
      exec (.mmd b) s = .next (s.ran (.mmd b) none (wrote (s.cellSums (.mmd b) b b.fmt
        ((upto (b.d.ext2 + 1)).flatMap fun p => (upto (b.a.seg + 1)).map fun c => (upto (keff b (b.b.seg + 1))).map fun t =>
          ((rows.getD (p * (bits b.cx 8 2 + 1) + t * (bits b.cx 10 3 + 1)) []).getD c 0, (cols.getD c []).getD t 0))) (h1 ++ h2)))) ∧
    (s.IssuesOnce (.mmc b) → s.StepRows (.mmc b) b b.fmt rows cols h1 h2 →
      exec (.mmc b) s = .next (s.ran (.mmc b) none (wrote
        (((pairUp ((cellsAt b.d (b.counters 0)).map cellKey)).zipWith (fun (p, q) l =>
          let z := l.foldl (fun acc (x, y) => macComplex (fmtOf b.fmt) (bits b.cx 8 1 == 1) acc x y)
            (((s.reading (.mmc b) none).ctx s.ref).cell p, ((s.reading (.mmc b) none).ctx s.ref).cell q)
          [TileWrite.acc p z.1, TileWrite.acc q z.2])
          (rows.flatMap fun x => cols.map fun y => ((pairUp x).zip (pairUp y)).take (keff b (b.b.seg + 1) / 2))).flatMap id) (h1 ++ h2))))

/-- R247 to R250: ACZ zeroes cells, ACR and ACW move them to and from a window, ACMV copies them, DRN drains them through
the epilogue of its record. -/
def Obligations.CellForms : Prop :=
  ∀ (b : LBlk) (s : State) (l : List Nat) (h : Hot),
    (s.IssuesOnce (.acz b) → matCheck (.acz b) b s s.ref = .ok none →
      exec (.acz b) s = .next (s.ran (.acz b) none (wrote ((cellsAt b.d (b.counters 0)).map fun p => .acc (cellKey p) 0) []))) ∧
    (s.IssuesOnce (.acr b) → matCheck (.acr b) b s s.ref = .ok none → b.d.space = spTp →
      exec (.acr b) s = .next (s.ran (.acr b) none (wrote ((elemBits b.d (originAt s s.ref b.d (b.counters 0)) 32).zipWith
        (fun a v => .tp a.toNat 32 v) ((cellsAt b.a (b.counters 0)).map (s.cellSeen (.acr b)))) []))) ∧
    (s.IssuesOnce (.acw b) → matCheck (.acw b) b s s.ref = .ok none → s.Source (.acw b) b.a 32 (b.counters 0) l h →
      exec (.acw b) s = .next (s.ran (.acw b) none (wrote ((cellsAt b.d (b.counters 0)).zipWith (fun p v => .acc (cellKey p) v)
        (if b.a.space = spIm then (cellsAt b.d (b.counters 0)).map fun _ => l.headD 0 else l)) h))) ∧
    (s.IssuesOnce (.acmv b) → matCheck (.acmv b) b s s.ref = .ok none →
      exec (.acmv b) s = .next (s.ran (.acmv b) none (wrote ((cellsAt b.d (b.counters 0)).zipWith (fun p v => .acc (cellKey p) v)
        ((cellsAt b.a (b.counters 0)).map (s.cellSeen (.acmv b)))) []))) ∧
    (∀ x o w, x = s.reading (.drn b) none → o = originAt x s.ref b.b (b.counters 0) →
      w = (x.ctx s.ref).mediumBits spTp (8 * o).toNat 512 → s.IssuesOnce (.drn b) → matCheck (.drn b) b s s.ref = .ok none →
      lateTouch x s.ref (s.newEntry (.drn b) none) { space := spTp, lo := o, hi := o + 64, write := false } = .ok () →
      drainFault b w = none → (drainWindows b (drainOf w)).forM (lateTouch x s.ref (s.newEntry (.drn b) none)) = .ok () →
      exec (.drn b) s = .next (s.ran (.drn b) none (wrote
        ((elemBits b.d (originAt x s.ref b.d (b.counters 0)) (memWidth b.dfmt)).zipWith (fun a v => .tp a.toNat (memWidth b.dfmt) v)
          (((linePos b.a).zip ((cellsAt b.a (b.counters 0)).map (s.cellSeen (.drn b)))).map fun ((l, e), c) => drainElem x s.ref b (drainOf w) l e c) ++
        (if drnZAC b then (cellsAt b.a (b.counters 0)).map fun p => .acc (cellKey p) 0 else [])) [])))

/-- R255 to R263: WINL lays the windows of a map out, WPOOL pools them, VBFLY, VTWD and VCMUL compute on complex elements. -/
def Obligations.WindowForms : Prop :=
  ∀ (b : LBlk) (s : State) (q : WinRec) (y : Runs) (l m : List (Nat × Nat)) (h1 h2 : Hot) (o : IterOut),
    (s.IssuesOnce (.winl b) → readWindow (s.reading (.winl b) none) s.ref (s.newEntry (.winl b) none) b false 0 = .ok q →
      (if q.mode = 0 then b.d.seg + 1 = q.kh * q.kw * (b.a.seg + 1) ∧ b.d.ext2 + 1 = q.np
       else b.d.seg + 1 = b.a.seg + 1 ∧ b.d.ext2 + 1 = q.np * (q.kh * q.kw)) →
      exec (.winl b) s = .next (s.ran (.winl b) none (wrote
        ((winlElems (s.reading (.winl b) none) s.ref b q 0).map fun (l, e, v) =>
          .tp (elemBit b.d (originAt (s.reading (.winl b) none) s.ref b.d (b.counters 0)) (memWidth b.fmt) l e).toNat (memWidth b.fmt) v) []))) ∧
    (s.IssuesOnce (.wpool b) → s.ReadsWindow (.wpool b) b true q → (b.d.space = spTp → b.d.count = q.np * (b.a.seg + 1)) →
      (∀ p ∈ s.views (.wpool b), wpoolElems p.1 s.ref b q 0 = y) → s.DeliversAny (.wpool b) b (q.np * (b.a.seg + 1)) y [] o →
      exec (.wpool b) s = .next (s.ran (.wpool b) none o)) ∧
    (s.IssuesOnce (.vbfly b) → s.ReadsComplex (.vbfly b) b.a (b.counters 0) l h1 → l.length % (2 * 2 ^ bits b.cx 0 4) = 0 →
      y = runsOf (((chunks (2 * 2 ^ bits b.cx 0 4) (l.length / (2 * 2 ^ bits b.cx 0 4)) l).flatMap
        (butterfly b (2 ^ bits b.cx 0 4))).flatMap fun (x, z) => [x, z]) → (b.d.space = spTp → b.d.count = 2 * l.length) →
      s.DeliversAny (.vbfly b) b (2 * l.length) y h1 o → exec (.vbfly b) s = .next (s.ran (.vbfly b) none o)) ∧
    (s.IssuesOnce (.vtwd b) → s.ReadsComplex (.vtwd b) b.a (b.counters 0) l h1 →
      y = runsOf (((l.zip (upto l.length)).map fun (x, j) =>
        let w := twiddle (bits b.cx 0 5) (b.b.base * j % 2 ^ bits b.cx 0 5)
        complexMul b.rm (b.sat == 1) false x (if bitAt b.cx 5 then (w.1, flipPart w.2) else w)).flatMap fun (x, z) => [x, z]) →
      (b.d.space = spTp → b.d.count = 2 * l.length) →
      s.DeliversAny (.vtwd b) b (2 * l.length) y h1 o → exec (.vtwd b) s = .next (s.ran (.vtwd b) none o)) ∧
    (s.IssuesOnce (.vcmul b) → s.ReadsComplex (.vcmul b) b.a (b.counters 0) l h1 → s.ReadsComplex (.vcmul b) b.b (b.counters 0) m h2 →
      m.length = l.length ∨ m.length = 1 →
      y = runsOf (((l.zip (if m.length = l.length then m else l.map fun _ => m.headD (0, 0))).map fun (x, z) =>
        complexMul b.rm (b.sat == 1) (bitAt b.cx 0) x z).flatMap fun (x, z) => [x, z]) → (b.d.space = spTp → b.d.count = 2 * l.length) →
      s.DeliversAny (.vcmul b) b (2 * l.length) y (h1 ++ h2) o → exec (.vcmul b) s = .next (s.ran (.vcmul b) none o))

/-- R131 to R135: LDG, LDGR and LDWB copy a window, LDT and LDWB a handle's tile, LDF an immediate; LDX and LDXL gather by an
index list; LDW walks; LDQ records the elements that reach a threshold. -/
def Obligations.LoadForms : Prop :=
  ∀ (b : LBlk) (s : State) (l xs : List Nat) (hot : Hot) (hd : Handle) (pss : List (Option (List Piece))) (w : Writes),
    (∀ i, i = .ldg b ∨ i = .ldgr b ∨ (i = .ldwb b ∧ b.a.space ≠ spTh) → s.IssuesOnce i →
      s.Source i b.a (memWidth b.fmt) (b.counters 0) l hot → s.Target i none b l w →
      exec i s = .next (s.ran i none { tile := w.tile, homes := w.pool, hot := hot })) ∧
    (∀ i, i = .ldt b ∨ (i = .ldwb b ∧ b.a.space = spTh) → s.IssuesOnce i → readHandle s s.ref b b.a = .ok hd →
      tileMatches b.a b.d hd = true → readTile (s.reading i (some hd)) s.ref b.a hd (b.counters 0) = .ok (l, hot) →
      s.Target i (some hd) b l w → exec i s = .next (s.ran i (some hd) { tile := w.tile, homes := w.pool, hot := hot })) ∧
    (s.IssuesOnce (.ldf b) → s.Target (.ldf b) none b (List.replicate b.d.count b.a.base) w →
      exec (.ldf b) s = .next (s.ran (.ldf b) none { tile := w.tile, homes := w.pool })) ∧
    (∀ o, o = originAt (s.reading (.ldx b) none) s.ref b.a (b.counters 0) → s.IssuesOnce (.ldx b) →
      indexList (s.reading (.ldx b) none) s.ref (s.newEntry (.ldx b) none) b 0 = .ok xs →
      (b.a.space = spTp → s.Target (.ldx b) none b ((indexed o (memWidth b.fmt / 8) xs).map fun a => match a with
          | some x => if inRegion (s.reading (.ldx b) none) s.ref o (memWidth b.fmt / 8) x then
              ((s.reading (.ldx b) none).ctx s.ref).mediumBits spTp (8 * x).toNat (memWidth b.fmt) else 0
          | none => 0) w →
        exec (.ldx b) s = .next (s.ran (.ldx b) none
          { loaded w [] with guard := guardOf (s.reading (.ldx b) none) s.ref (s.newEntry (.ldx b) none) b 0 o (memWidth b.fmt / 8)
                               (indexed o (memWidth b.fmt / 8) xs) })) ∧
      (b.a.space ≠ spTp → s.Places (.ldx b) none .read (memWidth b.fmt) ((indexed o (memWidth b.fmt / 8) xs).map fun a => a.map (8 * ·)) pss →
        s.Target (.ldx b) none b (s.valuesAt (.ldx b) pss) w →
        exec (.ldx b) s = .next (s.ran (.ldx b) none { tile := w.tile, homes := w.pool, hot := placesHot pss }))) ∧
    (s.IssuesOnce (.ldxl b) → indexList (s.reading (.ldxl b) none) s.ref (s.newEntry (.ldxl b) none) b 0 = .ok xs →
      s.Places (.ldxl b) none .read (memWidth b.fmt) (lineElems b.a (memWidth b.fmt)
        (indexed (originAt (s.reading (.ldxl b) none) s.ref b.a (b.counters 0)) (pitchOf b.a (memWidth b.fmt)) xs)) pss →
      s.Target (.ldxl b) none b (s.valuesAt (.ldxl b) pss) w →
      exec (.ldxl b) s = .next (s.ran (.ldxl b) none { tile := w.tile, homes := w.pool, hot := placesHot pss })) ∧
    (∀ q rec x ls h0, walkCheck b s s.ref = .ok (some { record := rec }) → q = walkOf rec → x = s.reading (.ldw b) (some { record := rec }) →
      s.IssuesOnce (.ldw b) →
      readOperand x s.ref (s.newEntry (.ldw b) (some { record := rec })) b.b (if q.mode = 0 then 64 else 32) (b.counters 0) = .ok (xs, h0) →
      walkAll (fun n p => if q.mode = 0 then chase (x.viaCarafe s.ref) s.ref q b.fmt q.hops p else randomWalk (x.viaCarafe s.ref) s.ref q n q.hops 1 p) 0 xs = .ok (ls, hot) →
      s.Target (.ldw b) (some { record := rec }) b ((upto q.hops).flatMap fun h => ls.map fun l => l.getD h 0) w →
      exec (.ldw b) s = .next (s.ran (.ldw b) (some { record := rec }) { tile := w.tile, homes := w.pool, hot := hot })) ∧
    (s.IssuesOnce (.ldq b) → s.Source (.ldq b) b.a (memWidth b.fmt) (b.counters 0) l hot →
      ∀ hits, hits = ((upto l.length).zip l).filter (fun x => reaches b.fmt x.2 b.b.base) →
      exec (.ldq b) s = .next (s.ran (.ldq b) none (wrote
        ((elemBits b.d (originAt (s.reading (.ldq b) none) s.ref b.d (b.counters 0)) 32).zipWith (fun a v => .tp a.toNat 32 v)
          ([hits.length, min hits.length ((b.d.seg - 1) / 2)] ++ (hits.take ((b.d.seg - 1) / 2)).flatMap fun (n, a) => [n, a])) hot)))

/-- R152 to R156: STG, STGR and STT copy a window out, STX and STXL scatter by an index list, STRD and the atomics combine
words at their homes. Device memory takes the accesses as the block's fork, a pool at completion; a returning atomic is
performed by completion, and one with REL is a release at its SCOPE (R187). -/
def Obligations.StoreForms : Prop :=
  ∀ (b : LBlk) (s : State) (l xs : List Nat) (hot : Hot) (hd : Handle) (pss : List (Option (List Piece))) (w : Writes) (acc : List Access),
    (∀ i, i = .stg b ∨ i = .stgr b → s.IssuesOnce i → s.Source i b.a (memWidth b.fmt) (b.counters 0) l hot → s.Target i none b l w →
      (i = .stg b → exec i s = .next (s.ran i none { tile := w.tile, homes := w.pool, fork := w.memory.map fun a => { a with line := true }, hot := hot })) ∧
      (i = .stgr b → exec i s = .next (s.ran i none { tile := w.tile, homes := w.pool, fork := w.memory, hot := hot }))) ∧
    (s.IssuesOnce (.stt b) → readHandle s s.ref b b.d = .ok hd → tileMatches b.d b.a hd = true →
      readOperand (s.reading (.stt b) (some hd)) s.ref (s.newEntry (.stt b) (some hd)) b.a (memWidth b.fmt) (b.counters 0) = .ok (l, hot) →
      translateTile ((s.reading (.stt b) (some hd)).viaCarafe s.ref) s.ref .write (memWidth b.fmt) (tileElems b.d hd (b.counters 0)) = .ok pss →
      exec (.stt b) s = .next (s.ran (.stt b) (some hd) { fork := tileWrites (packCtr (b.counters 0)) pss l, hot := hot })) ∧
    (∀ o, o = originAt (s.reading (.stx b) none) s.ref b.d (b.counters 0) → s.IssuesOnce (.stx b) →
      s.Source (.stx b) b.a (memWidth b.fmt) (b.counters 0) l hot →
      indexList (s.reading (.stx b) none) s.ref (s.newEntry (.stx b) none) b 0 = .ok xs →
      (b.d.space = spTp → ∀ ws, ws = ((indexed o (memWidth b.fmt / 8) xs).zip l).filterMap (fun (a, v) => match a with
            | some x => if inRegion (s.reading (.stx b) none) s.ref o (memWidth b.fmt / 8) x then
                some (TileWrite.tp (8 * x).toNat (memWidth b.fmt) v) else none
            | none => none) →
        exec (.stx b) s = .next (s.ran (.stx b) none
          { wrote ws hot with guard := guardOf (s.reading (.stx b) none) s.ref (s.newEntry (.stx b) none) b 0 o (memWidth b.fmt / 8)
                                (indexed o (memWidth b.fmt / 8) xs) })) ∧
      (b.d.space ≠ spTp → s.Places (.stx b) none .write (memWidth b.fmt) ((indexed o (memWidth b.fmt / 8) xs).map fun a => a.map (8 * ·)) pss →
        exec (.stx b) s = .next (s.ran (.stx b) none { fork := tileWrites (packCtr (b.counters 0)) pss l, hot := hot }))) ∧
    (s.IssuesOnce (.stxl b) → s.Source (.stxl b) b.a (memWidth b.fmt) (b.counters 0) l hot →
      indexList (s.reading (.stxl b) none) s.ref (s.newEntry (.stxl b) none) b 0 = .ok xs →
      s.Places (.stxl b) none .write (memWidth b.fmt) (lineElems b.d (memWidth b.fmt)
        (indexed (originAt (s.reading (.stxl b) none) s.ref b.d (b.counters 0)) (pitchOf b.d (memWidth b.fmt)) xs)) pss →
      exec (.stxl b) s = .next (s.ran (.stxl b) none { fork := tileWrites (packCtr (b.counters 0)) pss l, hot := hot })) ∧
    (∀ x, x = s.reading (.strd b) none → s.IssuesOnce (.strd b) → s.Source (.strd b) b.a 32 (b.counters 0) l hot →
      (b.b.space = spIx → indexList x s.ref (s.newEntry (.strd b) none) b 0 = .ok xs) →
      stepsAt x s.ref b.d (packCtr (b.counters 0))
        (if b.b.space = spIx then indexed (originAt x s.ref b.d (b.counters 0)) 4 xs else wordAddrs x s.ref b.d (b.counters 0))
        (l.map fun v => { f := strdOp b, x := v }) = .ok acc →
      exec (.strd b) s = .next (s.ran (.strd b) none (if b.d.space = spGm then { fork := acc, hot := hot } else { homes := acc, hot := hot }))) ∧
    (∀ e ∈ atomForms, ∀ x back acc1, x = s.reading (e.ins b) none → s.IssuesOnce (e.ins b) → s.Source (e.ins b) b.a 32 (b.counters 0) l hot →
      back = (if b.b.space = spNone then List.replicate b.d.count none
        else (elemBits b.b (originAt x s.ref b.b (b.counters 0)) 32).map fun a => some a.toNat) →
      stepsAt x s.ref b.d (packCtr (b.counters 0)) (wordAddrs x s.ref b.d (b.counters 0))
        (((atomOperands b (e.F b == .cas) l).zip back).map fun ((o, v), ret) => { f := e.F b, x := v, e := o, ret := ret }) = .ok acc →
      acc1 = (if bits b.cx 3 1 = 1 then releases s.ref (bits b.cx 0 3) acc else acc) →
      exec (e.ins b) s = .next (s.ran (e.ins b) none (if b.b.space = spNone then { fork := acc1, hot := hot } else { homes := acc1, hot := hot })))

/-- R29, R114, R119, R150, R167, R172: every L-form block but those of streams runs its iterations, each doing what its form's own
body says, in nest order, from its first as it issues and from its next when it runs on, until the last, a fault, a wait for a ring
slot, or a point at which other agents act. The kth iteration has the counters that the loops of R29 have in their kth round, c0
innermost. The points at which a block pauses are the model's reading (log 2). -/
def Obligations.NestOrder : Prop :=
  (∀ i, (lParts i).isSome = true → (∀ b, i ≠ .sub b ∧ i ≠ .subc b ∧ i ≠ .pub b ∧ i ≠ .pubc b) → ∃ e ∈ nestForms, ∃ b, i = e.ins b) ∧
  (∀ e ∈ nestForms, ∀ (b : LBlk) (s : State) (i : Instr) (beh : Behaviour), i = e.ins b → beh = e.beh b →
    (∀ hd, s.Issues i → beh.check s s.ref = .ok hd →
      ∃ t, exec i s = .next t ∧ NestEnds beh s.ref (s.nextIndex s.ref) (iterationsOf i) (s.firstRun i hd) t) ∧
    (∀ x, s.Issues i → beh.check s s.ref = .error x → exec i s = .next (s.issueStop s.ref x)) ∧
    (∀ k f, findRun i (s.chain s.ref).inflight 0 = some k → (s.chain s.ref).inflight[k]? = some f → s.runnable s.ref = true → s.env = {} →
      s.mayIterate s.ref k = true →
      ∃ t, exec i s = .next t ∧ NestEnds beh s.ref k (iterationsOf i - f.ctr) { s := s, v := s.viewOf s.ref k, f := f } t)) ∧
  (∀ (b : LBlk) (c0 c1 c2 c3 k : Nat), c0 ≤ b.b0 → c1 ≤ b.b1 → c2 ≤ b.b2 → c3 ≤ b.b3 →
    k = c0 + (b.b0 + 1) * (c1 + (b.b1 + 1) * (c2 + (b.b2 + 1) * c3)) → k < b.iterations ∧ b.counters k = (c0, c1, c2, c3)) ∧
  (∀ (b : LBlk) (k : Nat), k < b.iterations → ∃ c0 c1 c2 c3, c0 ≤ b.b0 ∧ c1 ≤ b.b1 ∧ c2 ≤ b.b2 ∧ c3 ≤ b.b3 ∧
    k = c0 + (b.b0 + 1) * (c1 + (b.b1 + 1) * (c2 + (b.b2 + 1) * c3)))

/-! ### S-form blocks -/

/-- R99: NOP, LINK, BRC and BRCD complete as they issue; LINK moves the cursor to its target, BRC when its condition holds,
BRCD while its counter is not 0, which it decrements. -/
def Obligations.TransferForms : Prop :=
  ∀ (c : Ctl) (tgt imm off cond : Nat) (s : State),
    (s.Goes (.nop c) → exec (.nop c) s = .next (s.finish (s.issued (.nop c)))) ∧
    (s.Goes (.link c tgt) → exec (.link c tgt) s = .next (s.finish ((s.issued (.link c tgt)).jump s.ref tgt))) ∧
    (∀ i w t taken, i = .brc c cond tgt imm off → s.Goes i → w = (s.sees i).tpWord off 4 →
      taken = (cond = 0 ∨ (cond = 1 ∧ (s.chain s.ref).endFlag = true) ∨ (cond = 2 ∧ (s.chain s.ref).endFlag = false) ∨ (cond = 3 ∧ w = imm) ∨
        (cond = 4 ∧ w ≠ imm) ∨ (cond = 5 ∧ signed 32 w < signed 32 imm) ∨ (cond = 6 ∧ signed 32 imm ≤ signed 32 w) ∨
        (cond = 7 ∧ w < imm) ∨ (cond = 8 ∧ imm ≤ w) ∨ (cond = 9 ∧ w &&& imm ≠ 0) ∨ (10 ≤ cond ∧ w &&& imm = 0)) →
      t = (if cond = 1 ∨ cond = 2 then (s.issued i).updChain s.ref fun h => { h with endFlag := false } else s.issued i) →
      (taken → exec i s = .next (s.finish (t.jump s.ref (nearTarget (s.chain s.ref).cursor tgt)))) ∧
      (¬ taken → exec i s = .next (s.finish t))) ∧
    (∀ i n, i = .brcd c tgt off → s.Goes i → n = (s.sees i).tpWord off 4 →
      (n = 0 → exec i s = .next (s.finish (s.issued i))) ∧
      (n ≠ 0 → exec i s = .next (s.finish ((s.leaves (s.issued i) [.tp (8 * off) 32 (n - 1)]).jump s.ref
        (nearTarget (s.chain s.ref).cursor tgt)))))

/-- R18, R19, R99: where the cursor stands after a block of the chain-control class, and after any block that issues. -/
def Obligations.CursorMoves : Prop :=
  ∀ (s : State) (c : Ctl) (tgt : Nat),
    (s.Goes (.nop c) → ∃ t, exec (.nop c) s = .next t ∧ (t.chain s.ref).cursor = (s.chain s.ref).cursor + 32) ∧
    (s.Goes (.link c tgt) → ∃ t, exec (.link c tgt) s = .next t ∧ (t.chain s.ref).cursor = tgt ∧ (t.chain s.ref).queue = []) ∧
    (∀ i hd, ((s.startBlock s.ref i hd).chain s.ref).cursor = match lParts i with
      | none => (s.chain s.ref).cursor + 32
      | some (_, _, b) => if b.lk = 1 then (s.chain s.ref).cursor / 2 ^ 48 * 2 ^ 48 + b.next else (s.chain s.ref).cursor + 128)

/-- R103, R106, R107: END retires its chain and drops what it had queued; YIELD refills the budget before the deadline and
offers the slot; SPAWN queues a record as a fork, or faults with MISALIGNED WINDOW. -/
def Obligations.TaskControlForms : Prop :=
  ∀ (c : Ctl) (rb roff inh : Nat) (s : State),
    (∀ i, i = .endChain c → s.Goes i → exec i s = .next (s.finish (((s.issued i).updChain s.ref fun h =>
      { h with retired := true, queue := [], cursor := (s.chain s.ref).cursor }).cancelDangling s.ref))) ∧
    (∀ i n, i = .yieldSlot c → n = (s.issued i).taskOf s.ref → s.Goes i →
      (s.cycle < (s.task n).deadline → exec i s = .next (s.finish
        (((s.issued i).updCtx s.ref fun c => { c with budget := (s.task n).fullBudget }).offerSlot s.ref))) ∧
      ((s.task n).deadline ≤ s.cycle → exec i s = .next (s.finish ((s.issued i).offerSlot s.ref)))) ∧
    (∀ i t n va, i = .spawn c rb roff inh → t = s.issued i → n = t.taskOf s.ref → va = wrapTo 64 (rbAddr t s.ref rb roff) → s.Goes i →
      (va % 128 ≠ 0 → exec i s = .next (s.issueStop s.ref { cause := .misalignedWindow, fva := va })) ∧
      (va % 128 = 0 → exec i s = .next (s.finish { t with forks := t.forks ++
        [{ task := n, pasid := (t.task n).pasid, ref := s.ref, block := (s.chain s.ref).cursor, kind := .spawn va (inh == 1) }] })))

/-- R102, R95: PATCH, PATCHI and PATCHV write bytes of the tile pool, of an immediate or of a register's element, in one access,
into the block at their target, drop the queued copies from the first block that overlaps them on, and complete. A write that
follows an own fork's to its sector waits for it. A target page that is not present, or not writable, faults at issue, as do
a register that is not valid and an element at or above its length. ACC of the failed translation's record is read in log 44. -/
def Obligations.PatchForms : Prop :=
  ∀ (c : Ctl) (len tgt off imm elem vr x T : Nat) (s : State) (i : Instr) (g : VReg),
    s.Goes i → tgt % 32 + len + 1 ≤ 32 → T = nearTarget (s.chain s.ref).cursor tgt → g = (s.sees i).vreg vr →
    ((i = .patch c len tgt off ∧ x = (s.sees i).tpWord off (len + 1)) ∨ (i = .patchi c len tgt imm ∧ x = imm) ∨
      (i = .patchv c len tgt elem vr ∧ g.valid = true ∧ elem < g.len ∧ x = Runs.at_ g.runs elem % 2 ^ (8 * (len + 1))) →
      (∀ m p a, (s.issued i).translate s.ref.tile ((s.issued i).task ((s.issued i).taskOf s.ref)).pasid T .write = .ok p →
        p.place = .tier m → a = patchWrite p T (len + 1) x →
        ((s.issued i).ownHolds s.ref s.steps a = false → Map.get false (s.issued i).poison ((s.issued i).unitKey a) = false →
          exec i s = .next (s.finish ((s.issued i).performAccess a).1)) ∧
        ((s.issued i).ownHolds s.ref s.steps a = true →
          exec i s = .next ((s.issued i).updEntry s.ref (s.nextIndex s.ref) fun f => { f with homes := [a] }))) ∧
      (∀ p, (s.issued i).translate s.ref.tile ((s.issued i).task ((s.issued i).taskOf s.ref)).pasid T .write = .ok p → p.place = .peer →
        exec i s = .next (s.finish ((s.issued i).addFork s.ref (s.chain s.ref).cursor s.steps [patchWrite p T (len + 1) x]))) ∧
      (∀ e, (s.issued i).translate s.ref.tile ((s.issued i).task ((s.issued i).taskOf s.ref)).pasid T .write = .error e →
        exec i s = .next (s.issueStop s.ref { cause := e, fva := wrapTo 64 T, remain := 1, acc := AccessKind.write.walkAcc e }))) ∧
    (i = .patchv c len tgt elem vr → g.valid = false → exec i s = .next (s.issueStop s.ref { cause := .formatTag })) ∧
    (i = .patchv c len tgt elem vr → g.valid = true → g.len ≤ elem → exec i s = .next (s.issueStop s.ref { cause := .lengthMismatch }))

/-- R108, R368: SVC and TRAP park their block and their task with the number and argument in the record, BRKP stops its engine
with its tag, FLTI raises a cause it may name in a privileged task, and waits for its record where a NOTE's is held; on
resumption the block completes, unless its signals come after the cycle's tests (R167). -/
def Obligations.RaisingForms : Prop :=
  ∀ (c : Ctl) (n arg code : Nat) (s : State),
    (∀ i, i = .svc c n arg → s.Issues i → exec i s = .next ((s.issued i).raiseCause s.ref (s.nextIndex s.ref)
      { cause := .supervisorCall, remain := n, fva := arg } .park)) ∧
    (∀ i, i = .trap c n arg → s.Issues i → exec i s = .next ((s.issued i).raiseCause s.ref (s.nextIndex s.ref)
      { cause := .trap n, remain := n, fva := arg } .park)) ∧
    (∀ i, i = .brkp c n → s.Issues i → exec i s = .next ((s.issued i).raiseCause s.ref (s.nextIndex s.ref)
      { cause := .breakpoint, remain := n } .stop)) ∧
    (∀ i x, i = .flti c code arg → s.Issues i →
      (((s.issued i).task ((s.issued i).taskOf s.ref)).priv = false → exec i s = .next (s.issueStop s.ref { cause := .permission })) ∧
      (((s.issued i).task ((s.issued i).taskOf s.ref)).priv = true → causeOf code = some x →
        (x.disp ≠ .note → exec i s = .next ((s.issued i).raiseCause s.ref (s.nextIndex s.ref)
          { cause := x, remain := fltiRemain x, fva := arg } x.disp)) ∧
        (∀ t, x.disp = .note → t = (s.issued i).takeFault s.ref (s.chain s.ref).cursor { cause := x, remain := fltiRemain x, fva := arg } .note →
          ((s.issued i).wouldHold (dieOf s.ref.tile) = false → exec i s = .next (s.finish t)) ∧
          ((s.issued i).wouldHold (dieOf s.ref.tile) = true →
            exec i s = .next (t.updEntry s.ref (s.nextIndex s.ref) fun f => { f with phase := .waiting }))))) ∧
    (∀ i k, i = .svc c n arg ∨ i = .trap c n arg ∨ i = .brkp c n ∨ i = .flti c code arg →
      findRun i (s.chain s.ref).inflight 0 = some k → s.runnable s.ref = true → s.signalsLate s.ref i = false →
      exec i s = .next (s.completeBlock s.ref k))

/-- R166, R178, R179, R183: SEMI sets a count, SEMQ writes it to the tile pool, SEMW has waited for it and may subtract, SEMS adds to
a count of its own slot or of another on its die. BARI takes a free point, and faults on one that is taken; BARA arrives, moving the
phase on with the last arrival, and may write the phase it arrived in; BARW has waited for the phase to pass; the last two fault on a
point that their PASID does not own. -/
def Obligations.SignalForms : Prop :=
  (∀ (c : Ctl) (sem val off dec cnt rmt slot tile : Nat) (s t : State),
    (∀ i, i = .semi c sem val → s.Goes i → ((s.issued i).ctx s.ref).ringSem sem = false →
      exec i s = .next (s.finish ((s.issued i).updCtx s.ref fun c => c.setSem sem val))) ∧
    (∀ i, i = .semq c sem off → s.Goes i →
      exec i s = .next (s.leaves (s.issued i) [.tp (8 * off) 32 (((s.issued i).ctx s.ref).sem sem)])) ∧
    (∀ i, i = .semw c dec sem cnt → s.Goes i → ((s.issued i).ctx s.ref).ringSem sem = false →
      cnt ≤ (s.ctx s.ref).sem sem ∧
      (dec = 1 → exec i s = .next (s.finish ((s.issued i).updCtx s.ref fun c => c.setSem sem (c.sem sem - cnt)))) ∧
      (dec ≠ 1 → exec i s = .next (s.finish (s.issued i)))) ∧
    (∀ i x y, i = .sems c rmt slot tile sem cnt → s.Goes i → (x, y) = (if rmt = 1 then (tile, slot) else (s.ref.tile, s.ref.slot)) →
      (dieOf x ≠ dieOf s.ref.tile → exec i s = .next (s.issueStop s.ref { cause := .remoteWindow })) ∧
      (dieOf x = dieOf s.ref.tile →
        (s.issued i).signalSlot ((s.issued i).task ((s.issued i).taskOf s.ref)).pasid x y sem cnt = some (.ok t) →
        exec i s = .next (s.finish t)))) ∧
  (∀ (c : Ctl) (pt exp pw off : Nat) (s : State),
    (∀ i, i = .bari c pt exp → s.Goes i → ((s.issued i).point (pointKey s.ref pt)).owner = none →
      exec i s = .next (s.finish ((s.issued i).setPoint (pointKey s.ref pt)
        { owner := some ((s.issued i).task ((s.issued i).taskOf s.ref)).pasid, exp := exp }))) ∧
    (∀ i, i = .bari c pt exp → s.Goes i → ((s.issued i).point (pointKey s.ref pt)).owner ≠ none →
      exec i s = .next (s.issueStop s.ref { cause := .barrierReinit })) ∧
    (∀ i p, i = .bara c pt pw off → s.Goes i → p = (s.issued i).point (pointKey s.ref pt) →
      (p.owner = some ((s.issued i).task ((s.issued i).taskOf s.ref)).pasid →
        exec i s = .next (s.leaves ((s.issued i).setPoint (pointKey s.ref pt)
          (if p.arr + 1 = p.exp then { p with arr := 0, phase := (p.phase + 1) % 65536 } else { p with arr := p.arr + 1 }))
          (if pw = 1 then [.tp (8 * off) 32 p.phase] else []))) ∧
      (p.owner ≠ some ((s.issued i).task ((s.issued i).taskOf s.ref)).pasid →
        exec i s = .next (s.issueStop s.ref { cause := .rendezvousMisuse }))) ∧
    (∀ i, i = .barw c pt off → s.Goes i →
      (((s.issued i).point (pointKey s.ref pt)).owner = some ((s.issued i).task ((s.issued i).taskOf s.ref)).pasid →
        exec i s = .next (s.finish (s.issued i))) ∧
      (((s.issued i).point (pointKey s.ref pt)).owner ≠ some ((s.issued i).task ((s.issued i).taskOf s.ref)).pasid →
        exec i s = .next (s.issueStop s.ref { cause := .rendezvousMisuse }))))

/-- R116, R168, R180 to R182: REGD and RINGD declare, replace or remove a region and a ring; RINGD empties the ring's full
semaphore and fills its empty one; EOS sends a token. -/
def Obligations.RegionForms : Prop :=
  ∀ (c : Ctl) (b2v b2w b2sem b1v b1w b1sem mode space reg len off prod esem fsem ring slot64 nslot : Nat) (s : State) (c1 : Ctx),
    (∀ i, i = .regd c b2v b2w b2sem b1v b1w b1sem mode space reg len off → s.Goes i →
      ((s.issued i).ctx s.ref).regd reg (if mode = 0 then none else some (regionOfFields b2v b2w b2sem b1v b1w b1sem mode space len off)) = .ok c1 →
      exec i s = .next (s.finish ((s.issued i).setCtx s.ref c1)) ∧
      c1 = ((s.issued i).ctx s.ref).setRegion reg
        (if mode = 0 then none else some (regionOfFields b2v b2w b2sem b1v b1w b1sem mode space len off))) ∧
    (∀ i g x, i = .ringd c prod esem fsem reg ring slot64 nslot → s.Goes i → g = ringOfFields prod esem fsem reg slot64 nslot →
      x = (s.issued i).ctx s.ref →
      (x.ring ring = none → nslot ≠ 0 → x.ringOk g = true →
        exec i s = .next (s.finish ((s.issued i).setCtx s.ref (((x.setSem fsem 0).setSem esem nslot).setRing ring (some g))))) ∧
      (∀ old, x.ring ring = some old → nslot = 0 → old.sub = none → old.pull = none →
        exec i s = .next (s.finish ((s.issued i).setCtx s.ref (x.setRing ring none))))) ∧
    (∀ i g, i = .eos c ring → s.Goes i → ((s.issued i).ctx s.ref).ring ring = some g → g.tokens < g.prod →
      exec i s = .next (s.finish ((s.issued i).setCtx s.ref
        (((s.issued i).ctx s.ref).setRing ring (some { g with tokens := g.tokens + 1 })))))

/-- R142, R160, R184, R185: LDACQ reads a word, and is an acquire at its SCOPE; STREL and POST hand over the access to theirs, a
release at its SCOPE; FENCE waits in flight; JOIN has waited for its object, and is an acquire too. A value that the home of a
watched word has reported is the one that LDACQ writes. The words of LDACQ, STREL, POST and JOIN stand on their own size, or the
block faults. -/
def Obligations.OrderingForms : Prop :=
  ∀ (c : Ctl) (wt w64 scope rb roff imm off si op val n v : Nat) (hot : Hot) (l : List Access) (s : State),
    n = (if w64 = 1 then 8 else 4) →
    (∀ i va, i = .ldacq c wt w64 scope rb roff imm off → va = rbAddr (s.issued i) s.ref rb roff → s.Goes i →
      (va % (n : Nat) ≠ 0 → exec i s = .next (s.issueStop s.ref { cause := .misalignedWindow, fva := wrapTo 64 va })) ∧
      (va % (n : Nat) = 0 → (s.chain s.ref).reported i = none → readWord (s.issued i) s.ref va n = .ok (v, hot) →
        exec i s = .next (s.leaves (((s.issued i).acquire s.ref scope va n).sampleAll hot) [.tp (8 * off) (8 * n) v])) ∧
      (va % (n : Nat) = 0 → (s.chain s.ref).reported i = some v →
        exec i s = .next (s.leaves ((s.issued i).acquire s.ref scope va n) [.tp (8 * off) (8 * n) v]))) ∧
    (∀ i va, i = .strel c si w64 scope rb roff imm off → va = rbAddr (s.issued i) s.ref rb roff → s.Goes i → va % (n : Nat) = 0 →
      wordAccess (s.issued i) s.ref .write va n (.write (if si = 1 then imm else (s.sees i).tpWord off n)) = .ok l →
      exec i s = .next ((s.issued i).handOver s.ref (s.nextIndex s.ref) (releases s.ref scope l))) ∧
    (∀ i, i = .fence c scope → s.Goes i →
      exec i s = .next ((s.issued i).updEntry s.ref (s.nextIndex s.ref) fun f => { f with phase := .waiting })) ∧
    (∀ i va, i = .post c op scope rb roff val → va = rbAddr (s.issued i) s.ref rb roff → s.Goes i → va % 8 = 0 →
      wordAccess (s.issued i) s.ref .atomic va 8 (.rmw (match op with | 0 => .postAdd | 1 => .postMax | _ => .postWrite) val 0 none) = .ok l →
      exec i s = .next ((s.issued i).handOver s.ref (s.nextIndex s.ref) (releases s.ref scope l))) ∧
    (∀ i va, i = .join c scope rb roff val → va = rbAddr (s.issued i) s.ref rb roff → s.Goes i → va % 8 = 0 →
      ((s.chain s.ref).reported i = none → readWord (s.issued i) s.ref va 8 = .ok (v, hot) →
        exec i s = .next (s.finish (((s.issued i).acquire s.ref scope va 8).sampleAll hot))) ∧
      ((s.chain s.ref).reported i = some v → exec i s = .next (s.finish ((s.issued i).acquire s.ref scope va 8)))) ∧
    (∀ i va m, (i = .strel c si w64 scope rb roff imm off ∧ m = n) ∨ (i = .post c op scope rb roff val ∧ m = 8) ∨ (i = .join c scope rb roff val ∧ m = 8) →
      va = rbAddr (s.issued i) s.ref rb roff → s.Goes i → va % (m : Nat) ≠ 0 →
      exec i s = .next (s.issueStop s.ref { cause := .misalignedWindow, fva := wrapTo 64 va }))

/-- R136, R140, R161, R163: SUB and PUB open a stream on a ring; SUBC closes a subscription with a token, at once or, where it has
taken a slot, when that slot is finished; PUBC closes a pull stream, which may finish a slot it has taken, and completes when the
stream's writes are visible. -/
def Obligations.StreamForms : Prop :=
  ∀ (b : LBlk) (h : Handle) (g : Ring) (s : State),
    (∀ i x, i = .sub b → x = (s.issued i).ctx s.ref → s.Goes i → readHandle (s.issued i) s.ref b b.a = .ok h → b.d.seg + 1 = tileCount b.a →
      x.ring b.d.base = some g → tileCount b.a * memWidth b.fmt ≤ 8 * g.slot → g.sub = none →
      exec i s = .next (s.finish ((s.issued i).setCtx s.ref (x.setRing b.d.base
        (some { g with sub := some { block := (s.chain s.ref).cursor, body := b, handle := h } }))))) ∧
    (∀ i x, i = .subc b → x = (s.issued i).ctx s.ref → s.Goes i → x.ring b.d.base = some g →
      (g.sub = none → exec i s = .next (s.finish (s.issued i))) ∧
      (∀ y, g.sub = some y → y.took = none → g.tokens < g.prod → exec i s = .next (s.finish ((s.issued i).setCtx s.ref
        ((x.setRing b.d.base (some { g with sub := none })).setRing b.d.base
          (some { g with sub := none, tokens := g.tokens + 1 }))))) ∧
      (∀ y, g.sub = some y → y.took ≠ none → exec i s = .next (((s.issued i).setCtx s.ref
        (x.setRing b.d.base (some { g with sub := some { y with closing := true } }))).updEntry s.ref (s.nextIndex s.ref)
          fun f => { f with phase := .waiting }))) ∧
    (∀ i x, i = .pub b → x = (s.issued i).ctx s.ref → s.Goes i → readHandle (s.issued i) s.ref b b.d = .ok h →
      x.ring b.a.base = some g → tileCount b.d * memWidth b.fmt ≤ 8 * g.slot → g.pull = none →
      exec i s = .next (s.finish ((s.issued i).setCtx s.ref (x.setRing b.a.base
        (some { g with pull := some { block := (s.chain s.ref).cursor, body := b, handle := h } }))))) ∧
    (∀ i x t, i = .pubc b → x = (s.issued i).ctx s.ref → s.Goes i → x.ring b.a.base = some g →
      t = (s.issued i).setCtx s.ref (x.setRing b.a.base (some { g with pull := g.pull.bind Stream.closed })) →
      (g.pull = none ∨ t.pullOver s.ref b.a.base = true → exec i s = .next (s.finish t)) ∧
      (g.pull ≠ none → t.pullOver s.ref b.a.base = false →
        exec i s = .next (t.updEntry s.ref (s.nextIndex s.ref) fun f => { f with phase := .waiting })))

/-! ### Class 9 -/

/-- R284 to R288: what the forms over a range do at each of its pages: MIGR queues a request where the page does not rest in the tier, and
counts the page done once it is queued (log 35); MIGRS goes on where it rests there; MPIN, MUNPIN and MADV rewrite the leaf entry;
MABRT aborts a migration; MHOT and MQRY report on the page, each later unit of a large page with the HOT of its first. -/
def Obligations.RangeForms : Prop :=
  ∀ (c : Ctl) (x rb roff npg off n k a j pasid p : Nat) (s t : State) (w : Walk),
    n = npg + 1 → p = pageVa a j → pasid = (t.task (t.taskOf s.ref)).pasid →
    (∀ i q, i = .migr c x rb roff npg → s.OnPage i rb roff n t k a j → q = t.requester s.ref k false → t.walk pasid p = .ok w →
      (firstUnit a j w.size = false ∨ t.restsIn pasid p w (Tier.ofNum x) = true → exec i s = .next (t.pageDone s.ref k n)) ∧
      (∀ t1, firstUnit a j w.size = true → t.restsIn pasid p w (Tier.ofNum x) = false →
        t.ask q (wholePage p w.size) (Tier.ofNum x) = some t1 → exec i s = .next (t1.pageDone s.ref k n))) ∧
    (∀ i q, i = .migrs c x rb roff npg → s.OnPage i rb roff n t k a j → q = t.requester s.ref k true → t.walk pasid p = .ok w →
      (t.perc.aborts.all fun m => !(m.who.same q && holdsUnit p m.va)) = true → t.asked q (holdsUnit p) = false →
      firstUnit a j w.size = false ∨ t.restsIn pasid p w (Tier.ofNum x) = true →
      exec i s = .next (t.pageDone s.ref k n)) ∧
    (∀ i, i = .mpin c rb roff npg → s.OnPage i rb roff n t k a j → t.walk pasid p = .ok w → firstUnit a j w.size = true →
      (t.motionOf pasid (wholePage p w.size) = none → exec i s = .next ((t.setLeaf w (putField w.leaf 58 1 1)).pageDone s.ref k n)) ∧
      (t.motionOf pasid (wholePage p w.size) ≠ none → exec i s = .next (t.pageWaits s.ref k))) ∧
    (∀ i, i = .munpin c rb roff npg → s.OnPage i rb roff n t k a j → t.walk pasid p = .ok w → firstUnit a j w.size = true →
      exec i s = .next ((t.setLeaf w (putField w.leaf 58 1 0)).pageDone s.ref k n)) ∧
    (∀ i, i = .madv c x rb roff npg → s.OnPage i rb roff n t k a j → t.walk pasid p = .ok w → firstUnit a j w.size = true →
      exec i s = .next ((t.setLeaf w (match x with
        | 0 => putField (putField w.leaf 57 1 0) 54 3 0
        | 1 => putField w.leaf 57 1 1
        | _ => putField w.leaf 54 3 (x - 1))).pageDone s.ref k n)) ∧
    (∀ i, i = .mabrt c rb roff npg → s.OnPage i rb roff n t k a j →
      (j < n → (∀ m, t.motionOf pasid p = some m → m.state = .moving → exec i s = .next ((t.abortMotion pasid p 5).pageDone s.ref k (n + 1))) ∧
        (t.motionOf pasid p = none → exec i s = .next (t.pageDone s.ref k (n + 1)))) ∧
      (n ≤ j → (t.perc.motions.all fun m => m.pasid != pasid || decide (m.va < a) || decide (a + n * pageBytes ≤ m.va)) = true →
        exec i s = .next (t.pageDone s.ref k (n + 1)))) ∧
    (∀ i, i = .mhot c x rb roff npg off → s.OnPage i rb roff n t k a j → t.walk pasid p = .ok w → firstUnit a j w.size = true →
      (x = 0 → exec i s = .next ((t.pageWrites s.ref k (8 * (off + j)) 8 (t.hotOf w) (t.hotOf w)).pageDone s.ref k n)) ∧
      (x = 1 → exec i s = .next ((({ t with perc := { t.perc.drain with hot := Map.set 0 t.perc.drain.hot (t.hotKeyOf w) 0 } } : State).pageWrites
        s.ref k (8 * (off + j)) 8 (t.hotOf w) (t.hotOf w)).pageDone s.ref k n))) ∧
    (∀ i g, i = .mhot c x rb roff npg off → s.OnPage i rb roff n t k a j → t.walk pasid p = .ok w → firstUnit a j w.size = false →
      (t.chain s.ref).inflight[k]? = some g →
      exec i s = .next ((t.pageWrites s.ref k (8 * (off + j)) 8 g.hot g.hot).pageDone s.ref k n)) ∧
    (∀ i, i = .mqry c rb roff npg off → s.OnPage i rb roff n t k a j →
      (t.walk pasid p = .ok w → firstUnit a j w.size = true →
        exec i s = .next ((t.pageWrites s.ref k (8 * (off + 8 * j)) 64
          (queryRecord (t.motionOf pasid (wholePage p w.size)) w (t.hotOf w)) (t.hotOf w)).pageDone s.ref k n)) ∧
      (t.walk pasid p = .error .notPresent →
        exec i s = .next ((t.pageWrites s.ref k (8 * (off + 8 * j)) 64 (4 * 2 ^ 61) 0).pageDone s.ref k n)))

/-- R281, R283: a range that does not start on 64 KiB or leaves the VA space faults at issue; a page whose walk fails, but one
that is only not present where a form skips it, stops the block there, with the pages left to do in the record (its ACC: log 44).
MIGRS stops with that, and with MIGRATION ABORT or PINNED PAGE CONFLICT where the motion it waits for has ended so or the page is pinned;
MABRT, which reads no entry, goes on. -/
def Obligations.RangeFaults : Prop :=
  ∀ (c : Ctl) (x rb roff npg off n k a j pasid p : Nat) (s t : State) (e : Cause) (w : Walk) (q : Requester),
    n = npg + 1 → p = pageVa a j → pasid = (t.task (t.taskOf s.ref)).pasid → q = t.requester s.ref k true →
    (∀ i ∈ [Instr.migr c x rb roff npg, .migrs c x rb roff npg, .mpin c rb roff npg, .munpin c rb roff npg, .madv c x rb roff npg,
            .mabrt c rb roff npg, .mhot c x rb roff npg off, .mqry c rb roff npg off], ∀ v, v = rbAddr (s.issued i) s.ref rb roff → s.Issues i →
      (v % (pageBytes : Nat) ≠ 0 → exec i s = .next (s.issueStop s.ref { cause := .misalignedWindow, fva := wrapTo 64 v })) ∧
      (v % (pageBytes : Nat) = 0 → v < 0 ∨ (vaLimit : Int) < v + (n * pageBytes : Nat) →
        exec i s = .next (s.issueStop s.ref { cause := .permission, fva := wrapTo 64 v }))) ∧
    (∀ i ∈ [Instr.migr c x rb roff npg, .mpin c rb roff npg, .munpin c rb roff npg, .madv c x rb roff npg,
            .mhot c x rb roff npg off, .mqry c rb roff npg off],
      s.OnPage i rb roff n t k a j → t.walk pasid p = .error e → (e ≠ .notPresent ∨ i = .mpin c rb roff npg) →
      exec i s = .next (t.pageStops s.ref k (pageFault e p j n))) ∧
    (∀ i, i = .migrs c x rb roff npg → s.OnPage i rb roff n t k a j →
      ((t.perc.aborts.all fun m => !(m.who.same q && holdsUnit p m.va)) = true → t.asked q (holdsUnit p) = false →
        (t.walk pasid p = .error e → exec i s = .next ((t.flushNotes q).pageStops s.ref k (pageFault e p j n))) ∧
        (t.walk pasid p = .ok w → firstUnit a j w.size = true → t.restsIn pasid p w (Tier.ofNum x) = false → bitAt w.leaf 58 = true →
          t.motionOf pasid p = none → exec i s = .next ((t.flushNotes q).pageStops s.ref k (pageFault .pinnedConflict p j n)))) ∧
      (∀ m, (t.perc.aborts.find? fun m => m.who.same q && holdsUnit p m.va) = some m →
        exec i s = .next ((({ t with perc := { t.perc with
          aborts := t.perc.aborts.filter fun y => !(y.who.same q && holdsUnit p y.va) } } : State).flushNotes q).pageStops s.ref k
            (pageFault (noteCause m.reason) p j n)))) ∧
    (∀ i, i = .mabrt c rb roff npg → s.OnPage i rb roff n t k a j → j < n → t.walk pasid p = .error e → t.motionOf pasid p = none →
      exec i s = .next (t.pageDone s.ref k (n + 1)))

/-! ### What blocks leave alone -/

/-- R88, R90, R172: a block of one iteration that issues and runs takes its waits and a slot of each ring it reads, gives these slots
back with one count each to their empty semaphores, moves the cursor on, stands in flight with its writes, leaves word of the
semaphores that have been tested in the cycle, and is remembered for nothing else: every other slot, every byte of memory, and the
rest of the module are as before. As any block issues, no register, pool, cell, region or binding changes, nor any other slot, byte of
memory or part of the system. -/
def Obligations.IssuedBlock : Prop :=
  (∀ (s : State) (i : Instr) (hd : Option Handle) (o : IterOut) (t : State) (c c1 : Ctx) (l : List RingRight),
    s.Issues i → iterationsOf i = 1 → t = s.ran i hd o → (c, l) = ((s.ctx s.ref).takeWaits (Ctl.waits (ctlOf i))).takeSlots (rqRings i) →
    c.releaseSlots l = (c1, none) →
    t.ctx s.ref = c1.setChain s.ref.eng
      { s.issuedChain i hd with
          inflight := (s.chain s.ref).inflight ++
            [{ s.newEntry i hd with writes := o.tile, homes := s.fenced s.ref o.homes, ctr := 1, phase := .done, taken := [], lastAt := s.steps }]
          guard := (s.chain s.ref).guard <|> o.guard } ∧
    (∀ n, c1.sem n = c.sem n + (l.filterMap fun x => (c.ring x.ring).map (·.esem)).count n) ∧
    t.slotAt s.ref.tile s.ref.slot =
      ({ s.slotAt s.ref.tile s.ref.slot with ctx := t.ctx s.ref } : Slot).tests s.cycle (((s.ctx s.ref).testsOf i).map (·.1)) ∧
    (o.fork = [] → t.forks = s.forks) ∧ s.KeepsOtherSlots t s.ref ∧ s.KeepsMemory t ∧ s.KeepsSystem t) ∧
  (∀ (s : State) (i : Instr) (hd : Option Handle) (t : State), t = s.startBlock s.ref i hd →
    t.ctx s.ref = s.issuedCtx i hd ∧ (t.ctx s.ref).tp = (s.ctx s.ref).tp ∧ (t.ctx s.ref).wb = (s.ctx s.ref).wb ∧
    (t.ctx s.ref).acc = (s.ctx s.ref).acc ∧ (t.ctx s.ref).vregs = (s.ctx s.ref).vregs ∧ (t.ctx s.ref).regions = (s.ctx s.ref).regions ∧
    (t.ctx s.ref).rb = (s.ctx s.ref).rb ∧ (t.ctx s.ref).budget = (s.ctx s.ref).budget ∧
    (∀ e ≠ s.ref.eng, (t.ctx s.ref).chain e = (s.ctx s.ref).chain e) ∧
    t.forks = s.forks ∧ s.KeepsOtherSlots t s.ref ∧ s.KeepsMemory t ∧ s.KeepsSystem t)

/-- R89, R26, R91, R95, R184, R188: a block without home work completes: its writes are made, but where a block that is not ordered with it has
written too either's value stays, it is in flight no longer, a patch drops the queued copies of what it has patched, its signals are
added where they fit, the watchdog counter starts anew; a store or a block that orders its chain comes before the chain's later reads
(R188), and after a FENCE the chain's writes are releases (R184); every other slot, memory and the rest of the module are as before. -/
def Obligations.CompletedBlock : Prop :=
  ∀ (s : State) (r : EngRef) (k : Nat) (f : InFlight) (c c1 : Ctx) (t : State),
    (s.chain r).inflight[k]? = some f → f.homes = [] → (s.slotAt r.tile r.slot).task ≠ none → (s.ctx r).step = false →
    c = { ((s.ctx r).mixed ((s.ctx r).applyAll f.writes) s f.beaten).setChain r.eng { s.chain r with
            inflight := ((s.chain r).inflight.eraseIdx k).map (f.overwritten (s.ctx r)), queue := keptQueue f (s.chain r).queue,
            lastBlk := f.addr, lastCtr := ctrOf f.instr (f.ctr - 1), stepBusy := (s.chain r).stepBusy && !f.stepped,
            since := if ordersCompletion f.instr then s.steps else (s.chain r).since,
            fence := match f.instr with | .fence _ sc => some (max sc ((s.chain r).fence.getD 0)) | _ => (s.chain r).fence } with wdc := 0 } →
    c.addSignals (Ctl.signals (ctlOf f.instr)) = (c1, none) → t = s.completeBlock r k →
    t.ctx r = c1 ∧
    (∀ n, c1.sem n = c.sem n + totalOf (Ctl.signals (ctlOf f.instr)) n) ∧ (∀ n, totalOf (Ctl.signals (ctlOf f.instr)) n ≠ 0 → c1.sem n ≤ 65535) ∧
    s.KeepsOtherSlots t r ∧ s.KeepsMemory t ∧ s.KeepsSystem t

/-! ### X-form instructions -/

/-- R291: the frame of the retirement step, with which every X-form that completes ends: it writes rd, unless rd is x0, and moves the
pc past the word; of itself it changes no other register, no other register of the hart, no other hart and nothing else of the
module. -/
def Obligations.Retirement : Prop :=
  ∀ (s : State) (rd v : Nat), s.harts.rising →
    (s.retireX rd v).hartAt s.hart = { s.hartAt s.hart with regs := ((s.retireX rd v).hartAt s.hart).regs, pc := ((s.hartAt s.hart).pc + 4) % 2 ^ 64 } ∧
    (((s.hartAt s.hart).regs).rising →
      ∀ n, ((s.retireX rd v).hartAt s.hart).reg n = if n ≠ 0 ∧ n = rd then v % 2 ^ 64 else (s.hartAt s.hart).reg n) ∧
    (∀ c, c ≠ s.hart → (s.retireX rd v).hartAt c = s.hartAt c) ∧
    ({ s.retireX rd v with harts := s.harts } : State) = s

/-- R50, R291: in user mode every X-form instruction takes the illegal-instruction exception, as PCLCFG does outside machine
mode and for a parameter above 5 (R280): the pc goes to mepc, 2 to mcause, the word to mtval, MIE to MPIE and the mode to MPP,
and the hart goes on in machine mode at mtvec's base; or, delegated, likewise with the supervisor's registers (the registers of
the trap are RV64's own, log 5). -/
def Obligations.UserMode : Prop :=
  ∀ (s t : State) (i : Instr) (h : Hart) (w rd rs1 rs2 : Nat), h = s.hartAt s.hart → t = s.setHart s.hart
      (if h.mode ≠ 3 ∧ bitAt h.medeleg 2 = true then
        { h with sepc := h.pc, scause := 2, stval := w, mode := 1, pc := h.stvec / 4 * 4,
                 mstatus := putField (putField (putField h.mstatus 5 1 (bits h.mstatus 1 1)) 8 1 (if h.mode = 0 then 0 else 1)) 1 1 0 }
       else
        { h with mepc := h.pc, mcause := 2, mtval := w, mode := 3, pc := h.mtvec / 4 * 4,
                 mstatus := putField (putField (putField h.mstatus 7 1 (bits h.mstatus 3 1)) 11 2 h.mode) 3 1 0 }) → h.mode < 4 →
    (encodeX i = some w → h.mode = 0 → exec i s = .next t) ∧
    (i = .pclcfg rd rs1 rs2 → encodeX i = some w → h.mode ≠ 3 ∨ 5 < s.xreg rs1 → exec i s = .next t) ∧
    exec (.illegalInstruction w) s = .next t

/-- R291, R292: what a task reference, a selector, a job reference, an entry's id and a point selector name, and the status of one
that names nothing: 0x10 where a field that must be zero is not, 0x06 for an invalid PASID. -/
def Obligations.References : Prop :=
  ∀ (s : State) (x v w lo : Nat),
    (s.taskRef x w = if bits x 52 12 ≠ 0 ∨ 2 ^ w ≤ bits x 0 32 then .error 0x10 else
      if (s.pasid (bits x 32 20)).valid = true then .ok (bits x 32 20) else .error 0x06) ∧
    (lo ≤ 8 → selector x lo = if bits x 19 13 ≠ 0 ∨ bits x 52 12 ≠ 0 ∨ 2 ^ lo ≤ bits x 0 8 then .error 0x10 else
      .ok { sem := bits x 0 8, slot := bits x 8 2, tile := bits x 10 9, pasid := bits x 32 20 }) ∧
    (s.jobRef x = if bits x 0 32 ≠ 0 ∨ bits x 52 12 ≠ 0 then .error 0x10 else
      if (s.pasid (bits x 32 20)).valid = true then .ok (bits x 32 20) else .error 0x06) ∧
    (∀ g i, i = x % 2 ^ 16 → s.entryRef x g = if 2 ^ 32 ≤ x then .error 0x10 else
      if i ≠ 0 ∧ (s.launch i).live = true ∧ (s.launch i).gen = x / 2 ^ 16 ∧ (s.launch i).isGraph = g then .ok i else .error 0x01) ∧
    (s.pointRef x v = if bits x 11 21 ≠ 0 ∨ bits x 52 12 ≠ 0 ∨ 2 ^ 16 ≤ v then .error 0x10 else
      if (s.pasid (bits x 32 20)).valid = true then .ok (64 * bits x 6 5 + bits x 0 6, bits x 32 20) else .error 0x06)

/-- R318, R316, R333: TKPOST posts a record and gives its status; TKCNCL cancels a live task, whose launch fails, but not in the cycle
of its TKRSM (log 49); TKSTAT reads a state; TKRSM resumes a parked task; TKPARK parks and CTXSV saves, each staying at its word while
a block is never stopped within, and CTXSV answers 0 whatever the save meets in the frame (log 18); CTXRS puts a task into a slot. A
reference to no live task gives 0x01, a task in another state 0x02, an occupied slot 0x0F, a cluster outside AFF 0x07. -/
def Obligations.TaskXForms : Prop :=
  ∀ (s : State) (rd rs1 rs2 p n tile slot : Nat), s.Priv →
    (s.taskRef (s.xreg rs2) 0 = .ok p →
      exec (.tkpost rd rs1 rs2) s = .next ((s.post (some s.hart) p (s.xreg rs1) true false).1.retireX rd
        (if (s.post (some s.hart) p (s.xreg rs1) true false).2 = 0 then 0 else 2 ^ 63 + (s.post (some s.hart) p (s.xreg rs1) true false).2)) ∧
      (s.liveTask p (s.xreg rs1) = some n →
        ((s.task n).resumed ≠ s.cycle + 1 →
          exec (.tkcncl rd rs1 rs2) s = .next (((s.cancelTask n).launchFail (s.task n).launchId 0x2C4).retireX rd 0)) ∧
        ((s.task n).resumed = s.cycle + 1 → exec (.tkcncl rd rs1 rs2) s = .next (s.retireX rd (2 ^ 63 + 0x02))) ∧
        exec (.tkstat rd rs1 rs2) s = .next (s.retireX rd (s.stateWord n)) ∧
        (s.slotOf n = none → (s.task n).state = .ready ∨ (s.task n).state = .saved →
          exec (.tkpark rd rs1 rs2) s = .next ((s.setTaskState n .parked).retireX rd 0)) ∧
        (s.slotOf n = some (tile, slot) → s.movable n tile slot = true →
          (s.wouldHold (dieOf tile) = false → (s.slotAt tile slot).inPlace = false → s.saveWaits tile slot = false →
            exec (.tkpark rd rs1 rs2) s = .next (((s.schedulerFault tile slot .parkedBySupervisor 0 0).saveTask tile slot .parked).retireX rd 0)) ∧
          (s.wouldHold (dieOf tile) = false → s.saveWaits tile slot = true → exec (.tkpark rd rs1 rs2) s = .next s) ∧
          ((s.slotAt tile slot).parking = false → s.saveWaits tile slot = false →
            exec (.ctxsv rd rs1 rs2) s = .next ((s.saveTask tile slot .saved).retireX rd 0)) ∧
          ((s.slotAt tile slot).parking = false → s.saveWaits tile slot = true → exec (.ctxsv rd rs1 rs2) s = .next s)) ∧
        (s.slotOf n = none → (s.task n).state ≠ .ready → (s.task n).state ≠ .saved →
          exec (.tkpark rd rs1 rs2) s = .next (s.retireX rd (2 ^ 63 + 0x02)) ∧ exec (.ctxsv rd rs1 rs2) s = .next (s.retireX rd (2 ^ 63 + 0x02)))) ∧
      (s.liveTask p (s.xreg rs1) = none →
        exec (.tkstat rd rs1 rs2) s = .next (s.retireX rd 0xF) ∧ exec (.ctxsv rd rs1 rs2) s = .next (s.retireX rd (2 ^ 63 + 0x01)))) ∧
    (s.findTask (s.xreg rs1) (s.xreg rs2) 1 = .ok n →
      ((s.task n).state = .parked → s.slotOf n = none →
        exec (.tkrsm rd rs1 rs2) s = .next ((s.resumeTask n (bitAt (s.xreg rs2) 0)).retireX rd 0)) ∧
      ((s.task n).state ≠ .parked → exec (.tkrsm rd rs1 rs2) s = .next (s.retireX rd (2 ^ 63 + 0x02)))) ∧
    (s.findTask (s.xreg rs1) (s.xreg rs2) 11 = .ok n → tile = bits (s.xreg rs2) 0 9 → slot = bits (s.xreg rs2) 9 2 →
      (s.task n).state.waits = true → (s.pasid (s.task n).pasid).runs = true →
      ((s.slotAt tile slot).task = none → (s.task n).allows (clusterOf tile) = true → tile ∉ s.mgmt.tilesOut →
        exec (.ctxrs rd rs1 rs2) s = .next ((s.placeTask n tile slot).retireX rd 0)) ∧
      ((s.slotAt tile slot).task ≠ none → exec (.ctxrs rd rs1 rs2) s = .next (s.retireX rd (2 ^ 63 + 0x0F))) ∧
      ((s.slotAt tile slot).task = none → (s.task n).allows (clusterOf tile) = false →
        exec (.ctxrs rd rs1 rs2) s = .next (s.retireX rd (2 ^ 63 + 0x07))))

/-- R300, R303, R319: LNNEW creates a launch from its descriptor; LNCNT and GRCNT read a counter with its flags, JBCNT counts live
tasks; LNCNCL, GRCNCL and JBCNCL cancel. That an entry which is done gives 0x02 is the model's reading (log 17). -/
def Obligations.LaunchXForms : Prop :=
  ∀ (s : State) (rd rs1 a p i g id : Nat) (t : State) (d : Nat → Nat), s.Priv → a = s.xreg rs1 →
    ((∀ k < 4, d k = Memory.nat s.supmem (a + 8 * k) 8) → a % 32 = 0 → bits (d 0) 57 7 = 0 → d 0 % 8 = 0 → bits (d 1) 52 12 = 0 →
      bits (d 1) 0 32 ≠ 0 → bits (d 2) 32 32 = 0 → p = bits (d 1) 32 20 → (s.pasid p).valid = true → (s.hartAt s.hart).reaches a = true →
      s.newLaunch 0 { pasid := p, count := bits (d 1) 0 32, cobj := d 0, val := d 3, graph := d 2 } = some (t, id) →
      (d 2 = 0 → exec (.lnnew rd rs1) s = .next (t.retireX rd id)) ∧
      (s.entryOf (d 2) true = some g → (s.launch g).done = false → (s.launch g).pasid = p →
        exec (.lnnew rd rs1) s = .next ((t.setLaunch g { t.launch g with count := (t.launch g).count + 1 }).retireX rd id))) ∧
    (a % 32 = 0 → (s.hartAt s.hart).reaches a = false → exec (.lnnew rd rs1) s = .next (s.retireX rd (2 ^ 63 + 0x05))) ∧
    (s.entryRef a false = .ok i →
      exec (.lncnt rd rs1) s = .next (s.retireX rd ((s.launch i).count % 2 ^ 32 + 2 ^ 32 * ofBool (s.launch i).failed + 2 ^ 33 * ofBool (s.launch i).done)) ∧
      ((s.launch i).done = false → exec (.lncncl rd rs1) s = .next ((s.cancelLaunchTasks i).retireX rd 0)) ∧
      ((s.launch i).done = true → exec (.lncncl rd rs1) s = .next (s.retireX rd (2 ^ 63 + 0x02)))) ∧
    (s.entryRef a true = .ok g →
      exec (.grcnt rd rs1) s = .next (s.retireX rd ((s.launch g).count % 2 ^ 32 + 2 ^ 32 * ofBool (s.launch g).failed + 2 ^ 33 * ofBool (s.launch g).done)) ∧
      ((s.launch g).done = false → exec (.grcncl rd rs1) s = .next ((s.cancelGraph g).retireX rd 0)) ∧
      ((s.launch g).done = true → exec (.grcncl rd rs1) s = .next (s.retireX rd (2 ^ 63 + 0x02)))) ∧
    (s.jobRef a = .ok p →
      exec (.jbcnt rd rs1) s = .next (s.retireX rd (s.tasks.countP fun x => x.2.pasid == p && x.2.state.live)) ∧
      exec (.jbcncl rd rs1) s = .next ((s.cancelJob p).retireX rd 0)) ∧
    (∀ j ∈ [Instr.lncnt rd rs1, .lncncl rd rs1, .grcnt rd rs1, .grcncl rd rs1], 2 ^ 32 ≤ a → exec j s = .next (s.retireX rd (2 ^ 63 + 0x10)))

/-- R320, R179, R183: SEMRD, SEMWR and SEMSIG read, set and add to a count of the slot or of the task saved from it; BARINI gives
a point to a PASID or frees it, BARARV arrives at one, BARWT ends when the phase has passed, and till then stays at its word. A
SEMSIG stays at its word too where its semaphore has been tested in this cycle: its addition is of a later one (R167, log 1). -/
def Obligations.SyncXForms : Prop :=
  ∀ (s : State) (rd rs1 rs2 v k p : Nat) (x : Selector) (c : Ctx) (t : State), s.Priv →
    (s.semRef (s.xreg rs1) 0 = .ok x → s.semRead x = .ok (v, c) → exec (.semrd rd rs1) s = .next (s.retireX rd v)) ∧
    (s.semRef (s.xreg rs1) (s.xreg rs2) = .ok x → s.semRead x = .ok (v, c) →
      (c.ringSem x.sem = false → exec (.semwr rd rs1 rs2) s = .next ((s.semSet x (s.xreg rs2)).retireX rd v)) ∧
      (c.ringSem x.sem = true → exec (.semwr rd rs1 rs2) s = .next (s.retireX rd (2 ^ 63 + 0x0D))) ∧
      (s.testsDone x.tile x.slot [x.sem] = false → s.signalSlot x.pasid x.tile x.slot x.sem (s.xreg rs2) = some (.ok t) →
        exec (.semsig rd rs1 rs2) s = .next (t.retireX rd v)) ∧
      (s.testsDone x.tile x.slot [x.sem] = false → s.signalSlot x.pasid x.tile x.slot x.sem (s.xreg rs2) = some (.error .semOverflow) →
        exec (.semsig rd rs1 rs2) s = .next (s.retireX rd (2 ^ 63 + 0x0C))) ∧
      (s.testsDone x.tile x.slot [x.sem] = true → exec (.semsig rd rs1 rs2) s = .next s)) ∧
    (s.semRef (s.xreg rs1) (s.xreg rs2) = .ok x → s.semRead x = .error 0x0E →
      exec (.semwr rd rs1 rs2) s = .next (s.retireX rd (2 ^ 63 + 0x0E)) ∧
      (s.testsDone x.tile x.slot [x.sem] = false → exec (.semsig rd rs1 rs2) s = .next (s.retireX rd (2 ^ 63 + 0x0E)))) ∧
    (s.pointRef (s.xreg rs1) (s.xreg rs2) = .ok (k, p) →
      exec (.barini rd rs1 rs2) s = .next ((s.setPoint k (if s.xreg rs2 = 0 then {} else { owner := some p, exp := s.xreg rs2 })).retireX rd 0) ∧
      ((s.point k).owner = some p →
        (phasePassed (s.point k).phase (s.xreg rs2) = true → exec (.barwt rd rs1 rs2) s = .next (s.retireX rd (s.point k).phase)) ∧
        (phasePassed (s.point k).phase (s.xreg rs2) = false → exec (.barwt rd rs1 rs2) s = .next s)) ∧
      ((s.point k).owner ≠ some p → exec (.barwt rd rs1 rs2) s = .next (s.retireX rd (2 ^ 63 + 0x01)))) ∧
    (s.pointRef (s.xreg rs1) 0 = .ok (k, p) →
      ((s.point k).owner = some p → exec (.bararv rd rs1) s = .next ((s.setPoint k
        (if (s.point k).arr + 1 = (s.point k).exp then { s.point k with arr := 0, phase := ((s.point k).phase + 1) % 65536 }
         else { s.point k with arr := (s.point k).arr + 1 })).retireX rd (s.point k).phase)) ∧
      ((s.point k).owner ≠ some p → exec (.bararv rd rs1) s = .next (s.retireX rd (2 ^ 63 + 0x01))))

/-- R321, R322: FQPOP
copies the oldest record of the cluster's queue to supervisor memory and frees its place, FBRD reads an item of a die's buffer, STOPRD
copies a stop record; TLBINV and HINV discard what TLBs and handle caches hold. An address
that is no supervisor memory takes the hart's store fault (log 5); TLBINV with ALL takes any rs1 (log 18). -/
def Obligations.FaultXForms : Prop :=
  ∀ (s : State) (rd rs1 rs2 a b p d k : Nat) (l : List (Nat × Nat)) (x : Selector) (f : StopRec), s.Priv → a = s.xreg rs1 → b = s.xreg rs2 →
    (a % 64 = 0 → Map.get [] s.faultQueues s.hart = (d, k) :: l → (s.hartAt s.hart).reaches a = false →
      exec (.fqpop rd rs1) s = .next (s.setHart s.hart ((s.hartAt s.hart).trapStore a))) ∧
    (a % 64 = 0 → Map.get [] s.faultQueues s.hart = (d, k) :: l → (s.hartAt s.hart).reaches a = true →
      exec (.fqpop rd rs1) s = .next ((({ s.supWrite a (Map.get {} (s.die d).recs k).dws with
        faultQueues := Map.set [] s.faultQueues s.hart l } : State).freePlace d k).retireX rd l.length)) ∧
    (a % 64 = 0 → Map.get [] s.faultQueues s.hart = [] → exec (.fqpop rd rs1) s = .next (s.retireX rd (2 ^ 63 + 0x11))) ∧
    (a % 64 ≠ 0 → exec (.fqpop rd rs1) s = .next (s.retireX rd (2 ^ 63 + 0x10))) ∧
    (bits a 2 2 = 0 → a < 64 → exec (.fbrd rd rs1) s = .next (s.retireX rd (match bits a 4 2 with
      | 0 => (s.die (bits a 0 2)).head % 2 ^ 64
      | 1 => (s.die (bits a 0 2)).tail % 2 ^ 64
      | 2 => (s.die (bits a 0 2)).held.length % 2 ^ 32 + 2 ^ 32 * ofBool !(s.die (bits a 0 2)).held.isEmpty
      | _ => (s.die (bits a 0 2)).base % 2 ^ 57))) ∧
    (selector a 2 = .ok x → b % 64 = 0 →
      (((s.slotAt x.tile x.slot).lane ((Engine.all[x.sem]?).getD .lde)).stop = some f → f.pasid = x.pasid →
        ((s.hartAt s.hart).reaches b = true → exec (.stoprd rd rs1 rs2) s = .next ((s.supWrite b f.dws).retireX rd 0)) ∧
        ((s.hartAt s.hart).reaches b = false → exec (.stoprd rd rs1 rs2) s = .next (s.setHart s.hart ((s.hartAt s.hart).trapStore b)))) ∧
      (((s.slotAt x.tile x.slot).lane ((Engine.all[x.sem]?).getD .lde)).stop = none →
        exec (.stoprd rd rs1 rs2) s = .next (s.retireX rd (2 ^ 63 + 0x11)))) ∧
    (s.taskRef b 1 = .ok p → bitAt b 0 = true ∨ a % 65536 = 0 →
      exec (.tlbinv rd rs1 rs2) s = .next ((s.shoot (List.filter fun e =>
        if bitAt b 0 then e.pasid != p else !(e.pasid == p && e.va == a / 2 ^ e.size * 2 ^ e.size))).retireX rd 0)) ∧
    (s.taskRef b 0 = .ok p → a < 2 ^ 17 →
      exec (.hinv rd rs1 rs2) s = .next ((s.handleInvalidate p (a % 2 ^ 16) (bitAt a 16)).retireX rd 0))

/-- R323, R337, R342, R355: STEPCTL sets single-step and
releases stopped engines; WDSET sets a slot's watchdog limit and gives the old one; BUDSET a task's budget; CAPRD reads the capability
space, CYCRD the cycle stamp; THYRD copies a Thyme event. THYRD's
store fault is log 5; that a PASID in WDSET's selector gives 0x10 is log 18. -/
def Obligations.ControlXForms : Prop :=
  ∀ (s : State) (rd rs1 rs2 a b n : Nat) (x : Selector) (e : ThymeEvent), s.Priv → a = s.xreg rs1 → b = s.xreg rs2 →
    (s.findTask a b 1 = .ok n → exec (.stepctl rd rs1 rs2) s = .next ((((s.updTaskCtx n fun c => c.stepctl (bitAt b 0) (s.ownStop n)).updTask n
      fun t => { t with stepped := bitAt b 0 })).retireX rd (ofBool (s.isStepped n)))) ∧
    (selector a 0 = .ok x → (x.pasid ≠ 0 → exec (.wdset rd rs1 rs2) s = .next (s.retireX rd (2 ^ 63 + 0x10))) ∧
      (b < 2 ^ 32 → x.pasid = 0 → exec (.wdset rd rs1 rs2) s = .next ((s.setSlot x.tile x.slot
        { s.slotAt x.tile x.slot with wdLimit := if b = 0 then 2 ^ 32 else b }).retireX rd ((s.slotAt x.tile x.slot).wdLimit % 2 ^ 32))) ∧
      (2 ^ 32 ≤ b → exec (.wdset rd rs1 rs2) s = .next (s.retireX rd (2 ^ 63 + 0x10)))) ∧
    (s.findTask a b 32 = .ok n → exec (.budset rd rs1 rs2) s = .next ((s.setBudget n (b % 2 ^ 32)).retireX rd
      (match s.budgetOf n with | none => 2 ^ 63 - 1 | some v => v.toNat))) ∧
    (a % 8 = 0 → exec (.caprd rd rs1) s = .next (s.retireX rd (s.capWord a))) ∧
    (a % 8 ≠ 0 → exec (.caprd rd rs1) s = .next (s.retireX rd (2 ^ 63 + 0x10))) ∧
    exec (.cycrd rd) s = .next (s.retireX rd s.cycle) ∧
    (a < 4096 → b % 32 = 0 →
      (s.thyme[a]? = some e → ((s.hartAt s.hart).reaches b = true → exec (.thyrd rd rs1 rs2) s = .next ((s.supWrite b e.dws).retireX rd 0)) ∧
        ((s.hartAt s.hart).reaches b = false → exec (.thyrd rd rs1 rs2) s = .next (s.setHart s.hart ((s.hartAt s.hart).trapStore b)))) ∧
      (s.thyme[a]? = none → exec (.thyrd rd rs1 rs2) s = .next (s.retireX rd (2 ^ 63 + 0x11))))

/-- R280: PCLCFG gives the old value of a parameter and, unless rs2 is x0, writes one in its range; outside machine mode and above
parameter 5 it takes the illegal-instruction exception. The parameters after reset; a period begins with the DECAY of the time. What
has been written to PROMO, DEMO, LOWMARK and AUTO comes into force at the next eligible access or as a period ends. PROMO
and DEMO 0 are in range, and LOWMARK counts GiB, as log 40 reads the rule. -/
def Obligations.PercolatorParameters : Prop :=
  (∀ (s : State) (rd rs1 rs2 k v : Nat) (p : Percolator), k = s.xreg rs1 → v = s.xreg rs2 → p = s.perc →
    ((s.hartAt s.hart).mode = 3 → k ≤ 5 →
      exec (.pclcfg rd rs1 rs2) s = .next (({ s with perc :=
        if rs2 = 0 then p else match k with
          | 0 => { p with promo := if v ≤ 255 then v else p.promo }
          | 1 => { p with demo := if v ≤ 255 then v else p.demo }
          | 2 => { p with decay := if 1 ≤ v ∧ v ≤ 2 ^ 32 - 1 then v else p.decay }
          | 3 => { p with sample := if v ≤ 15 then v else p.sample }
          | 4 => { p with lowmark := if v ≤ 768 then v else p.lowmark }
          | _ => { p with auto := if v ≤ 1 then v else p.auto } } : State).retireX rd
        ([p.promo, p.demo, p.decay, p.sample, p.lowmark, p.auto].getD k 0))) ∧
    ((s.hartAt s.hart).mode ≠ 3 ∨ 5 < k → exec (.pclcfg rd rs1 rs2) s = .next (s.trapX ((encodeX (.pclcfg rd rs1 rs2)).getD 0)))) ∧
  [State.reset.perc.promo, State.reset.perc.demo, State.reset.perc.decay, State.reset.perc.sample, State.reset.perc.lowmark,
    State.reset.perc.auto] = [192, 8, 15259, 4, 16, 1] ∧
  (∀ (s : State) (y : Policy), y = { promo := s.perc.promo, demo := s.perc.demo, lowmark := s.perc.lowmark, auto := s.perc.auto } →
    (s.cycle = s.perc.decayEnd → ∃ t, exec .hotnessDecay s = .next t ∧
      t.perc.decayEnd = (s.perc.decayEnd + s.perc.decay * 65536) % 2 ^ 64 ∧ t.perc.policy = y) ∧
    (∀ m a size, (s.sampleAccess (.tier m) a size).perc.policy = y) ∧
    (∀ rd rs1 rs2 t, exec (.pclcfg rd rs1 rs2) s = .next t → t.perc.policy = s.perc.policy))

/-! ### Events of chains and their work -/

/-- R87, R94, R17, R20, R21, R307: BLOCK_FETCH appends the block at the fetch address to the queue, one sector or, for an L-form
block, four; ENCODING_FAULT raises what the head block breaks, or what its fetch met, a cause that halts after the blocks issued
before it (the R20 row of log 41; ACC of its record: log 44); SLOT_AGED marks a slot that has waited 65,536 cycles. -/
def Obligations.FetchEvents : Prop :=
  (∀ (s : State) (r : EngRef) (a : Nat) (p q : Phys), r.ok = true → (s.slotAt r.tile r.slot).live = true →
    ((s.chain r).fetchAt r.eng = some a → s.translate r.tile (s.task (s.taskOf r)).pasid a .fetch = .ok p → p.place ≠ .launchPage →
      s.poisoned p.place p.addr = false →
      (szOf (s.readBits p.place (p.addr * 8) 64) = 0 → exec (.blockFetch r) s = .next (s.updChain r fun h =>
        { h with queue := h.queue ++ [{ addr := a, words := (upto 4).map fun k => s.readBits p.place (p.addr * 8 + 64 * k) 64 }] })) ∧
      (szOf (s.readBits p.place (p.addr * 8) 64) = 1 →
        (∀ k < 4, s.translate r.tile (s.task (s.taskOf r)).pasid (a + 32 * k) .fetch = .ok { q with addr := q.addr + 32 * k }) →
        q.place ≠ .launchPage → (∀ k < 4, s.poisoned q.place (q.addr + 32 * k) = false) →
        exec (.blockFetch r) s = .next (s.updChain r fun h =>
          { h with queue := h.queue ++ [{ addr := a, words := (upto 16).map fun k => s.readBits q.place (q.addr * 8 + 64 * k) 64 }] }))) ∧
    ((s.chain r).fetchAt r.eng = some a → ∀ c, s.translate r.tile (s.task (s.taskOf r)).pasid a .fetch = .error c →
      exec (.blockFetch r) s = .next (s.updChain r fun h => { h with queue := h.queue ++ [{ addr := a, words := [], fault := some { cause := c, va := a, acc := AccessKind.fetch.walkAcc c } }] })) ∧
    (8 ≤ (s.chain r).queue.length ∨ (s.chain r).retired = true → exec (.blockFetch r) s = .next s)) ∧
  (∀ (s : State) (r : EngRef) (q : Queued) (rest : List Queued) (c : Cause), r.ok = true →
    ((s.chain r).queue = q :: rest → q.addr = (s.chain r).cursor → s.runnable r = true → (s.chain r).refusal = none →
      (q.fault = none → decode r.eng q.addr q.words = .error c →
        (c.disp = .park ∨ (s.chain r).inflight = [] → exec (.encodingFault r) s = .next (s.issueStop r { cause := c })) ∧
        (c.disp ≠ .park → (s.chain r).inflight ≠ [] → exec (.encodingFault r) s = .next s)) ∧
      (∀ f, q.fault = some f → f.cause.disp = .park ∨ (s.chain r).inflight = [] →
        exec (.encodingFault r) s = .next (s.issueStop r { cause := f.cause, fva := f.va, acc := f.acc })) ∧
      (∀ i, q.fault = none → decode r.eng q.addr q.words = .ok i → exec (.encodingFault r) s = .next s)) ∧
    (∀ l, l = (s.slotAt r.tile r.slot).lane r.eng →
      (65536 ≤ l.wait → l.aged = none → exec (.slotAged r) s = .next (s.updSlot r.tile r.slot fun x => x.setLane r.eng { l with aged := some s.cycle })) ∧
      (l.wait < 65536 → exec (.slotAged r) s = .next s)))

/-- R89, R163, R167, R184, R241, R285, R148, R111, R155, R346: BLOCK_COMPLETE completes a block that is done, unless it is behind
another or its signals come after the cycle's tests, or a FENCE or PUBC whose writes are visible, a SUBC whose subscription has ended
and an FLTI whose record is written, and lets a waiting block of class 9 look again. In a turn that makes no part of a block's home
work. FORK_JOIN performs a fork's last access at its home and the fork joins, but not before an earlier fork's access to its unit; a
pool access whose PASID no longer owns the granule faults; accesses to launch pages reach the front end. -/
def Obligations.CompletionEvents : Prop :=
  (∀ (s : State) (r : EngRef) (k : Nat) (f : InFlight), r.ok = true → (s.chain r).inflight[k]? = some f → (s.chain r).stop ≠ .halted →
    (f.phase = .done →
      (s.completionWaits r k f = false → s.signalsLate r f.instr = false → s.env = {} →
        exec (.blockComplete r k) s = .next (s.completeBlock r k)) ∧
      (s.completionWaits r k f = true ∨ s.signalsLate r f.instr = true → s.env = {} → exec (.blockComplete r k) s = .next s)) ∧
    (f.phase = .waiting → s.signalsLate r f.instr = false →
      (∀ c sc, f.instr = .fence c sc → s.memForks r = false → (r.eng = .ste → ∀ g ∈ (s.ctx r).ringList, g.2.pull = none) →
        exec (.blockComplete r k) s = .next (s.completeBlock r k)) ∧
      (∀ b, f.instr = .pubc b → s.pullOver r b.a.base = true → exec (.blockComplete r k) s = .next (s.completeBlock r k)) ∧
      (∀ c sc, f.instr = .fence c sc → s.memForks r = true → exec (.blockComplete r k) s = .next s) ∧
      (∀ b, f.instr = .pubc b → s.pullOver r b.a.base = false → exec (.blockComplete r k) s = .next s) ∧
      (∀ b g, f.instr = .subc b → (s.ctx r).ring b.d.base = some g →
        (g.sub = none → exec (.blockComplete r k) s = .next (s.completeBlock r k)) ∧ (g.sub ≠ none → exec (.blockComplete r k) s = .next s)) ∧
      (∀ c n v, f.instr = .flti c n v → (s.holdsNote r = false → exec (.blockComplete r k) s = .next (s.completeBlock r k)) ∧
        (s.holdsNote r = true → exec (.blockComplete r k) s = .next s)) ∧
      (∀ c t rb ro n, f.instr = .migrs c t rb ro n ∨ f.instr = .migr c t rb ro n ∨ f.instr = .mpin c rb ro n ∨ f.instr = .mabrt c rb ro n →
        exec (.blockComplete r k) s = .next (s.updEntry r k fun f => { f with phase := .run }))) ∧
    (f.phase = .run ∨ f.phase = .ring ∨ f.phase = .parked → s.env = {} → exec (.blockComplete r k) s = .next s)) ∧
  (∀ (s t : State) (k : Nat) (f : Fork) (a : Access) (l : List Access), s.forks[k]? = some f → a ∈ l → f.kind = .mem l [] → s.env = {} →
    t = ({ s with forks := s.forks.eraseIdx k } : State).freeAccesses f.ref.tile l.length →
    (l = [a] → s.behind k a = false → a.place ≠ .launchPage → a.place ≠ .peer →
      (∀ u ws, ((a.place ≠ .clusterPool ∧ a.place ≠ .diePool) ∨ s.granuleOwner a.place (a.unit * 8) = f.pasid) →
        t.performAccess a = (u, ws, none) → exec (.forkJoin k) s = .next u) ∧
      (a.place = .clusterPool ∨ a.place = .diePool → s.granuleOwner a.place (a.unit * 8) ≠ f.pasid →
        exec (.forkJoin k) s = .next (t.forkFault f
          { cause := if a.rm then .remoteWindow else .permission, acc := a.acc, ctr := a.ctr, fva := a.va }))) ∧
    (l = [a] → s.behind k a = true → ∃ u, exec (.forkJoin k) s = .next u ∧ u.forks = s.forks ∧ s.KeepsMemory u) ∧
    ((∀ x ∈ l, x.place = .launchPage ∧ s.behind k x = false) → exec (.forkJoin k) s = .next (t.deliverLines l)))

/-- R107, R170, R172, R173: SPAWN_ACCEPT posts a spawned record, which adds to its launch, or holds the refusal for the chain;
SPAWN_REFUSAL_RAISE raises it as the next block reaches issue; GUARD_FAULT_RAISE raises a recorded guard fault, imprecise, before a
block that waits; RING_SLOT_TAKE gives a waiting block a slot of each of its rings, where the engines before its own leave the counts
(R167), and which join its footprint in check mode (R93); RING_END_SKIP ends a block that reads an ended ring, or skips one that needs its count. A refusal and a guard fault are raised as
soon as a block is at the head, whatever else it waits for: the R107 and R170 rows of log 41. -/
def Obligations.ChainEvents : Prop :=
  (∀ (s t : State) (k va st n : Nat) (inh : Bool) (f : Fork) (r : EngRef) (v : SpawnRefusal),
    (s.forks[k]? = some f → f.kind = .spawn va inh →
      ({ s with forks := s.forks.eraseIdx k } : State).post (some (clusterOf f.ref.tile)) f.pasid va (s.task f.task).priv (inh && s.isStepped f.task) = (t, st) →
      (st = 0 → t.liveTask f.pasid va = some n → exec (.spawnAccept k) s = .next (t.launchUp (t.task n).launchId)) ∧
      (st ≠ 0 → ∀ c, s.ctxOf f.task = some c → (c.chain f.ref.eng).refusal = none →
        exec (.spawnAccept k) s = .next (t.updTaskCtx f.task fun c =>
          c.setChain f.ref.eng { c.chain f.ref.eng with refusal := some { status := st, block := f.block, recVa := va } }))) ∧
    (r.ok = true → (s.chain r).refusal = some v → s.runnable r = true → (s.chain r).head.isSome = true →
      exec (.spawnRefusalRaise r) s = .next ((s.updChain r fun h => { h with refusal := some { v with raised := true } }).takeFault r v.block
        { cause := .spawnRefused, remain := v.status, fva := v.recVa } .park))) ∧
  (∀ (s : State) (r : EngRef) (i : Instr) (q : Queued) (rest : List Queued) (g : Guard) (k : Nat) (f : InFlight),
    r.ok = true → s.runnable r = true →
    ((s.chain r).queue = q :: rest → q.addr = (s.chain r).cursor → q.fault = none → decode r.eng q.addr q.words = .ok i →
      ((s.chain r).guard = some g → (s.chain r).guardDue i = true → exec (.guardFaultRaise r) s = .next (s.takeFault r g.block
        { cause := .guard, fva := g.off, remain := g.rest, bank := g.bank, ctr := g.ctr } .halt false)) ∧
      ((s.chain r).inflight.all (fun f => f.phase != .ring) = true → s.reachesIssue r i = true → (s.ctx r).skips i = true →
        exec (.ringEndSkip r) s = .next (s.updChain r fun h =>
          { h with cursor := nextAddr h.cursor i, queue := rest, endFlag := true, passBrk := false, report := none }))) ∧
    ((s.chain r).inflight[k]? = some f → (∀ j < k, ∀ x, (s.chain r).inflight[j]? = some x → x.phase ≠ .ring) → f.phase = .ring →
      (∀ l c1 taken, (∀ n ∈ rqRings f.instr, ∃ x, (s.ctx r).ring n = some x ∧ 1 ≤ (s.ctx r).sem x.fsem) →
        l = (s.ctx r).fullCounts (rqRings f.instr) → (s.ctx r).takeSlots (rqRings f.instr) = (c1, taken) →
        ((s.ctx r).satisfies (s.takenBefore r) l l = true →
          exec (.ringSlotTake r) s = .next (((s.updSlot r.tile r.slot fun x => ({ x with ctx := c1 } : Slot).tests s.cycle (l.map (·.1))).updChain r
            fun h => { h.feetWith f.serial (taken.flatMap fun x => (s.ctx r).slotFoot x.ring x.slot) with since := s.steps }).updEntry r k
              fun f => { f with taken := taken, phase := .run, since := s.steps })) ∧
        ((s.ctx r).satisfies (s.takenBefore r) l l = false → exec (.ringSlotTake r) s = .next s)) ∧
      ((∃ n ∈ rqRings f.instr, ∃ x, (s.ctx r).ring n = some x ∧ x.prod ≤ x.tokens ∧ (s.ctx r).sem x.fsem = 0) →
        s.signalsLate r f.instr = false → s.completionWaits r k f = false →
        exec (.ringEndSkip r) s = .next ((s.updChain r fun h => { h with endFlag := true }).completeBlock r k))))

/-- R136, R138, R161, R162, R173, R118, R121: SUB_TILE_DELIVERY writes one tile into the next empty slot of a ring and signals it
full, ending with its last; PUB_SLOT_DRAIN hands the next full slot to the homes of its tile and signals it empty, ending with its
ring too; a stream that faults is held and stops no engine; each tests the semaphore it takes from. PAGE_WALK keeps a leaf in the
tile's TLB, and nothing where the walk fails; ACCESS_ENTRY_FREED lets the oldest waiting access of a tile go out while fewer than
2,048 are under way. -/
def Obligations.CarafeEvents : Prop :=
  (∀ (s t : State) (tile slot n k : Nat) (r : EngRef) (g : Ring) (reg : Region) (x x1 : Stream) (c1 : Ctx) (vals : List Nat) (hot : Hot) (l : List Access),
    unitsOk tile slot = true → s.env = {} → (s.tile tile).whole = true → (s.ctx r).ring n = some g → (s.ctx r).region g.reg = some reg →
    (r = engRef tile slot .lde → s.streamRuns r .read x.body.a g.fsem x = true → t = s.streamTook r x g.esem c1 →
      g.sub = some x → (s.ctx r).takeEmpty n g x = some (c1, x1, k) →
      (streamTile t r x1 x.body.a = .ok (vals, hot) → exec (.subTileDelivery tile slot n) s =
        .next ((t.sampleAll hot).delivered r n x1 (slotWrites g reg k (memWidth x.handle.fmt) vals))) ∧
      (∀ e, streamTile t r x1 x.body.a = .error e → exec (.subTileDelivery tile slot n) s =
        .next ((t.updRing r n fun g => { g with sub := some { x1 with state := .held } }).streamFault r x1 e))) ∧
    (r = engRef tile slot .lde → g.sub = some x → x.took = none → (s.ctx r).sem g.esem = 0 → exec (.subTileDelivery tile slot n) s = .next s) ∧
    (r = engRef tile slot .ste → s.streamRuns r .write x.body.d g.esem x = true → t = s.streamTook r x g.fsem c1 → g.pull = some x →
      (x.took = none → (s.ctx r).ringEnded g = true →
        exec (.pubSlotDrain tile slot n) s = .next (s.updRing r n fun g => { g with pull := none })) ∧
      (x.took ≠ none ∨ (s.ctx r).ringEnded g = false → (s.ctx r).takeFull n g x = some (c1, x1, k) →
        ∀ vs, vs = (upto (tileCount x.body.d)).map (fun j =>
          c1.mediumBits reg.space (slotBit g reg k + j * memWidth x.handle.fmt) (memWidth x.handle.fmt)) →
        (drainWrites t r x1 vs = .ok l → ∀ c2, ((t.addFork r x.block s.steps l (some n)).ctx r).addSem g.esem 1 = some c2 →
          exec (.pubSlotDrain tile slot n) s = .next (((t.addFork r x.block s.steps l (some n)).setCtx r c2).updRing r n fun g =>
            { g with pull := if x.last || x.closing then none else some { x1 with ctr := x.ctr + 1, took := none } })) ∧
        (∀ e, drainWrites t r x1 vs = .error e → exec (.pubSlotDrain tile slot n) s =
          .next ((t.updRing r n fun g => { g with pull := some { x1 with state := .held } }).streamFault r x1 e))))) ∧
  (∀ (s t : State) (tile pasid va k : Nat) (w : Walk) (e : TlbEntry) (f : Fork) (fl he : List Access) (a : Access), tile < 512 →
    (s.walk pasid va = .ok w → e = { pasid := pasid, va := wholePage va w.size, size := w.size, leaf := w.leaf } →
      exec (.pageWalk tile pasid va) s = .next t →
      e ∈ (t.tile tile).tlb ∨ (s.tile tile).tlb.any (fun x => x.pasid == e.pasid && x.va == e.va && x.size == e.size) = true) ∧
    (s.walk pasid va = .ok w → ∃ t, exec (.pageWalk tile pasid va) s = .next t) ∧
    (∀ c, s.walk pasid va = .error c → exec (.pageWalk tile pasid va) s = .next s) ∧
    ((s.tile tile).accesses < 2048 → s.waitingFork tile = some k → s.forks[k]? = some f → f.kind = .mem fl (a :: he) →
      exec (.accessEntryFreed tile) s = .next (({ s with forks := setNth s.forks k { f with kind := .mem (fl ++ [a]) he } } : State).setTile tile
        { s.tile tile with accesses := (s.tile tile).accesses + 1 })) ∧
    (2048 ≤ (s.tile tile).accesses → exec (.accessEntryFreed tile) s = .next s))


/-! ### The Percolator -/

/-- R278, R279, R280, R290: HOTNESS_SAMPLE adds the samples due, a counter staying at 255; HOTNESS_DECAY halves every counter at the end of a
period; PROMOTION and DEMOTION queue the Percolator's own request for a page whose counter and tier call for one under the parameters
in force, but for no PASID that is being torn down. -/
def Obligations.HotnessEvents : Prop :=
  ∀ (s : State) (pasid va key : Nat) (w : Walk),
    (∃ t, exec .hotnessSample s = .next t ∧ t.perc.due = [] ∧
      (s.perc.hot.rising → Map.get 0 t.perc.hot key =
        if s.perc.due.count key = 0 then Map.get 0 s.perc.hot key else min 255 (Map.get 0 s.perc.hot key + s.perc.due.count key))) ∧
    (s.cycle = s.perc.decayEnd → s.perc.due = [] → ∃ t, exec .hotnessDecay s = .next t ∧
      (s.perc.hot.rising → Map.get 0 t.perc.hot key = Map.get 0 s.perc.hot key / 2) ∧
      t.perc.decayEnd = (s.perc.decayEnd + s.perc.decay * 65536) % 2 ^ 64) ∧
    (∀ n, n = (s.perc.decayEnd + 2 ^ 64 - s.cycle) % 2 ^ 64 → 0 < n → n < 2 ^ 63 → exec .hotnessDecay s = .next s) ∧
    (s.tearing pasid = true → exec (.promotion pasid va) s = .next s ∧ exec (.demotion pasid va) s = .next s) ∧
    (∀ y, y = s.perc.policy → s.walk pasid va = .ok w → s.tearing pasid = false → y.auto = 1 → w.size = 16 → w.isPeer = false → bitAt w.leaf 58 = false → bitAt w.leaf 57 = false →
      s.motionOf pasid (va / 2 ^ 16 * 2 ^ 16) = none → (∀ q ∈ s.perc.queue, q.pasid ≠ pasid ∨ q.va ≠ va / 2 ^ 16 * 2 ^ 16) →
      (w.tierOf = .lpddr ∨ w.tierOf = .cxl → y.promo ≠ 0 → bits w.leaf 54 3 ≤ 1 →
        (y.promo ≤ s.hotOf w → exec (.promotion pasid va) s = .next (s.askOwn pasid va w .hbm)) ∧
        (s.hotOf w < y.promo → exec (.promotion pasid va) s = .next s)) ∧
      (w.tierOf = .hbm → s.perc.freeHbm < y.lowmark * 2 ^ 30 →
        (s.hotOf w ≤ y.demo → exec (.demotion pasid va) s = .next (s.askOwn pasid va w (if bits w.leaf 54 3 = 3 then .cxl else .lpddr))) ∧
        (y.demo < s.hotOf w → exec (.demotion pasid va) s = .next s)))

/-- R271 to R276, R339: a request is accepted with a destination frame and MOT set in the leaf, has nothing to do, or is refused with a
reason; CHUNK_COPY copies the next chunk of a page in motion; COMMIT switches the leaf; MIGRATION_RELEASE frees the source frame;
MIGRATION_ABORT stops the copy, and ABORT_COMPLETE leaves the page at its source. A leaf entry in a poisoned sector is neither read nor
written: its job halts with 0x300 (R339). The Thyme event of the commit is written in the COMMIT step (log 22); where the record of a
poisoned entry goes, and that its commit aborts, is log 55. -/
def Obligations.MigrationEvents : Prop :=
  ∀ (s : State) (k a reason : Nat) (q : MigReq) (m : Motion) (w : Walk) (pool : FramePool),
    (s.perc.queue[k]? = some q → (s.die q.die).heldBackground < 64 → s.tearing q.pasid = false → s.walk q.pasid q.va = .ok w → w.size = 16 → w.tierOf ≠ .host →
      w.isPeer = false → s.motionOf q.pasid q.va = none →
      (w.tierOf = q.tier → exec (.migrationAccept k) s = .next (s.updPerc fun p => { p with queue := p.queue.eraseIdx k })) ∧
      (w.tierOf ≠ q.tier → bitAt w.leaf 58 = true → exec (.migrationAccept k) s =
        .next ((s.updPerc fun p => { p with queue := p.queue.eraseIdx k }).refuseMove q.pasid q.va 16 q.die q.by_)) ∧
      (w.tierOf ≠ q.tier → bitAt w.leaf 58 = false → s.homeFull w.tierOf w.frame = false → (s.perc.pool q.tier).take = some (a, pool) →
        ∃ t : State, exec (.migrationAccept k) s = .next (t.setLeaf w (putField w.leaf 59 1 1)) ∧ t.perc.queue = s.perc.queue.eraseIdx k ∧
          (q.tier ≠ .host → t.perc.pool q.tier = pool) ∧ t.perc.motions = s.perc.motions ++
            [{ pasid := q.pasid, va := q.va, srcTier := w.tierOf, src := w.frame, dstTier := q.tier, dst := a, leafTier := w.tier, leaf := w.addr,
               by_ := q.by_.toList, own := q.by_.isNone }])) ∧
    (s.perc.motions[k]? = some m →
      (m.state = .moving → ∀ c, (∀ j < c, bitAt m.map j = true) → bitAt m.map c = false → c < 32 →
        (s.chunkPoisoned m c = false → exec (.chunkCopy k) s = .next ((s.copyChunk m c).setMotion k { m with map := m.map + 2 ^ c })) ∧
        (s.chunkPoisoned m c = true → exec (.chunkCopy k) s = .next (s.abortMotion m.pasid m.va 2))) ∧
      (m.state = .moving → m.map = 2 ^ 32 - 1 → s.leafPoisoned m = true →
        exec (.commit k) s = .next ((s.leafFault m).abortMotion m.pasid m.va 3)) ∧
      (m.state = .moving → m.map = 2 ^ 32 - 1 → s.leafPoisoned m = false →
        (leafHolds (s.leafOf m) m.srcTier m.src = true → exec (.commit k) s = .next (((s.setMotion k { m with state := .committing }).putLeaf m
          (putField (putField (s.leafOf m) 60 2 m.dstTier.num) 16 32 (m.dst / pageBytes))).log
            { time := s.cycle, pasid := m.pasid, kind := 0x30, addr := m.va })) ∧
        (leafHolds (s.leafOf m) m.srcTier m.src = false → exec (.commit k) s = .next (s.abortMotion m.pasid m.va 3))) ∧
      (m.state = .moving → m.map < 2 ^ 32 - 1 → exec (.commit k) s = .next s) ∧
      (∀ s1, s1 = (if s.leafPoisoned m = true then s.leafFault m else s.putLeaf m (putField (s.leafOf m) 59 1 0)) →
        (m.state = .committing → ∃ t : State, exec (.migrationRelease k) s = .next (t.freeFrame m.srcTier m.src) ∧
          t.perc.motions = s.perc.motions.eraseIdx k ∧ t = (((s1.shoot (shootPage m.pasid m.va)).passAccesses m).updPerc fun p =>
            { p with motions := p.motions.eraseIdx k })) ∧
        (m.state = .aborted → exec (.abortComplete k) s = .next ((s1.updPerc fun p =>
          { p with motions := p.motions.eraseIdx k }).freeFrame m.dstTier m.dst))) ∧
      (m.state = .moving → s.abortStrikes m reason = true → exec (.migrationAbort k reason) s = .next (s.abortMotion m.pasid m.va reason)))

/-- R273: a chunk copied is the same 2,048 bytes at the destination; no other byte of memory changes. -/
def Obligations.CopiedChunk : Prop :=
  ∀ (s : State) (m : Motion) (c : Nat), (s.tierMem m.dstTier).wf = true → (m.srcTier ≠ m.dstTier) →
    (∀ j < 2048, ((s.copyChunk m c).tierMem m.dstTier).byte (m.dst + 2048 * c + j) = (s.tierMem m.srcTier).byte (m.src + 2048 * c + j)) ∧
    (∀ t a, (t ≠ m.dstTier ∨ a < m.dst + 2048 * c ∨ m.dst + 2048 * c + 2048 ≤ a) →
      ((s.copyChunk m c).tierMem t).byte a = (s.tierMem t).byte a)

/-! ### Schedulers and the trap system -/

/-- R304 to R306, R57, R58, R315, R332, R309: TASK_DISPATCH places a ready task, its parameters, relocation words and set-up image
read into its slot, TASK_RESTORE a saved one with its units read from its frame; CONTEXT_SAVE saves a slot that a YIELD gave up,
TASK_PARK one that a PARK fault stopped, unless its record is held: the frame is written, the slot is free. The model keeps the slot's
state areas as the save wrote them, beside the frame, and the restore takes them from there (log 31). TASK_COMPLETE completes a task
whose chains have retired and whose forks have joined, or parks it on a refusal that it holds. -/
def Obligations.TaskEvents : Prop :=
  ∀ (s : State) (n tile slot : Nat) (x : Slot) (t : Task), x = s.slotAt tile slot → t = s.task n →
    (s.nextDispatch = some (n, tile, slot) →
      (t.state = .ready → exec .taskDispatch s = .next (s.firstDispatch n tile slot) ∧ exec .taskRestore s = .next s ∧
        ∀ ps rb c0 c, (if t.param = 0 then ps = [] else s.readTable t.pasid t.param t.paramLen = .ok ps) →
          (if t.reloc = 0 then rb = ({} : Ctx).rb else s.readTable t.pasid t.reloc 8 = .ok rb) →
          c0 = { lde := { present := t.headOf .lde != 0, cursor := t.headOf .lde }, mxe := { present := t.headOf .mxe != 0, cursor := t.headOf .mxe },
                 vxe := { present := t.headOf .vxe != 0, cursor := t.headOf .vxe }, ste := { present := t.headOf .ste != 0, cursor := t.headOf .ste },
                 tp := ((upto ps.length).zip ps).foldl (fun m (k, v) => Memory.putNat m (0x40 + 8 * k) 8 v) [], rb := rb,
                 budget := t.fullBudget, step := t.stepped, dirty := t.units.foldl (fun m u => Map.set false m u true) [] } →
          (if t.seminit = 0 then c = c0 else s.applyImage t.pasid t.seminit c0 = .ok c) →
          exec .taskDispatch s = .next ((((s.occupy n tile slot c).updTask n fun t => { t with fresh := false, budget := none }).setTaskState n
            .resident).stopForStep tile slot)) ∧
      (t.state = .saved → exec .taskRestore s = .next (s.restoreTask n tile slot) ∧ exec .taskDispatch s = .next s ∧
        ∀ c c1, s.frameUnits t (t.saved.getD {}) = .ok c → c1 = t.remote.foldl (fun c (k, v) => (c.addSem k v).getD c) (c.holdStreams .opened) →
          exec .taskRestore s = .next (((s.occupy n tile slot { c1.updChains fun _ h => h.restored with dirty := [], wdc := 0 }).updTask n fun t =>
            { t with saved := none, remote := [] }).setTaskState n .resident))) ∧
    (s.nextDispatch = none → exec .taskDispatch s = .next s ∧ exec .taskRestore s = .next s) ∧
    (unitsOk tile slot = true → x.cancelled = false →
      (x.yielding = true → x.parking = false → exec (.contextSave tile slot) s = .next (s.saveTask tile slot .saved)) ∧
      (x.parking = true → x.inPlace = false → exec (.taskPark tile slot) s = .next (s.saveTask tile slot .parked)) ∧
      (x.inPlace = true → exec (.taskPark tile slot) s = .next s) ∧
      (∀ s1 s2 c u y, x.task = some n → s.saveWaits tile slot = false → s1 = s.quiesce tile slot → y = s1.slotAt tile slot →
        s1.calm (engRef tile slot .lde) = true → (s1.pasid (s1.task n).pasid).runs = true → y.inPlace = false → c = y.ctx.holdStreams .held →
        s1.writeChunks (s1.task n).pasid (s1.task n).frame (frameChunks s1 (s1.task n) c) = .ok s2 →
        u = (((s2.updTask n fun t => { t with saved := some ((c.within t).updChains fun _ h => h.saved) }).releaseSlot tile slot).detach n).flushTask n →
        (x.yielding = true → x.parking = false →
          exec (.contextSave tile slot) s = .next (u.setTaskState n (if y.parking then .parked else .saved))) ∧
        (x.parking = true → x.inPlace = false → exec (.taskPark tile slot) s = .next (u.setTaskState n .parked))) ∧
      (s.saveWaits tile slot = true → exec (.contextSave tile slot) s = .next s ∧ exec (.taskPark tile slot) s = .next s)) ∧
    (s.slotOf n = some (tile, slot) → t.state = .resident → x.parking = false → x.inPlace = false → x.cancelled = false → x.yielding = false →
      (∀ h ∈ x.ctx.chains, (h.present = true → h.retired = true) ∧ h.inflight = [] ∧ h.stop ≠ .halted) →
      (∀ f ∈ s.forks, f.task = n → f.keeps x.ctx = false) → (∀ g ∈ x.ctx.ringList, g.2.sub = none ∧ g.2.pull = none) → s.heldNote t = false →
      (t.succ = 0 ∨ s.schedulerHeld tile < 64) →
      ((∀ e, (x.ctx.chain e).refusal = none) → exec (.taskComplete n) s = .next (((((s.releaseSlot tile slot).setTaskState n .complete).serveSuccessors
          t tile slot).launchDown t.launchId).endJob t.pasid)) ∧
      (∀ e v, x.ctx.refusedBy = some (e, v) → exec (.taskComplete n) s = .next (s.raiseRefusal (engRef tile slot e) v))) ∧
    (s.slotOf n = some (tile, slot) → (∃ f ∈ s.forks, f.task = n ∧ f.keeps x.ctx = true) → exec (.taskComplete n) s = .next s)

/-- R303, R308, R310, R330, R333, R329: a spent budget parks its task with 0x2C0, a watchdog at its limit halts its job with 0x2C1;
HALT_LINE halts every live task of the job; ENGINE_STOP stops an engine of a halted job or a cancelled slot: its blocks of class 0 and
class 3 complete, it drops the others, and an abort that one of them waited for becomes a background record (R277); SLOT_RELEASE frees
a cancelled slot; HELD_RECORD_WRITE writes the oldest held record. -/
def Obligations.HaltEvents : Prop :=
  ∀ (s : State) (tile slot pasid die k cluster : Nat) (x : Slot) (p : Pasid) (r : EngRef) (f : FaultRec),
    (unitsOk tile slot = true → x = s.slotAt tile slot → (s.jobOf tile slot).runs = true →
      (x.live = true → x.ctx.spent = true → exec (.budgetExhausted tile slot) s = .next (s.schedulerFault tile slot .budget 0 0)) ∧
      (x.ctx.budget = none → exec (.budgetExhausted tile slot) s = .next s) ∧
      (x.task.isSome = true → x.inPlace = false → x.cancelled = false →
        (x.wdActive ≤ x.ctx.wdc → exec (.watchdog tile slot) s = .next (s.schedulerFault tile slot .watchdog 0 0)) ∧
        (x.ctx.wdc < x.wdActive → exec (.watchdog tile slot) s = .next s))) ∧
    (p = s.pasid pasid →
      (p.halting = true → exec (.haltLine pasid) s = .next ((s.liveOf pasid).foldl State.haltTask (s.setPasid pasid { p with halting := false, halted := true }))) ∧
      (p.halting = false → exec (.haltLine pasid) s = .next s)) ∧
    (r.ok = true → x = s.slotAt r.tile r.slot → p = s.jobOf r.tile r.slot → (s.chain r).present = true → (s.chain r).stop ≠ .halted →
      x.task.isSome = true →
      (∀ f ∈ (s.chain r).inflight, classOf f.instr = 0 ∨ classOf f.instr = 3 → s.holdsSave r f = false) →
      (∀ s0 q d z, s0 = s.finishBlocks r (s.chain r).inflight.length →
        ((x.cancelled = false ∧ p.halted = true ∧ q = p.haltBy ∧ d = .halt) ∨ (x.cancelled = true ∧ p.halted = false ∧ q = 0x2C4 ∧ d = .note)) →
        z = (if (s0.chain r).stop = .halted then s0 else s0.stopEngine r .halted q d false 0 0 (s.free 1 % 65)) →
        exec (.engineStop r) s = .next ((((z.partWrites r).dropWaiting r).updChain r fun h =>
          { h with inflight := [], queue := [], guard := none, refusal := none }).flushWhere fun w => w.task == s.taskOf r && w.ref.eng == r.eng)) ∧
      (x.cancelled = false → p.halted = false → exec (.engineStop r) s = .next s)) ∧
    (unitsOk tile slot = true → x = s.slotAt tile slot → x.cancelled = true → x.ctx.allStopped = true →
      (s.forks.any fun f => some f.task == x.task) = false → exec (.slotRelease tile slot) s = .next (s.releaseSlot tile slot)) ∧
    (die < 4 → (s.die die).full = false → oldestHeld (s.die die).held 0 = some (k, cluster, f) → exec (.heldRecordWrite die) s =
      .next (((s.setDie die { s.die die with held := (s.die die).held.eraseIdx k }).placeRecord die cluster { f with held := true }).unhold f)) ∧
    (die < 4 → (s.die die).full = true → exec (.heldRecordWrite die) s = .next s)

/-- R324, R328, R330 to R332: taking a fault of a block. PARK stops its engine and asks for the task to be saved, HALT stops its
engine with a stop record, unless it has halted already, and raises the job's halt line, STOP writes only a stop record, NOTE stops
nothing; all but STOP write a fault record that names the task, the block and the iteration. It takes the next SEQ, the next place in
the die's buffer and in device memory, where nothing else changes, and the next of the cluster's queue. The buffer's place in memory
is the model's choice, as is that a record which one of a later tile or engine has passed in its cycle is of the next cycle (log 43);
which engines a STOP stops, and where it finds them, is log 45. -/
def Obligations.FaultTaking : Prop :=
  ∀ (s t z : State) (r : EngRef) (block : Nat) (e : BlockFault) (d : Disp) (u : FaultUnit) (f : FaultRec),
    (s.slotAt r.tile r.slot).task ≠ none → t = s.takeFault r block e d → u = s.die (dieOf r.tile) → u.head + 4096 > u.tail → u.held = [] →
    s.slots.rising → s.dies.rising → u.recs.rising →
    z = (if d ≠ .stop ∧ u.last.1 = s.cycle ∧ (r.tile < u.last.2.1 ∨ (r.tile = u.last.2.1 ∧ r.eng.num < u.last.2.2)) then s.tick 1 else s) →
    f = { pasid := (s.task (s.taskOf r)).pasid, acc := e.acc, tile := r.tile, slot := r.slot, eng := r.eng.num, disp := d, cause := e.cause.code,
          task := (s.task (s.taskOf r)).va, block := block, ctr := e.ctr, remain := e.remain, fva := e.fva, time := z.cycle, bank := e.bank,
          seq := u.seq % 2 ^ 32 } →
    (d ≠ .stop →
      Map.get {} (t.die (dieOf r.tile)).recs u.tail = f ∧ (∀ k ≠ u.tail, Map.get {} (t.die (dieOf r.tile)).recs k = Map.get {} u.recs k) ∧
      (t.die (dieOf r.tile)).tail = u.tail + 1 ∧ (t.die (dieOf r.tile)).seq = u.seq + 1 ∧ t.cycle = z.cycle ∧
      Map.get [] t.faultQueues (clusterOf r.tile) = Map.get [] s.faultQueues (clusterOf r.tile) ++ [(dieOf r.tile, u.tail)]) ∧
    (d = .park → (t.chain r).stop = .parked ∧ (t.slotAt r.tile r.slot).parking = true ∧ (s.task (s.taskOf r)) = t.task (s.taskOf r)) ∧
    (d = .halt → (t.chain r).stop = .halted ∧ (t.pasid (s.task (s.taskOf r)).pasid = { s.pasid (s.task (s.taskOf r)).pasid with
        halting := (t.pasid (s.task (s.taskOf r)).pasid).halting, haltBy := (t.pasid (s.task (s.taskOf r)).pasid).haltBy }) ∧
      ((t.pasid (s.task (s.taskOf r)).pasid).halting = true ∨ (s.pasid (s.task (s.taskOf r)).pasid).halted = true) ∧
      ((s.chain r).stop = .halted → ((t.slotAt r.tile r.slot).lane r.eng).stop = ((s.slotAt r.tile r.slot).lane r.eng).stop) ∧
      ((s.chain r).stop ≠ .halted → ∀ blk ctr, (blk, ctr) = (match s.stopPoint r .halted with
          | some (g, k) => (g.addr, ctrOf g.instr k) | none => ((s.chain r).lastBlk, (s.chain r).lastCtr)) →
        ((t.slotAt r.tile r.slot).lane r.eng).stop = some {
          pasid := (s.task (s.taskOf r)).pasid, acc := e.acc, tile := r.tile, slot := r.slot, eng := r.eng.num, orig := true, disp := .halt,
          cause := e.cause.code, task := (s.task (s.taskOf r)).va, block := blk, ctr := ctr,
          ret := (s.chain r).retired, endf := (s.chain r).endFlag, sbp := (s.chain r).sbp, tag := 0, forks := s.forkCount r,
          cursor := (s.chain r).cursor, time := z.cycle, skid := 0 })) ∧
    (d = .stop → t.dies = s.dies ∧ ((t.chain r).stop = .breakpoint ∨ (t.chain r).stop = .stepped) ∧
      ∃ z, ((t.slotAt r.tile r.slot).lane r.eng).stop = some z ∧ z.cause = e.cause.code ∧ z.tag = e.remain ∧ z.task = (s.task (s.taskOf r)).va) ∧
    (d = .note → t.slots = z.slots ∧ t.pasids = s.pasids ∧ t.tasks = s.tasks) ∧
    (d ≠ .stop → s.lpddr.wf = true → t.lpddr.nat (u.addrOf u.tail) 64 = f.bytes % 256 ^ 64) ∧
    (∀ m a, d = .stop ∨ m ≠ .lpddr ∨ a < u.addrOf u.tail ∨ u.addrOf u.tail + 64 ≤ a → (t.tierMem m).byte a = (s.tierMem m).byte a) ∧
    t.clusterPool = s.clusterPool ∧ t.diePool = s.diePool ∧ t.supmem = s.supmem ∧ z.KeepsOtherSlots t r

/-! ### Storage, ports, power and resets -/

/-- R16, R338, R339, R341, R355 to R357, R359: SCRUB, once in a period, corrects a sector, logs a transient error or poisons it with
the events 0x12 and 0x11 (ADDR and DATA of these events: log 33); LINK_FAILURE halts the job that needs the link; a peer's access is
made at its home, its steps numbered as in log 53; of a mailbox's FIFO the oldest message is taken, or one of 64 bytes is sent and
stands at its end, 16 messages deep, a send to a full FIFO waiting (which of the two it is, and what test firmware and core 3 do, is
open: log 2); a power measurement
gives a draw within the limit and a throttle level; fatal errors, temperature trips and resets; firmware. Where no firmware runs, no
mailbox and no measurement does anything (R357). -/
def Obligations.ModuleEvents : Prop :=
  ∀ (s : State) (m : Tier) (sector pasid task va addr op width v pair location kind : Nat) (reply : Bool),
    (∀ k, k = poisonKey (.tier m) sector → sector < tierSectors m →
      (Map.get 0 s.mgmt.scrubbed k ≠ s.scrubNow →
        exec (.scrub m sector true) s = .next { s with mgmt := { s.mgmt with
          corrected := (s.mgmt.corrected + 1) % 2 ^ 64, scrubbed := Map.set 0 s.mgmt.scrubbed k s.scrubNow } } ∧
        (s.poisoned (.tier m) (sector * 32) = false → ∃ t, exec (.scrub m sector false) s = .next t ∧ s.KeepsMemory t ∧
          t.mgmt.scrubbed = Map.set 0 s.mgmt.scrubbed k s.scrubNow ∧
          ((t.poison = s.poison ∧ t.thyme = ({ time := s.cycle, kind := 0x10, addr := sector * 32, data := storageKind (.tier m) } :: s.thyme).take 4096) ∨
           (Map.get false t.poison k = true ∧ t.thyme = ({ time := s.cycle, kind := 0x11, addr := sector * 32, data := storageKind (.tier m) } ::
              { time := s.cycle, kind := 0x12, addr := sector * 32 } :: s.thyme).take 4096 ∧ t.mgmt.frames = s.mgmt.frames ++ [(m.num, sector * 32 / pageBytes)] ∧
            t.mgmt.core3Irqs = s.mgmt.core3Irqs + 1)))) ∧
      (Map.get 0 s.mgmt.scrubbed k = s.scrubNow → ∀ c, exec (.scrub m sector c) s = .next s)) ∧
    ((s.task task).pasid = pasid → (s.task task).state.live = true → (s.pasid pasid).runs = true →
      exec (.linkFailure pasid task false va) s = .next (s.fabricFault task .link va) ∧
      exec (.linkFailure pasid task true va) s = .next (s.fabricFault task .peerUnreachable va)) ∧
    (addr / 32 < tierSectors m → width ∈ [1, 2, 4, 8, 32] → addr % width = 0 →
      (op = 0 → exec (.peerWindowAccess m addr op width v) s = .next s) ∧
      (op = 1 → exec (.peerWindowAccess m addr op width v) s = .next (s.performAccess
        { place := .tier m, unit := addr / 32, ops := [{ bit := addr * 8, w := 8 * width, kind := .write (v % 2 ^ (8 * width)) }] }).1) ∧
      (∀ f, peerOp op = some f → f.bytes = width → exec (.peerWindowAccess m addr op width v) s = .next (s.performAccess
        { place := .tier m, unit := addr / 32,
          ops := [{ bit := addr * 8, w := 8 * width, kind := .rmw f (v % 2 ^ (8 * width)) (bits v 32 32) none }] }).1) ∧
      (1 < op → (∀ f, peerOp op = some f → f.bytes ≠ width) → exec (.peerWindowAccess m addr op width v) s = .next s)) ∧
    (∀ k l, pair < 16 → s.mgmt.ready = true → k = 2 * pair + ofBool reply → l = Map.get [] s.mgmt.mailboxes k →
      ∃ (t : State) (w : List Nat), exec (.mailboxMessage pair reply) s = .next t ∧ w.length = 8 ∧
      t.mgmt.mailboxes = Map.set [] s.mgmt.mailboxes k (if s.freeBit 0 = true ∧ l.length < 16 then l ++ [w] else l.drop 1) ∧
      (16 ≤ l.length → t.mgmt.mailboxes = Map.set [] s.mgmt.mailboxes k (l.drop 1)) ∧
      (l.length ≤ 16 → s.mgmt.mailboxes.rising → (Map.get [] t.mgmt.mailboxes k).length ≤ 16) ∧
      (toCore3 pair reply = false → t.mgmt.scrubPeriod = s.mgmt.scrubPeriod) ∧
      { t with tiles := s.tiles, mgmt := { t.mgmt with
          mailboxes := s.mgmt.mailboxes, scrubPeriod := s.mgmt.scrubPeriod, scrubbed := s.mgmt.scrubbed } } = s) ∧
    (s.mgmt.ready = false → pair < 16 → exec (.mailboxMessage pair reply) s = .next s ∧ exec .powerMeasurement s = .next s) ∧
    (s.mgmt.ready = true → ∃ t, exec .powerMeasurement s = .next t ∧ { t with mgmt := { t.mgmt with draw := s.mgmt.draw, throttle := s.mgmt.throttle } } = s ∧
      t.mgmt.draw ≤ s.mgmt.powerLimit ∧ 1 ≤ t.mgmt.throttle ∧ t.mgmt.throttle ≤ 16) ∧
    exec (.fatalError location kind) s = .next (s.fatal location kind).warm ∧
    (∃ t, exec .temperatureTrip s = .next t ∧ t.mgmt.powered = false ∧ t.mgmt.ready = false) ∧
    exec .coldReset s = .next s.cold ∧ exec .warmReset s = .next s.warm ∧
    (s.mgmt.firmware.isSome = true → exec .recoveryImage s = .next s) ∧
    (s.mgmt.firmware = none → ∃ t, exec .recoveryImage s = .next t ∧ { t with mgmt := s.mgmt } = s ∧
      (s.mgmt.accepts s.someImage = true → t.mgmt.firmware = some s.someImage.version ∧ t.mgmt.ready = true))

/-- R340, R341, R356, R357: what a reset leaves. After a warm reset memory, the cycle stamp and the supervisors' memory are as before,
no task, launch, PASID or slot is in use, and the Thyme buffer holds the reset's event before its old ones; a cold reset also
leaves host and CXL memory, and nothing of the device's own. What they keep beyond the rules (the cycle stamp, the supervisors' memory,
CXL and host memory at a cold reset) is the model's choice (log 13). -/
def Obligations.Resets : Prop :=
  ∀ s : State,
    (s.KeepsMemory s.warm ∧ s.warm.cycle = s.cycle ∧ s.warm.tasks = [] ∧ s.warm.slots = [] ∧ s.warm.launches = [] ∧ s.warm.pasids = [] ∧
      s.warm.harts = [] ∧ s.warm.forks = [] ∧ s.warm.dies = State.reset.dies ∧ s.warm.perc.motions = [] ∧ s.warm.granules = [] ∧
      s.warm.thyme = ({ time := s.cycle, kind := 0x41, data := s.mgmt.warmResets + 1 } :: s.thyme).take 4096 ∧
      s.warm.mgmt.warmResets = s.mgmt.warmResets + 1) ∧
    (s.cold.cxl = s.cxl ∧ s.cold.host = s.host ∧ s.cold.hbm = [] ∧ s.cold.lpddr = [] ∧ s.cold.clusterPool = [] ∧ s.cold.diePool = [] ∧
      s.cold.dies = State.reset.dies ∧ s.cold.tasks = [] ∧ s.cold.slots = [] ∧ s.cold.launches = [] ∧ s.cold.pasids = [] ∧ s.cold.harts = [] ∧ s.cold.thyme = [] ∧
      s.cold.mgmt.powered = true)

/-! ### The front end -/

/-- R346 to R348, R357: a whole launch line of a live queue moves TAIL to its SEQT, its packet standing in place of the one at the old TAIL
where it is the next; one beyond the ring is rejected and counted, a stale one ignored; the packets not yet valid are read again.
A dead queue ignores lines; a partial line is counted; other offsets do nothing. That no line does anything where no firmware runs is
the model's reading of R357, by which the module then only waits for an image (log 13). -/
def Obligations.LineEvents : Prop :=
  ∀ (s : State) (q off : Nat) (dws : List Nat) (x : Queue) (n : Nat), q < 4096 → x = s.queue q → n = dws.getD 7 0 →
    (s.mgmt.ready = true → x.present = true → x.live = true → exec (.launchLine q dws) s = .next ((s.setQueue q
      (if x.head + 2 ^ x.log < n then { x with rej := (x.rej + 1) % 2 ^ 32 }
       else if n ≤ x.tail then x
       else if n - 1 = x.tail then { x with tail := n, fetched := x.fetched.filter (fun (k, _) => k != x.tail) ++ [(x.tail, dws)] }
       else { x with tail := n })).rereadQueue q)) ∧
    (x.live = false → exec (.launchLine q dws) s = .next s) ∧
    (s.mgmt.ready = true → exec (.partialLaunchLine q) s = .next (s.setQueue q { x with rej := (x.rej + 1) % 2 ^ 32 })) ∧
    (s.mgmt.ready = false → exec (.launchLine q dws) s = .next s ∧ exec (.partialLaunchLine q) s = .next s) ∧
    exec (.launchPageOtherWrite q off) s = .next s ∧
    (x.live = true → exec (.ringSlotReread q) s = .next (s.rereadQueue q)) ∧
    (x.live = false → exec (.ringSlotReread q) s = .next s)

/-- R350, R351, R349: LAUNCH creates a launch of the records of its list, or completes at once for an empty one; GRAPH creates a graph
and its launches; MODEL relocates and launches a resident slot's tasks; SIGNAL writes its object, and leaves the record and status
0x343 where it can be read and not written (R302); WAIT holds its queue until its object has reached the threshold, when
WAIT_PACKET_COMPLETE ends it. A malformed packet completes with 0x341. -/
def Obligations.PacketEvents : Prop :=
  (∀ (s t : State) (q i pasid : Nat) (dws : List Nat) (l : List Nat), s.Starts q dws → t = s.started q dws → i = (s.queue q).head →
    pasid = (t.queue q).pasid →
    (packetType dws = 1 → t.recordList pasid (pw dws 1) = some l →
      (l = [] → exec (.launchPacket q) s = .next (t.endPacket q i (pw dws 2) dws)) ∧
      (l ≠ [] → exec (.launchPacket q) s = .next (t.launchRecords 0 pasid (packetCobj dws) (pw dws 2) 0 (some q) i l).1)) ∧
    (packetType dws = 1 → t.recordList pasid (pw dws 1) = none → exec (.launchPacket q) s = .next (t.failPacket q i 0x341 dws)) ∧
    (packetType dws = 2 → ∀ g t1 gid e, t.graphList pasid (pw dws 1) = some g →
      e = { isGraph := true, pasid := pasid, count := g.length, cobj := packetCobj dws, val := pw dws 2, queue := some q, index := i } →
      t.newLaunch 0 e = some (t1, gid) →
      exec (.graphPacket q) s = .next (((upto g.length).zip g).foldl (fun s (k, d) => graphLaunch pasid gid s (k + 1) d) t1)) ∧
    (packetType dws = 3 → ∀ m, m = t.model (bits (pw dws 0) 24 8) →
      (m.loaded = false ∨ m.version ≠ bits (pw dws 0) 32 32 → exec (.modelPacket q) s = .next (t.failPacket q i 0x342 dws)) ∧
      (∀ args t1, m.loaded = true → m.version = bits (pw dws 0) 32 32 → t.readDws pasid (pw dws 1) 8 = some args → m.tasks ≠ [] →
        m.tasks.foldl (fun o va => o.bind fun s => s.relocate pasid args va) (some t) = some t1 →
        exec (.modelPacket q) s = .next ((t1.launchRecords 0 pasid (packetCobj dws) (pw dws 2) 0 (some q) i m.tasks).1.setModel (bits (pw dws 0) 24 8)
          { m with inst := some (t1.launchRecords 0 pasid (packetCobj dws) (pw dws 2) 0 (some q) i m.tasks).2 }))) ∧
    (packetType dws = 4 → ∀ old v, t.readVa pasid (pw dws 1) 8 = some old →
      v = (match bits (pw dws 0) 16 8 with | 0 => (old + pw dws 2) % 2 ^ 64 | 1 => max old (pw dws 2) | _ => pw dws 2) →
      (∀ t1, t.writeVa pasid (pw dws 1) 8 v = some t1 → exec (.signalPacket q) s = .next (t1.packetDone q i none true)) ∧
      (t.writeVa pasid (pw dws 1) 8 v = none → exec (.signalPacket q) s = .next ((t.noteRecord 0
        { pasid := pasid, cause := 0x343, fva := pw dws 1, remain := v % 2 ^ 64 }).packetDone q i none false))) ∧
    (packetType dws = 4 → t.readVa pasid (pw dws 1) 8 = none → exec (.signalPacket q) s = .next (t.failPacket q i 0x341 dws)) ∧
    (packetType dws = 5 → ∀ v, t.readVa pasid (pw dws 1) 8 = some v → exec (.waitPacket q) s = .next t)) ∧
  (∀ (s : State) (q v : Nat) (p : Started) (dws : List Nat), q < 4096 →
    ((s.queue q).started.find? (·.wait) = some p → s.readVa (s.queue q).pasid (p.dws.getD 1 0) 8 = some v →
      (p.dws.getD 2 0 ≤ v → exec (.waitPacketComplete q) s = .next (s.packetDone q p.index none true)) ∧
      (v < p.dws.getD 2 0 → exec (.waitPacketComplete q) s = .next s)) ∧
    ((s.queue q).started.find? (·.wait) = none → exec (.waitPacketComplete q) s = .next s) ∧
    (s.nextQueue = some q → s.startable q = some dws → packetOk q dws = false → packetType dws = 1 →
      exec (.launchPacket q) s = .next ((({ s with walkers := Map.set 0 s.walkers (s.queue q).prio (q + 1) } : State).startPacket q dws false).failPacket
        q (s.queue q).head 0x341 dws)))

/-- R353, R354, R340, R343, R345, R111, R57, R341, R357, R358: what each command of the administrative queue does when its operands are in
order. Of a live queue that QDEL takes out LIVE becomes 0, and the packets that have not started complete with 0x340, those of slots
that are not valid with no object to write. The predecessor of a queue that is put in or taken out has its SPLICE cleared. A PASDEL
ends when nothing of its PASID is under way: what is left of it goes, the PASID is invalid, and the command completes with 0. A WRESET
ends, when no task is live and no slot is held, in the warm reset. Which roots and tables are in order is log 8, that
addresses are VAs of PASID 0 log 10, the layout of GRANT's operands log 12, when a removed block may be used again log 21, the layout of
an object and where it is put log 51, the layout of the report log 52. -/
def Obligations.AdminEvents : Prop :=
  (∀ (s t : State) (i : Nat) (dws : List Nat) (d : Nat → Nat) (cmd : Nat), s.Commands cmd dws → t = s.started 0 dws → i = (s.queue 0).head →
    (∀ k, d k = dws.getD k 0) →
    (cmd = 1 → d 1 ≠ 0 → d 1 < 2 ^ 20 → (t.pasid (d 1)).valid = false → rootOk (d 2) = true → tableOk (d 3) (d 4) = true →
      exec .pasnew s = .next ((t.setPasid (d 1) { valid := true, root := d 2, htable := d 3, hcount := d 4 }).endPacket 0 i 0 dws)) ∧
    (cmd = 1 → (t.pasid (d 1)).valid = true → exec .pasnew s = .next (t.failPacket 0 i 0x341 dws)) ∧
    (cmd = 2 → d 1 ≠ 0 → (t.pasid (d 1)).valid = true →
      exec .pasdel s = .next ((((((t.queuesOf (d 1)).foldl (fun s q => s.endQueue (d 1) q) t).endMoves (d 1)).cancelJob (d 1)).dropForks (d 1)).recount)) ∧
    (cmd = 3 → ∀ ws x q, t.readDws 0 (d 1) 32 = some ws → queueOf (fun k => ws.getD k 0) = (x, q) → queueImageOk (fun k => ws.getD k 0) = true →
      x.pasid ≠ 0 → (t.pasid x.pasid).valid = true → (t.queue q).present = false → (t.queue q).started = [] →
      (t.blockInUse dws = true → exec .qnew s = .next t) ∧ (t.blockInUse dws = false → exec .qnew s = .next (({ (t.setQueue q x).endSplice (Map.get [] t.runLists x.prio) with
        runLists := Map.upd [] t.runLists x.prio (· ++ [q]) } : State).endPacket 0 i q dws))) ∧
    (cmd = 4 → d 1 ≠ 0 → d 1 < 4096 → (t.queue (d 1)).present = true →
      ∀ l (t1 u u1 : State) x, l = Map.get [] t.runLists (t.queue (d 1)).prio → u = t.rereadQueue (d 1) → x = u.queue (d 1) →
      u1 = ((upto (x.tail - x.head)).map fun k => (x.head + k, (x.packet (x.head + k)).getD [])).foldl
        (fun s p => s.endUnstarted (d 1) p.1 p.2) (u.setQueue (d 1) { x with live := false }) →
      t1 = (if (t.queue (d 1)).live = true then u1.setQueue (d 1) { u1.queue (d 1) with fetched := [] } else t) →
      exec .qdel s = .next (({ (t1.setQueue (d 1) { t1.queue (d 1) with
          present := false, removed := t.mgmt.walkerPass + 1,
          nextq := (match l.findIdx? (· == d 1) with | some k => (l[k + 1]?).map (· + 1) | none => none).getD 0 }).endSplice
            (l.takeWhile (· != d 1)) with
        runLists := Map.upd [] t1.runLists (t.queue (d 1)).prio (·.filter (· != d 1)) } : State).endPacket 0 i 0 dws)) ∧
    (cmd = 5 → (t.pasid (d 1)).valid = true → tableOk (d 2) (d 3) = true →
      exec .hset s = .next ((t.setPasid (d 1) { t.pasid (d 1) with hnext := some (d 2, d 3) }).endPacket 0 i 0 dws)) ∧
    (cmd = 6 → ∀ p a n, grantRange dws = some (p, a, n) → (d 5 = 0 ∨ ((t.pasid (d 5)).valid = true ∧ ∀ k < n,
        Map.get false t.granulesOut (granuleKey p (a + k * granuleBytes)) = false ∨ Map.get 0 t.granuleFrom (granuleKey p (a + k * granuleBytes)) = d 5)) →
      exec .grant s = .next (((upto n).foldl (fun s k => s.grantOne p (a + k * granuleBytes) (d 5)) t.settlePools).endPacket 0 i 0 dws)) ∧
    (cmd = 7 → d 1 < 256 → d 3 < 2 ^ 32 → t.modelBusy (t.model (d 1)) = false → ∀ n size l img img1 part, n ≤ 4096 →
      t.readVa 0 (d 2) 8 = some (0x4C4E4D31 + 2 ^ 32 * d 3) → t.readVa 0 (d 2 + 8) 8 = some (n + 2 ^ 32 * d 1) → t.objectSections (d 2) n = some l →
      (∀ x ∈ l, x.ok = true) → size = (l.map fun x => x.off + x.size).foldl max 0 → size ≤ 2 ^ 26 → t.readDws 0 (d 2) (size / 8) = some img →
      part = (fun k => (l.filter fun x => x.kind == k).flatMap fun x => x.dws img) →
      relocateAll (t.loadBase size) (secondOnes (part 8)) (part 7) img = some img1 →
      exec .mload s = .next (((t.placeImage (t.loadFrame (d 1) size) img1).setModel (d 1) {
        loaded := true, version := d 3, object := d 2, tasks := (l.filter (·.kind == 2)).flatMap fun x =>
          (upto (x.size / 128)).map fun j => t.loadBase size + x.off + 128 * j }).endPacket 0 i 0 dws)) ∧
    (cmd = 8 → d 1 < 256 → (t.model (d 1)).loaded = true →
      (t.modelBusy (t.model (d 1)) = false → exec .munld s = .next ((t.setModel (d 1) {}).endPacket 0 i 0 dws)) ∧
      (t.modelBusy (t.model (d 1)) = true → exec .munld s = .next t)) ∧
    (cmd = 9 → d 1 + d 2 ≤ 2 ^ 48 →
      exec .dumpreg s = .next (({ t with mgmt := { t.mgmt with dump := some (d 1, d 2) } } : State).endPacket 0 i 0 dws)) ∧
    (cmd = 10 → (t.readVa 0 (d 1) 8).isSome = true → t.mgmt.accepts t.someImage = true →
      exec .fwupd s = .next (({ t with mgmt := { t.mgmt with nextImage := some t.someImage } } : State).endPacket 0 i 0 dws)) ∧
    (cmd = 11 → ∀ nonce live, t.readDws 0 (d 1) 4 = some nonce → live = (t.pasids.filter fun p => p.2.valid).map (·.1) →
      ∃ fw caps sig : List Nat, fw.length = 4 ∧ caps.length = 4 ∧ sig.length = 303 ∧
        ∀ u, t.writeDws 0 (d 2) (nonce ++ fw ++ [t.mgmt.firmware.getD 0, t.mgmt.rollback] ++ caps ++ (live.length :: live) ++ sig) = some u →
          exec .attest s = .next (u.endPacket 0 i 0 dws)) ∧
    (cmd = 12 → exec .wreset s = .next t.cancelAll)) ∧
  (∀ (s : State) (p : Started) (v : Nat), v = p.dws.getD 1 0 →
    ((s.queue 0).started.filter (fun x => isCommand 2 x.dws) = [p] →
      (s.liveOf v ≠ [] → exec .pasdel s = .next (s.cancelJob v)) ∧
      (s.liveOf v = [] → s.quiet v = true → exec .pasdel s = .next
        (((((((s.dropRecords v).dropPoints v).tlbInvalidate v 0 true).handleInvalidate v 0 true).releaseGranules v).setPasid v {}).endPacket 0 p.index 0
          p.dws))) ∧
    ((s.queue 0).started.filter (fun x => isCommand 12 x.dws) = [p] →
      ((s.tasks.any fun x => x.2.state.live) = true → exec .wreset s = .next s.cancelAll) ∧
      ((s.tasks.any fun x => x.2.state.live) = false → s.idle = true → exec .wreset s = .next (s.endPacket 0 p.index 0 p.dws).warm)))

/-! ### Number formats -/

/-- R79, R81: FCVTI rounds to an integer under RM and clamps to DFMT's range, a NaN giving 0, an infinity the range's end; ICVT gives
v ≠ 0 in BOOL, v clamped under SAT, and the low bits of v otherwise, v being A's value in the signedness of its format. -/
def Obligations.IntegerConversion : Prop :=
  ∀ (b : LBlk) (s : State) (i : Instr) (a : Runs) (h : Hot) (lo hi : Int),
    (b.dfmt, lo, hi) ∈ [(4, -2147483648, 2147483647), (5, -32768, 32767), (6, -128, 127), (7, -8, 7), (8, 0, 4294967295), (10, 0, 1)] →
    i = .fcvti b ∨ i = .icvt b → s.IssuesOnce i → s.Reads i b.a b.fmt (b.counters 0) a h →
    ∃ y : Runs, y.total = a.total ∧ (∀ o, s.Delivers i b b.dfmt a.total y h o → exec i s = .next (s.ran i none o)) ∧
      ∀ p < a.total,
        (i = .fcvti b → y.at_ p = wrapTo (fmtWidth b.dfmt) (match (fmtOf b.fmt).value (a.at_ p) with
          | .nan => 0
          | .inf neg => if neg then lo else hi
          | .fin neg m e => max lo (min hi (roundInt b.rm neg m e)))) ∧
        (i = .icvt b → ∀ v, (b.fmt, v) ∈ [(4, signed 32 (a.at_ p)), (5, signed 16 (a.at_ p)), (6, signed 8 (a.at_ p)), (7, signed 4 (a.at_ p)),
            (8, ((a.at_ p % 2 ^ 32 : Nat) : Int)), (10, ((a.at_ p % 2 : Nat) : Int))] →
          y.at_ p = if b.dfmt = 10 then (if v = 0 then 0 else 1)
            else if b.sat = 1 then wrapTo (fmtWidth b.dfmt) (max lo (min hi v)) else wrapTo (fmtWidth b.dfmt) v)

/-! ### Memory -/

/-- R149, R154 to R157, R164, R185, R273: what a home does with an access. A write stores its bits, a step stores f of the old value and
returns it; a partial access to a poisoned unit does nothing and is reported; only the bytes of its elements change, where the
access is ordered and at a copied chunk's second place. -/
def Obligations.PlacedAccess : Prop :=
  ∀ (s t : State) (a : Access) (ws : List TileWrite) (e : Option BlockFault), s.performAccess a = (t, ws, e) →
    (∀ m x, (∀ k o, a.place = .tier k → o ∈ a.ops → ¬ s.Touches k o m x) → (t.tierMem m).byte x = (s.tierMem m).byte x) ∧
    (∀ x, (a.place = .clusterPool → ∀ o ∈ a.ops, ¬ o.covers x) → t.clusterPool.byte x = s.clusterPool.byte x) ∧
    (∀ x, (a.place = .diePool → ∀ o ∈ a.ops, ¬ o.covers x) → t.diePool.byte x = s.diePool.byte x) ∧
    t.supmem = s.supmem ∧ t.slots = s.slots ∧ t.tasks = s.tasks ∧ t.forks = s.forks ∧ t.harts = s.harts ∧ t.pasids = s.pasids ∧
    (∀ k o, a.place = .tier k → a.ops = [o] → o.bit % 8 = 0 → o.w % 8 = 0 → s.perc.motions = [] → (s.tierMem k).wf = true →
      Map.get false s.poison (poisonKey a.place a.unit) = false →
      (∀ v, o.kind = .write v → (t.tierMem k).nat (o.bit / 8) (o.w / 8) = v % 2 ^ o.w ∧ ws = [] ∧ e = none) ∧
      (∀ f v c ret, o.kind = .rmw f v c ret → (t.tierMem k).nat (o.bit / 8) (o.w / 8) = f.apply ((s.tierMem k).nat (o.bit / 8) (o.w / 8)) v c % 2 ^ o.w ∧
        e = none ∧ ws = (match ret with | some b => [.tp b o.w ((s.tierMem k).nat (o.bit / 8) (o.w / 8))] | none => []))) ∧
    (∀ k, a.place = .tier k → s.perc.motions = [] → Map.get false s.poison (poisonKey a.place a.unit) = true →
      coversUnit (a.unit * 32 * 8) 32 a.ops = false → (∀ m, t.tierMem m = s.tierMem m) ∧
        e = some { cause := .poison, fva := a.va, acc := a.acc, ctr := a.ctr })

/-! ### Encoding -/

/-- R17 to R50: a well-formed block decodes to itself from the words that encode it, with every operand at every value its encoding
admits, for the engine and at the address it is well-formed for. -/
def Obligations.BlockRoundTrip : Prop :=
  ∀ (e : Engine) (addr : Nat) (i : Instr), i.isBlock = true → wellFormed e addr i = true → decode e addr (encode i) = .ok i

/-- R20 to R22: what the decoder accepts is well-formed, and encodes to the very words it was read from: no bit of them is dropped. -/
def Obligations.DecodeSound : Prop :=
  ∀ (e : Engine) (addr : Nat) (ws : List Nat) (i : Instr), decode e addr ws = .ok i →
    i.isBlock = true ∧ wellFormed e addr i = true ∧ encode i = ws

/-- R49, R50: a custom-0 word is the X-form that its funct3 and funct7 name, with its register numbers, if the registers that form does
not use are x0; every other custom-0 word is the illegal instruction, which takes the hart's illegal-instruction exception and changes
nothing but that hart. -/
def Obligations.XEncoding : Prop :=
  ∀ (w f3 f7 rd rs1 rs2 : Nat), w = 0x0B + 2 ^ 7 * rd + 2 ^ 12 * f3 + 2 ^ 15 * rs1 + 2 ^ 20 * rs2 + 2 ^ 25 * f7 →
    rd < 32 → f3 < 8 → rs1 < 32 → rs2 < 32 → f7 < 128 →
    (∀ k u1 u2, (f3, f7, k, u1, u2) ∈ xTable →
      ((u1 = true ∨ rs1 = 0) → (u2 = true ∨ rs2 = 0) → decodeX w = k rd rs1 rs2 ∧ encodeX (k rd rs1 rs2) = some w) ∧
      ((u1 = false ∧ rs1 ≠ 0) ∨ (u2 = false ∧ rs2 ≠ 0) → decodeX w = .illegalInstruction w)) ∧
    ((∀ k u1 u2, (f3, f7, k, u1, u2) ∉ xTable) → decodeX w = .illegalInstruction w) ∧
    (∀ s : State, exec (.illegalInstruction w) s = .next (s.setHart s.hart ((s.hartAt s.hart).trapIllegal w)))

/-- R23 to R50: words written out from the spec's encodings decode to the instructions they stand for: one of several families, and
some that break a rule of R20 to R25. -/
def Obligations.DecodeWords : Prop :=
  -- END with SBWAIT of slot 1: OP 1, bit 20
  decode .vxe 0x20 [0x100001, 0, 0, 0] = .ok (.endChain { sbwait := 1 }) ∧
  -- LINK to 0x1000
  decode .lde 0 [2, 0, 0x1000, 0] = .ok (.link {} 0x1000) ∧
  -- SEMI of semaphore 5 to 7, class 3
  decode .ste 0 [0x300, 0, 5, 7] = .ok (.semi {} 5 7) ∧
  -- a signal of 1 to semaphore 9: SSEM at bit 32, SCNT at bit 42
  decode .mxe 0 [0, 9 * 2 ^ 32 + 2 ^ 42, 0, 0] = .ok (.nop { ssem := 9, scnt := 1 }) ∧
  -- MPIN of 3 pages at rb2 + 0x10000
  decode .ste 0 [0x902, 0, 2 * 2 ^ 45 + 0x10000, 2] = .ok (.mpin {} 2 0x10000 2) ∧
  -- TKPOST x5, x6, x7 and PCLCFG x1, x2, x3
  decodeX (0x0B + 5 * 2 ^ 7 + 6 * 2 ^ 15 + 7 * 2 ^ 20) = .tkpost 5 6 7 ∧
  decodeX (0x0B + 1 * 2 ^ 7 + 6 * 2 ^ 12 + 2 * 2 ^ 15 + 3 * 2 ^ 20 + 3 * 2 ^ 25) = .pclcfg 1 2 3 ∧
  -- class 10, major opcode 0x0E of class 0, a reserved bit of NOP, an L-form off 128 bytes
  decode .lde 0 [0xA00, 0, 0, 0] = .error .illegalClass ∧
  decode .lde 0 [0x0E, 0, 0, 0] = .error .illegalOpcode ∧
  decode .lde 0 [0, 0, 1, 0] = .error .reservedField ∧
  decode .lde 0x20 (0x1000 :: List.replicate 15 0) = .error .misalignedBlock

/-! ### Steps -/

/-- R87, R88, R167, R278, R307, R310, R50 (and log 1): what a step runs. A watchdog at its limit and the end of a decay period come
before any later turn. A sequencer's turn runs the block at the head of its queue, decoded, when the engine grants it, and first a
block that has paused; a supervisor's turn runs the decoded custom-0 word at its pc, every other word being outside the scope; an
event's turn runs the event. The sectors that fail in a turn are met as it begins (R338, log 33). A module without power only waits
for a cold reset. -/
def Obligations.StepTurns : Prop :=
  ∀ (s t : State) (p : Pending) (r : EngRef) (c : Nat) (i : Instr), s.nextTurn = p →
    (s.mgmt.powered = true → s.dueIn p.dt = none → p.turn = .engine r → r.ok = true → t = ({ s.begin p s.agenda.tail with ref := r } : State).watchHead r →
      (∀ f, (t.runsOn r)[p.env.pass]? = some f → step s = exec f.instr t) ∧
      (∀ q rest, (t.runsOn r)[p.env.pass]? = none → (t.chain r).queue = q :: rest → q.addr = (t.chain r).cursor →
        q.fault = none → decode r.eng q.addr q.words = .ok i → (t.chain r).refusal = none → (t.chain r).guardDue i = false →
        (t.ctx r).skips i = false →
        (t.gate r i ≠ .brk → t.mayGrant r = true → t.yieldsTo r i = false → t.addsLate r i = false → step s = exec i (t.grant r)) ∧
        (t.gate r i ≠ .brk → t.mayGrant r = false ∨ t.yieldsTo r i = true ∨ t.addsLate r i = true → step s = .next t) ∧
        (t.gate r i = .brk → step s = exec i t)) ∧
      ((t.runsOn r)[p.env.pass]? = none → (t.chain r).queue = [] → step s = exec (.blockFetch r) t)) ∧
    (s.mgmt.powered = true → s.dueIn p.dt = none → p.turn = .supervisor c → c < 32 → t = { s.begin p s.agenda.tail with hart := c } →
      (t.supmem.nat (t.hartAt c).pc 4 % 128 = 0x0B → step s = exec (decodeX (t.supmem.nat (t.hartAt c).pc 4)) t) ∧
      (t.supmem.nat (t.hartAt c).pc 4 % 128 ≠ 0x0B → step s = .refused .rv64Instruction)) ∧
    (s.mgmt.powered = true → s.dueIn p.dt = none → p.turn = .event i → (lParts i).isNone = true → (sParts i).isNone = true →
      (xParts i).isNone = true → step s = exec i (s.begin p s.agenda.tail)) ∧
    (s.mgmt.powered = true → ∀ n j, s.dueIn p.dt = some (n, j) → n ≤ p.dt ∧ (j = .hotnessDecay ∨ ∃ tile slot, j = .watchdog tile slot) ∧
      step s = exec j (s.begin { dt := n, turn := .event j } ({ p with dt := p.dt - n } :: s.agenda.tail))) ∧
    (s.mgmt.powered = false → p.turn ≠ .event .coldReset → step s = .next (s.begin p s.agenda.tail)) ∧
    (p.dt = 0 → s.begin p s.agenda.tail = ({ s with agenda := s.agenda.tail, steps := s.steps + 1, env := p.env } : State).meetSectors ∧
      ((∀ m k b, Failure.sector m k b ∉ p.env.fails) →
        s.begin p s.agenda.tail = { s with agenda := s.agenda.tail, steps := s.steps + 1, env := p.env }))

/-! ### Reset and the invariant -/

/-- The machine right after reset. R310: a slot's watchdog limit is 2^32 cycles; R280: the Percolator's parameters; R352: queue 0 is the
administrative queue; no task, fork, launch, PASID, motion or fault is about. The model's choices, not the spec's: the cycle stamp is 0, no
tile is in hashed mode, the tables and the Thyme buffer are empty (log 3), memory reads as zero (log 4), the supervisors start in machine
mode at 0 (log 5), the Percolator's frames are the last 4,096 pages of each tier of the module (log 6). -/
def Obligations.ResetState : Prop :=
  (∀ tile slot, State.reset.slotAt tile slot = { wdLimit := 2 ^ 32, wdActive := 2 ^ 32 } ∧ (State.reset.slotAt tile slot).task = none) ∧
  (∀ m a, (State.reset.tierMem m).byte a = 0) ∧ (∀ c, State.reset.hartAt c = { mode := 3, pc := 0 }) ∧
  (∀ p, (State.reset.pasid p).valid = false) ∧ (∀ t, (State.reset.tile t).hashed = false) ∧
  (∀ q, (State.reset.queue q).present = decide (q = 0)) ∧ (∀ d, (State.reset.die d).recs = [] ∧ (State.reset.die d).held = [] ∧
    (State.reset.die d).head = 0 ∧ (State.reset.die d).tail = 0 ∧ (State.reset.die d).seq = 0) ∧ State.reset.tasks = [] ∧ State.reset.forks = [] ∧ State.reset.launches = [] ∧
  [State.reset.perc.promo, State.reset.perc.demo, State.reset.perc.decay, State.reset.perc.sample, State.reset.perc.lowmark,
    State.reset.perc.auto] = [192, 8, 15259, 4, 16, 1] ∧
  (∀ m size, (m, size) ∈ [(Tier.hbm, 768 * 2 ^ 30), (.lpddr, 2 ^ 40), (.cxl, 2 ^ 46)] →
    State.reset.perc.pool m = { next := size - 4096 * pageBytes, left := 4096 }) ∧
  State.reset.perc.motions = [] ∧ State.reset.thyme = [] ∧ State.reset.cycle = 0

/-- The invariant holds right after reset. -/
def Obligations.ResetInvariant : Prop := State.reset.Inv

/-- Every step keeps the invariant. -/
def Obligations.StepInvariant : Prop := ∀ s t : State, s.Inv → step s = .next t → t.Inv
end

