-- ==== Sys2Proof/Laws/Fields.lean ====
section
/-! SUPPORT. Packing fields into a word and pulling them out again. -/

namespace Sys2Proof

theorem bits_lt (x lo w : Nat) : bits x lo w < 2 ^ w := Nat.mod_lt _ (by positivity)

@[simp] theorem bits_zero (lo w : Nat) : bits 0 lo w = 0 := by simp [bits]

theorem bits_all {x w : Nat} (h : x < 2 ^ w) : bits x 0 w = x := by simp [bits, Nat.mod_eq_of_lt h]

/-- The lowest field of a packed word. -/
@[simp] theorem bits_wordOf_head (w v : Nat) (l : List (Nat × Nat)) : bits (wordOf ((w, v) :: l)) 0 w = v % 2 ^ w := by
  simp [bits, wordOf]

/-- A field above the lowest one stands in the rest of the word. -/
@[simp] theorem bits_wordOf_tail {w lo : Nat} (v n : Nat) (l : List (Nat × Nat)) (h : w ≤ lo) :
    bits (wordOf ((w, v) :: l)) lo n = bits (wordOf l) (lo - w) n := by
  obtain ⟨k, rfl⟩ := Nat.exists_eq_add_of_le h
  have hw : 0 < 2 ^ w := by positivity
  rw [Nat.add_sub_cancel_left, bits, bits, wordOf, pow_add, ← Nat.div_div_eq_div_mul, Nat.add_mul_div_left _ _ hw,
    Nat.div_eq_of_lt (Nat.mod_lt _ hw), Nat.zero_add]

@[simp] theorem bits_wordOf_nil (lo w : Nat) : bits (wordOf []) lo w = 0 := bits_zero lo w

/-- A packed word has no more bits than its fields. -/
theorem wordOf_lt (l : List (Nat × Nat)) : wordOf l < 2 ^ (l.map Prod.fst).sum := by
  induction l with
  | nil => simp [wordOf]
  | cons p l ih =>
    obtain ⟨w, v⟩ := p
    have : v % 2 ^ w < 2 ^ w := Nat.mod_lt _ (by positivity)
    have h2 : 2 ^ w * (wordOf l + 1) ≤ 2 ^ w * 2 ^ (l.map Prod.fst).sum := Nat.mul_le_mul_left _ ih
    simp only [wordOf, List.map_cons, List.sum_cons, pow_add]
    rw [Nat.mul_add, Nat.mul_one] at h2
    omega

/-- Packing the fields of a word gives the word again. -/
theorem wordOf_fieldsOf (ws : List Nat) (x : Nat) :
    wordOf (ws.zip (fieldsOf ws x)) = x % 2 ^ ws.sum := by
  induction ws generalizing x with
  | nil => simp [wordOf, fieldsOf, Nat.mod_one]
  | cons w ws ih =>
    simp only [fieldsOf, List.zip_cons_cons, wordOf, ih, List.sum_cons, pow_add, Nat.mod_mod]
    rw [Nat.mod_mul]

end Sys2Proof
end

