-- ==== Sys2Proof/Laws/Sparse.lean ====
section
/-! SUPPORT. What the operations of sparse maps and memories do: reading after writing, and the canonical form. -/

namespace Sys2Proof

section
variable {α : Type}

theorem Map.risingFrom_mono {lo lo' : Nat} (h : lo' ≤ lo) : ∀ {m : Map α}, Map.risingFrom lo m → Map.risingFrom lo' m
  | [], _ => trivial
  | (_, _) :: _, hm => ⟨Nat.le_trans h hm.1, hm.2⟩

theorem Map.get_of_lt (d : α) : ∀ {lo : Nat} {m : Map α} {n : Nat}, Map.risingFrom lo m → n < lo → Map.get d m n = d
  | _, [], _, _, _ => rfl
  | lo, (k, v) :: m, n, hm, hn => by
    have h1 : lo ≤ k := hm.1
    have h2 : n ≠ k := by omega
    rw [Map.get, if_neg h2]
    exact Map.get_of_lt d hm.2 (by omega)

theorem Map.risingFrom_filter (p : Nat × α → Bool) : ∀ {lo : Nat} {m : Map α}, Map.risingFrom lo m → Map.risingFrom lo (m.filter p)
  | _, [], _ => trivial
  | lo, (k, v) :: m, hm => by
    have h := Map.risingFrom_filter p hm.2
    by_cases hp : p (k, v) = true
    · rw [List.filter_cons_of_pos hp]
      exact ⟨hm.1, h⟩
    · rw [List.filter_cons_of_neg hp]
      exact Map.risingFrom_mono (by have := hm.1; omega) h

@[simp] theorem Map.rising_filter {m : Map α} (hm : m.rising) (p : Nat × α → Bool) : Map.rising (m.filter p) :=
  Map.risingFrom_filter p hm

theorem Map.risingFrom_mapVals {β : Type} (f : Nat × α → Nat × β) (hf : ∀ x, (f x).1 = x.1) :
    ∀ {lo : Nat} {m : Map α}, Map.risingFrom lo m → Map.risingFrom lo (m.map f)
  | _, [], _ => trivial
  | lo, x :: m, hm => by
    have h := Map.risingFrom_mapVals f hf hm.2
    have h1 := hf x
    show lo ≤ (f x).1 ∧ Map.risingFrom ((f x).1 + 1) (m.map f)
    rw [h1]
    exact ⟨hm.1, h⟩

/-- A change of every value leaves the keys as they are. -/
theorem Map.rising_mapVals {β : Type} {m : Map α} (hm : m.rising) (f : Nat × α → Nat × β) (hf : ∀ x, (f x).1 = x.1) : Map.rising (m.map f) :=
  Map.risingFrom_mapVals f hf hm

variable [DecidableEq α] (d : α)

theorem Map.get_set_other {n k : Nat} (h : k ≠ n) (v : α) : ∀ m : Map α, Map.get d (Map.set d m n v) k = Map.get d m k
  | [] => by by_cases hv : v = d <;> simp [Map.set, Map.get, hv, h]
  | (j, w) :: m => by
    by_cases h1 : n < j
    · by_cases hv : v = d <;> simp [Map.set, Map.get, h1, hv, h]
    · by_cases h2 : n = j
      · subst h2
        by_cases hv : v = d <;> simp [Map.set, Map.get, hv, h]
      · simp [Map.set, Map.get, h1, h2, Map.get_set_other h v m]

/-- A value that is listed is read back, whatever the list. -/
theorem Map.get_set_ne {n : Nat} {v : α} (h : v ≠ d) : ∀ m : Map α, Map.get d (Map.set d m n v) n = v
  | [] => by simp [Map.set, h, Map.get]
  | (k, w) :: m => by
    rw [Map.set]
    split
    · simp [Map.get]
    · split
      · simp [Map.get]
      · rename_i h2
        rw [Map.get, if_neg h2]
        exact Map.get_set_ne h m

theorem Map.get_set_self {n : Nat} (v : α) : ∀ {lo : Nat} {m : Map α}, Map.risingFrom lo m → Map.get d (Map.set d m n v) n = v
  | _, [], _ => by by_cases hv : v = d <;> simp [Map.set, Map.get, hv]
  | lo, (j, w) :: m, hm => by
    by_cases h1 : n < j
    · by_cases hv : v = d
      · have h3 : n ≠ j := by omega
        have h2 : Map.get d m n = d := Map.get_of_lt d hm.2 (by omega)
        simp [Map.set, Map.get, h1, hv, h3, h2]
      · simp [Map.set, Map.get, h1, hv]
    · by_cases h2 : n = j
      · subst h2
        by_cases hv : v = d
        · have h3 : Map.get d m n = d := Map.get_of_lt d hm.2 (by omega)
          simp [Map.set, hv, h3]
        · simp [Map.set, Map.get, hv]
      · simp [Map.set, Map.get, h1, h2, Map.get_set_self v hm.2]

/-- Reading after writing. -/
theorem Map.get_set {m : Map α} (hm : m.rising) (n k : Nat) (v : α) :
    Map.get d (Map.set d m n v) k = if k = n then v else Map.get d m k := by
  by_cases h : k = n
  · subst h; simp [Map.get_set_self d v hm]
  · simp [h, Map.get_set_other d h]

theorem Map.risingFrom_set (n : Nat) (v : α) : ∀ {lo : Nat} {m : Map α}, lo ≤ n → Map.risingFrom lo m → Map.risingFrom lo (Map.set d m n v)
  | lo, [], hn, _ => by by_cases hv : v = d <;> simp [Map.set, hv, Map.risingFrom, hn]
  | lo, (j, w) :: m, hn, hm => by
    have h0 : lo ≤ j := hm.1
    by_cases h1 : n < j
    · by_cases hv : v = d
      · simpa [Map.set, h1, hv] using hm
      · simp only [Map.set, h1, hv, if_true, if_false]
        exact ⟨hn, h1, hm.2⟩
    · by_cases h2 : n = j
      · subst h2
        by_cases hv : v = d
        · simpa [Map.set, hv] using Map.risingFrom_mono (by omega) hm.2
        · simp only [Map.set, hv, lt_self_iff_false, if_true, if_false]
          exact ⟨hn, hm.2⟩
      · simp only [Map.set, h1, h2, if_false]
        exact ⟨h0, Map.risingFrom_set n v (by omega) hm.2⟩

@[simp] theorem Map.rising_set {m : Map α} (hm : m.rising) (n : Nat) (v : α) : (Map.set d m n v).rising :=
  Map.risingFrom_set d n v (Nat.zero_le _) hm

@[simp] theorem Map.rising_upd {m : Map α} (hm : m.rising) (n : Nat) (f : α → α) : (Map.upd d m n f).rising :=
  Map.rising_set d hm n _

/-! ### The canonical form -/

theorem Map.wfFrom_rising : ∀ {lo : Nat} {m : Map α}, Map.wfFrom d lo m = true → Map.risingFrom lo m
  | _, [], _ => trivial
  | lo, (k, v) :: m, h => by
    simp only [Map.wfFrom, Bool.and_eq_true, decide_eq_true_eq] at h
    exact ⟨h.1.1, Map.wfFrom_rising h.2⟩

theorem Map.wf_rising {m : Map α} (h : Map.wf d m = true) : m.rising := Map.wfFrom_rising d h

theorem Map.wfFrom_mono {lo lo' : Nat} (h : lo' ≤ lo) : ∀ {m : Map α}, Map.wfFrom d lo m = true → Map.wfFrom d lo' m = true
  | [], _ => rfl
  | (k, v) :: m, hm => by
    simp only [Map.wfFrom, Bool.and_eq_true, decide_eq_true_eq] at hm ⊢
    exact ⟨⟨Nat.le_trans h hm.1.1, hm.1.2⟩, hm.2⟩

theorem Map.wfFrom_set (n : Nat) (v : α) : ∀ {lo : Nat} {m : Map α}, lo ≤ n → Map.wfFrom d lo m = true → Map.wfFrom d lo (Map.set d m n v) = true
  | lo, [], hn, _ => by by_cases hv : v = d <;> simp [Map.set, hv, Map.wfFrom, hn]
  | lo, (j, w) :: m, hn, hm => by
    have hm' := hm
    simp only [Map.wfFrom, Bool.and_eq_true, decide_eq_true_eq] at hm'
    by_cases h1 : n < j
    · by_cases hv : v = d
      · simpa [Map.set, h1, hv] using hm
      · simp only [Map.set, h1, hv, if_true, if_false, Map.wfFrom, Bool.and_eq_true, decide_eq_true_eq, ne_eq, not_false_eq_true, and_true]
        exact ⟨hn, ⟨⟨h1, hm'.1.2⟩, hm'.2⟩⟩
    · by_cases h2 : n = j
      · subst h2
        by_cases hv : v = d
        · simpa [Map.set, hv] using Map.wfFrom_mono d (by omega) hm'.2
        · simp only [Map.set, hv, lt_self_iff_false, if_true, if_false, Map.wfFrom, Bool.and_eq_true, decide_eq_true_eq, ne_eq, not_false_eq_true, and_true]
          exact ⟨hn, hm'.2⟩
      · simp only [Map.set, h1, h2, if_false, Map.wfFrom, Bool.and_eq_true, decide_eq_true_eq]
        exact ⟨hm'.1, Map.wfFrom_set n v (by omega) hm'.2⟩

/-- Every write keeps the canonical form. -/
@[simp] theorem Map.wf_set {m : Map α} (hm : Map.wf d m = true) (n : Nat) (v : α) : Map.wf d (Map.set d m n v) = true :=
  Map.wfFrom_set d n v (Nat.zero_le _) hm

theorem Map.wfFrom_filter (p : Nat × α → Bool) : ∀ {lo : Nat} {m : Map α}, Map.wfFrom d lo m = true → Map.wfFrom d lo (m.filter p) = true
  | _, [], _ => rfl
  | lo, (k, v) :: m, hm => by
    simp only [Map.wfFrom, Bool.and_eq_true, decide_eq_true_eq] at hm
    have h := Map.wfFrom_filter p hm.2
    by_cases hp : p (k, v) = true
    · rw [List.filter_cons_of_pos hp]
      simp only [Map.wfFrom, Bool.and_eq_true, decide_eq_true_eq]
      exact ⟨hm.1, h⟩
    · rw [List.filter_cons_of_neg hp]
      exact Map.wfFrom_mono d (by omega) h

/-- Dropping entries keeps the canonical form. -/
theorem Map.wf_filter {m : Map α} (hm : Map.wf d m = true) (p : Nat × α → Bool) : Map.wf d (m.filter p) = true := Map.wfFrom_filter d p hm

theorem Map.wfFrom_ext : ∀ {lo : Nat} {m m' : Map α}, Map.wfFrom d lo m = true → Map.wfFrom d lo m' = true →
    (∀ n, Map.get d m n = Map.get d m' n) → m = m'
  | _, [], [], _, _, _ => rfl
  | lo, [], (k, v) :: m, _, h, he => by
    simp only [Map.wfFrom, Bool.and_eq_true, decide_eq_true_eq] at h
    exact absurd (he k).symm (by simpa [Map.get] using h.1.2)
  | lo, (k, v) :: m, [], h, _, he => by
    simp only [Map.wfFrom, Bool.and_eq_true, decide_eq_true_eq] at h
    exact absurd (he k) (by simpa [Map.get] using h.1.2)
  | lo, (k, v) :: m, (k', v') :: m', h, h', he => by
    have hr := Map.wfFrom_rising d h
    have hr' := Map.wfFrom_rising d h'
    simp only [Map.wfFrom, Bool.and_eq_true, decide_eq_true_eq] at h h'
    have hk : k = k' := by
      rcases lt_trichotomy k k' with hlt | heq | hgt
      · have h1 := he k
        rw [Map.get, if_pos rfl, Map.get, if_neg (by omega), Map.get_of_lt d hr'.2 (by omega)] at h1
        exact absurd h1 h.1.2
      · exact heq
      · have h1 := he k'
        rw [Map.get, if_neg (by omega), Map.get_of_lt d hr.2 (by omega), Map.get, if_pos rfl] at h1
        exact absurd h1.symm h'.1.2
    subst hk
    have hv : v = v' := by simpa [Map.get] using he k
    subst hv
    have ht : m = m' := Map.wfFrom_ext h.2 h'.2 fun n => by
      by_cases hn : n = k
      · subst hn; rw [Map.get_of_lt d hr.2 (by omega), Map.get_of_lt d hr'.2 (by omega)]
      · have h1 := he n
        rwa [Map.get, if_neg hn, Map.get, if_neg hn] at h1
    rw [ht]

/-- Equal contents are equal data. -/
theorem Map.ext_of_wf {m m' : Map α} (h : Map.wf d m = true) (h' : Map.wf d m' = true) (he : ∀ n, Map.get d m n = Map.get d m' n) : m = m' :=
  Map.wfFrom_ext d h h' he

end

/-! ### Memory -/

theorem Memory.byte_put_other {a b : Nat} (h : b ≠ a) (m : Memory) (x : Byte) : (Memory.put m a x).byte b = m.byte b :=
  Map.get_set_other 0 h x m

theorem Memory.byte_put_self {m : Memory} (hm : m.wf = true) (a : Nat) (x : Byte) : (Memory.put m a x).byte a = x :=
  Map.get_set_self 0 x (Map.wf_rising 0 hm)

@[simp] theorem Memory.wf_put {m : Memory} (hm : m.wf = true) (a : Nat) (x : Byte) : (Memory.put m a x).wf = true := Map.wf_set 0 hm a x

@[simp] theorem Memory.wf_putNat (n : Nat) : ∀ {m : Memory} (a x : Nat), m.wf = true → (Memory.putNat m a n x).wf = true := by
  induction n with
  | zero => intro m a x hm; exact hm
  | succ n ih => intro m a x hm; exact ih (a + 1) (x / 256) (Memory.wf_put hm a _)

@[simp] theorem Memory.wf_putBits {m : Memory} (hm : m.wf = true) (i w v : Nat) : (Memory.putBits m i w v).wf = true := by
  unfold Memory.putBits
  split
  · exact Memory.wf_putNat _ _ _ hm
  · exact Memory.wf_putNat _ _ _ hm

@[simp] theorem Memory.wf_write : ∀ (bs : List Byte) {m : Memory} (a : Nat), m.wf = true → (Memory.write m a bs).wf = true
  | [], _, _, hm => hm
  | b :: bs, _, a, hm => Memory.wf_write bs (a + 1) (Memory.wf_put hm a b)

@[simp] theorem Memory.wf_nil : Memory.wf [] = true := rfl

/-- A write of n bytes leaves every byte outside them. -/
theorem Memory.byte_putNat_other (n : Nat) : ∀ (m : Memory) {a b : Nat} (x : Nat), b < a ∨ a + n ≤ b → (Memory.putNat m a n x).byte b = m.byte b := by
  induction n with
  | zero => intro m a b x _; rfl
  | succ n ih =>
    intro m a b x h
    rw [Memory.putNat, ih _ _ (by omega), Memory.byte_put_other (by omega)]

/-- Byte j of a number that has been written. -/
theorem Memory.byte_putNat (n : Nat) : ∀ {m : Memory} (a x j : Nat), m.wf = true → j < n →
    (Memory.putNat m a n x).byte (a + j) = BitVec.ofNat 8 (x / 256 ^ j) := by
  induction n with
  | zero => intro m a x j _ h; omega
  | succ n ih =>
    intro m a x j hm h
    rw [Memory.putNat]
    rcases j with _ | j
    · rw [Memory.byte_putNat_other n _ _ (by omega), Nat.add_zero, Memory.byte_put_self hm]; simp
    · have h1 := ih (a + 1) (x / 256) j (Memory.wf_put hm a (BitVec.ofNat 8 x)) (by omega)
      rw [show a + (j + 1) = a + 1 + j by omega, h1, Nat.pow_succ, Nat.div_div_eq_div_mul, Nat.mul_comm]

/-- Reading a number after writing it. -/
theorem Memory.nat_putNat (n : Nat) : ∀ {m : Memory} (a x : Nat), m.wf = true → (Memory.putNat m a n x).nat a n = x % 256 ^ n := by
  induction n with
  | zero => intro m a x _; simp [Memory.nat, Nat.mod_one]
  | succ n ih =>
    intro m a x hm
    rw [Memory.nat, Memory.putNat, ih (a + 1) _ (Memory.wf_put hm a _), Memory.byte_putNat_other n _ _ (by omega), Memory.byte_put_self hm]
    rw [BitVec.toNat_ofNat, Nat.pow_succ' (m := 256), Nat.mod_mul (a := 256)]

/-- Reading a number elsewhere. -/
theorem Memory.nat_putNat_other (n k : Nat) : ∀ (m : Memory) {a b : Nat} (x : Nat), b + k ≤ a ∨ a + n ≤ b →
    (Memory.putNat m a n x).nat b k = m.nat b k := by
  induction k with
  | zero => intro m a b x _; rfl
  | succ k ih => intro m a b x h; rw [Memory.nat, Memory.nat, Memory.byte_putNat_other n m x (by omega), ih m x (by omega)]

theorem Memory.nat_lt (n : Nat) : ∀ (m : Memory) (a : Nat), m.nat a n < 256 ^ n := by
  induction n with
  | zero => intro m a; simp [Memory.nat]
  | succ n ih =>
    intro m a
    have h1 := ih m (a + 1)
    have h2 := (m.byte a).isLt
    rw [Memory.nat, Nat.pow_succ]
    omega

/-- A write of w bits leaves every byte that holds none of them. -/
theorem Memory.byte_putBits_other (m : Memory) {i w b : Nat} (v : Nat) (h : b < i / 8 ∨ (i + w + 7) / 8 ≤ b) :
    (Memory.putBits m i w v).byte b = m.byte b := by
  unfold Memory.putBits
  split
  · rename_i h0
    exact Memory.byte_putNat_other _ _ _ (by omega)
  · exact Memory.byte_putNat_other _ _ _ (by omega)

end Sys2Proof
end

