-- ==== Sys2Proof/Laws/State.lean ====
section
/-! SUPPORT. What each basic update of State changes, and that it changes nothing else. -/

namespace Sys2Proof.Machine

/-! ### Setters leave every other field alone -/

@[simp] theorem State.setSlot_frame (s : State) (t k : Nat) (x : Slot) :
    (s.setSlot t k x).agenda = s.agenda ∧ (s.setSlot t k x).steps = s.steps ∧ (s.setSlot t k x).ref = s.ref ∧ (s.setSlot t k x).hart = s.hart ∧
    (s.setSlot t k x).env = s.env ∧ (s.setSlot t k x).cycle = s.cycle ∧ (s.setSlot t k x).hbm = s.hbm ∧ (s.setSlot t k x).lpddr = s.lpddr ∧
    (s.setSlot t k x).cxl = s.cxl ∧ (s.setSlot t k x).host = s.host ∧ (s.setSlot t k x).clusterPool = s.clusterPool ∧
    (s.setSlot t k x).diePool = s.diePool ∧ (s.setSlot t k x).supmem = s.supmem ∧ (s.setSlot t k x).poison = s.poison ∧
    (s.setSlot t k x).granules = s.granules ∧ (s.setSlot t k x).granuleFrom = s.granuleFrom ∧ (s.setSlot t k x).granulesOut = s.granulesOut ∧
    (s.setSlot t k x).pasids = s.pasids ∧ (s.setSlot t k x).tiles = s.tiles ∧ (s.setSlot t k x).clusterTlb = s.clusterTlb ∧
    (s.setSlot t k x).carafeTlb = s.carafeTlb ∧ (s.setSlot t k x).tasks = s.tasks ∧ (s.setSlot t k x).nextTask = s.nextTask ∧
    (s.setSlot t k x).forks = s.forks ∧ (s.setSlot t k x).launches = s.launches ∧ (s.setSlot t k x).points = s.points ∧
    (s.setSlot t k x).dies = s.dies ∧ (s.setSlot t k x).faultQueues = s.faultQueues ∧ (s.setSlot t k x).faultIrqs = s.faultIrqs ∧
    (s.setSlot t k x).thyme = s.thyme ∧ (s.setSlot t k x).perc = s.perc ∧ (s.setSlot t k x).queues = s.queues ∧
    (s.setSlot t k x).runLists = s.runLists ∧ (s.setSlot t k x).walkers = s.walkers ∧ (s.setSlot t k x).models = s.models ∧
    (s.setSlot t k x).mgmt = s.mgmt ∧ (s.setSlot t k x).harts = s.harts ∧ (s.setSlot t k x).history = s.history :=
  by refine ⟨?_, ?_, ?_, ?_, ?_, ?_, ?_, ?_, ?_, ?_, ?_, ?_, ?_, ?_, ?_, ?_, ?_, ?_, ?_, ?_, ?_, ?_, ?_, ?_, ?_, ?_, ?_, ?_, ?_, ?_, ?_, ?_, ?_, ?_, ?_, ?_, ?_, ?_⟩ <;> rfl

@[simp] theorem State.updSlot_frame (s : State) (t k : Nat) (f : Slot → Slot) :
    (s.updSlot t k f).agenda = s.agenda ∧ (s.updSlot t k f).steps = s.steps ∧ (s.updSlot t k f).ref = s.ref ∧ (s.updSlot t k f).hart = s.hart ∧
    (s.updSlot t k f).env = s.env ∧ (s.updSlot t k f).cycle = s.cycle ∧ (s.updSlot t k f).hbm = s.hbm ∧ (s.updSlot t k f).lpddr = s.lpddr ∧
    (s.updSlot t k f).cxl = s.cxl ∧ (s.updSlot t k f).host = s.host ∧ (s.updSlot t k f).clusterPool = s.clusterPool ∧
    (s.updSlot t k f).diePool = s.diePool ∧ (s.updSlot t k f).supmem = s.supmem ∧ (s.updSlot t k f).poison = s.poison ∧
    (s.updSlot t k f).granules = s.granules ∧ (s.updSlot t k f).granuleFrom = s.granuleFrom ∧ (s.updSlot t k f).granulesOut = s.granulesOut ∧
    (s.updSlot t k f).pasids = s.pasids ∧ (s.updSlot t k f).tiles = s.tiles ∧ (s.updSlot t k f).clusterTlb = s.clusterTlb ∧
    (s.updSlot t k f).carafeTlb = s.carafeTlb ∧ (s.updSlot t k f).tasks = s.tasks ∧ (s.updSlot t k f).nextTask = s.nextTask ∧
    (s.updSlot t k f).forks = s.forks ∧ (s.updSlot t k f).launches = s.launches ∧ (s.updSlot t k f).points = s.points ∧
    (s.updSlot t k f).dies = s.dies ∧ (s.updSlot t k f).faultQueues = s.faultQueues ∧ (s.updSlot t k f).faultIrqs = s.faultIrqs ∧
    (s.updSlot t k f).thyme = s.thyme ∧ (s.updSlot t k f).perc = s.perc ∧ (s.updSlot t k f).queues = s.queues ∧
    (s.updSlot t k f).runLists = s.runLists ∧ (s.updSlot t k f).walkers = s.walkers ∧ (s.updSlot t k f).models = s.models ∧
    (s.updSlot t k f).mgmt = s.mgmt ∧ (s.updSlot t k f).harts = s.harts ∧ (s.updSlot t k f).history = s.history :=
  by refine ⟨?_, ?_, ?_, ?_, ?_, ?_, ?_, ?_, ?_, ?_, ?_, ?_, ?_, ?_, ?_, ?_, ?_, ?_, ?_, ?_, ?_, ?_, ?_, ?_, ?_, ?_, ?_, ?_, ?_, ?_, ?_, ?_, ?_, ?_, ?_, ?_, ?_, ?_⟩ <;> rfl

@[simp] theorem State.setCtx_frame (s : State) (r : EngRef) (c : Ctx) :
    (s.setCtx r c).agenda = s.agenda ∧ (s.setCtx r c).steps = s.steps ∧ (s.setCtx r c).ref = s.ref ∧ (s.setCtx r c).hart = s.hart ∧
    (s.setCtx r c).env = s.env ∧ (s.setCtx r c).cycle = s.cycle ∧ (s.setCtx r c).hbm = s.hbm ∧ (s.setCtx r c).lpddr = s.lpddr ∧
    (s.setCtx r c).cxl = s.cxl ∧ (s.setCtx r c).host = s.host ∧ (s.setCtx r c).clusterPool = s.clusterPool ∧ (s.setCtx r c).diePool = s.diePool ∧
    (s.setCtx r c).supmem = s.supmem ∧ (s.setCtx r c).poison = s.poison ∧ (s.setCtx r c).granules = s.granules ∧
    (s.setCtx r c).granuleFrom = s.granuleFrom ∧ (s.setCtx r c).granulesOut = s.granulesOut ∧ (s.setCtx r c).pasids = s.pasids ∧
    (s.setCtx r c).tiles = s.tiles ∧ (s.setCtx r c).clusterTlb = s.clusterTlb ∧ (s.setCtx r c).carafeTlb = s.carafeTlb ∧
    (s.setCtx r c).tasks = s.tasks ∧ (s.setCtx r c).nextTask = s.nextTask ∧ (s.setCtx r c).forks = s.forks ∧ (s.setCtx r c).launches = s.launches ∧
    (s.setCtx r c).points = s.points ∧ (s.setCtx r c).dies = s.dies ∧ (s.setCtx r c).faultQueues = s.faultQueues ∧
    (s.setCtx r c).faultIrqs = s.faultIrqs ∧ (s.setCtx r c).thyme = s.thyme ∧ (s.setCtx r c).perc = s.perc ∧ (s.setCtx r c).queues = s.queues ∧
    (s.setCtx r c).runLists = s.runLists ∧ (s.setCtx r c).walkers = s.walkers ∧ (s.setCtx r c).models = s.models ∧ (s.setCtx r c).mgmt = s.mgmt ∧
    (s.setCtx r c).harts = s.harts ∧ (s.setCtx r c).history = s.history :=
  by refine ⟨?_, ?_, ?_, ?_, ?_, ?_, ?_, ?_, ?_, ?_, ?_, ?_, ?_, ?_, ?_, ?_, ?_, ?_, ?_, ?_, ?_, ?_, ?_, ?_, ?_, ?_, ?_, ?_, ?_, ?_, ?_, ?_, ?_, ?_, ?_, ?_, ?_, ?_⟩ <;> rfl

@[simp] theorem State.updCtx_frame (s : State) (r : EngRef) (f : Ctx → Ctx) :
    (s.updCtx r f).agenda = s.agenda ∧ (s.updCtx r f).steps = s.steps ∧ (s.updCtx r f).ref = s.ref ∧ (s.updCtx r f).hart = s.hart ∧
    (s.updCtx r f).env = s.env ∧ (s.updCtx r f).cycle = s.cycle ∧ (s.updCtx r f).hbm = s.hbm ∧ (s.updCtx r f).lpddr = s.lpddr ∧
    (s.updCtx r f).cxl = s.cxl ∧ (s.updCtx r f).host = s.host ∧ (s.updCtx r f).clusterPool = s.clusterPool ∧ (s.updCtx r f).diePool = s.diePool ∧
    (s.updCtx r f).supmem = s.supmem ∧ (s.updCtx r f).poison = s.poison ∧ (s.updCtx r f).granules = s.granules ∧
    (s.updCtx r f).granuleFrom = s.granuleFrom ∧ (s.updCtx r f).granulesOut = s.granulesOut ∧ (s.updCtx r f).pasids = s.pasids ∧
    (s.updCtx r f).tiles = s.tiles ∧ (s.updCtx r f).clusterTlb = s.clusterTlb ∧ (s.updCtx r f).carafeTlb = s.carafeTlb ∧
    (s.updCtx r f).tasks = s.tasks ∧ (s.updCtx r f).nextTask = s.nextTask ∧ (s.updCtx r f).forks = s.forks ∧ (s.updCtx r f).launches = s.launches ∧
    (s.updCtx r f).points = s.points ∧ (s.updCtx r f).dies = s.dies ∧ (s.updCtx r f).faultQueues = s.faultQueues ∧
    (s.updCtx r f).faultIrqs = s.faultIrqs ∧ (s.updCtx r f).thyme = s.thyme ∧ (s.updCtx r f).perc = s.perc ∧ (s.updCtx r f).queues = s.queues ∧
    (s.updCtx r f).runLists = s.runLists ∧ (s.updCtx r f).walkers = s.walkers ∧ (s.updCtx r f).models = s.models ∧ (s.updCtx r f).mgmt = s.mgmt ∧
    (s.updCtx r f).harts = s.harts ∧ (s.updCtx r f).history = s.history :=
  by refine ⟨?_, ?_, ?_, ?_, ?_, ?_, ?_, ?_, ?_, ?_, ?_, ?_, ?_, ?_, ?_, ?_, ?_, ?_, ?_, ?_, ?_, ?_, ?_, ?_, ?_, ?_, ?_, ?_, ?_, ?_, ?_, ?_, ?_, ?_, ?_, ?_, ?_, ?_⟩ <;> rfl

@[simp] theorem State.setChain_frame (s : State) (r : EngRef) (h : Chain) :
    (s.setChain r h).agenda = s.agenda ∧ (s.setChain r h).steps = s.steps ∧ (s.setChain r h).ref = s.ref ∧ (s.setChain r h).hart = s.hart ∧
    (s.setChain r h).env = s.env ∧ (s.setChain r h).cycle = s.cycle ∧ (s.setChain r h).hbm = s.hbm ∧ (s.setChain r h).lpddr = s.lpddr ∧
    (s.setChain r h).cxl = s.cxl ∧ (s.setChain r h).host = s.host ∧ (s.setChain r h).clusterPool = s.clusterPool ∧
    (s.setChain r h).diePool = s.diePool ∧ (s.setChain r h).supmem = s.supmem ∧ (s.setChain r h).poison = s.poison ∧
    (s.setChain r h).granules = s.granules ∧ (s.setChain r h).granuleFrom = s.granuleFrom ∧ (s.setChain r h).granulesOut = s.granulesOut ∧
    (s.setChain r h).pasids = s.pasids ∧ (s.setChain r h).tiles = s.tiles ∧ (s.setChain r h).clusterTlb = s.clusterTlb ∧
    (s.setChain r h).carafeTlb = s.carafeTlb ∧ (s.setChain r h).tasks = s.tasks ∧ (s.setChain r h).nextTask = s.nextTask ∧
    (s.setChain r h).forks = s.forks ∧ (s.setChain r h).launches = s.launches ∧ (s.setChain r h).points = s.points ∧ (s.setChain r h).dies = s.dies ∧
    (s.setChain r h).faultQueues = s.faultQueues ∧ (s.setChain r h).faultIrqs = s.faultIrqs ∧ (s.setChain r h).thyme = s.thyme ∧
    (s.setChain r h).perc = s.perc ∧ (s.setChain r h).queues = s.queues ∧ (s.setChain r h).runLists = s.runLists ∧
    (s.setChain r h).walkers = s.walkers ∧ (s.setChain r h).models = s.models ∧ (s.setChain r h).mgmt = s.mgmt ∧ (s.setChain r h).harts = s.harts ∧
    (s.setChain r h).history = s.history :=
  by refine ⟨?_, ?_, ?_, ?_, ?_, ?_, ?_, ?_, ?_, ?_, ?_, ?_, ?_, ?_, ?_, ?_, ?_, ?_, ?_, ?_, ?_, ?_, ?_, ?_, ?_, ?_, ?_, ?_, ?_, ?_, ?_, ?_, ?_, ?_, ?_, ?_, ?_, ?_⟩ <;> rfl

@[simp] theorem State.updChain_frame (s : State) (r : EngRef) (f : Chain → Chain) :
    (s.updChain r f).agenda = s.agenda ∧ (s.updChain r f).steps = s.steps ∧ (s.updChain r f).ref = s.ref ∧ (s.updChain r f).hart = s.hart ∧
    (s.updChain r f).env = s.env ∧ (s.updChain r f).cycle = s.cycle ∧ (s.updChain r f).hbm = s.hbm ∧ (s.updChain r f).lpddr = s.lpddr ∧
    (s.updChain r f).cxl = s.cxl ∧ (s.updChain r f).host = s.host ∧ (s.updChain r f).clusterPool = s.clusterPool ∧
    (s.updChain r f).diePool = s.diePool ∧ (s.updChain r f).supmem = s.supmem ∧ (s.updChain r f).poison = s.poison ∧
    (s.updChain r f).granules = s.granules ∧ (s.updChain r f).granuleFrom = s.granuleFrom ∧ (s.updChain r f).granulesOut = s.granulesOut ∧
    (s.updChain r f).pasids = s.pasids ∧ (s.updChain r f).tiles = s.tiles ∧ (s.updChain r f).clusterTlb = s.clusterTlb ∧
    (s.updChain r f).carafeTlb = s.carafeTlb ∧ (s.updChain r f).tasks = s.tasks ∧ (s.updChain r f).nextTask = s.nextTask ∧
    (s.updChain r f).forks = s.forks ∧ (s.updChain r f).launches = s.launches ∧ (s.updChain r f).points = s.points ∧ (s.updChain r f).dies = s.dies ∧
    (s.updChain r f).faultQueues = s.faultQueues ∧ (s.updChain r f).faultIrqs = s.faultIrqs ∧ (s.updChain r f).thyme = s.thyme ∧
    (s.updChain r f).perc = s.perc ∧ (s.updChain r f).queues = s.queues ∧ (s.updChain r f).runLists = s.runLists ∧
    (s.updChain r f).walkers = s.walkers ∧ (s.updChain r f).models = s.models ∧ (s.updChain r f).mgmt = s.mgmt ∧ (s.updChain r f).harts = s.harts ∧
    (s.updChain r f).history = s.history :=
  by refine ⟨?_, ?_, ?_, ?_, ?_, ?_, ?_, ?_, ?_, ?_, ?_, ?_, ?_, ?_, ?_, ?_, ?_, ?_, ?_, ?_, ?_, ?_, ?_, ?_, ?_, ?_, ?_, ?_, ?_, ?_, ?_, ?_, ?_, ?_, ?_, ?_, ?_, ?_⟩ <;> rfl

@[simp] theorem State.setEntry_frame (s : State) (r : EngRef) (k : Nat) (f : InFlight) :
    (s.setEntry r k f).agenda = s.agenda ∧ (s.setEntry r k f).steps = s.steps ∧ (s.setEntry r k f).ref = s.ref ∧ (s.setEntry r k f).hart = s.hart ∧
    (s.setEntry r k f).env = s.env ∧ (s.setEntry r k f).cycle = s.cycle ∧ (s.setEntry r k f).hbm = s.hbm ∧ (s.setEntry r k f).lpddr = s.lpddr ∧
    (s.setEntry r k f).cxl = s.cxl ∧ (s.setEntry r k f).host = s.host ∧ (s.setEntry r k f).clusterPool = s.clusterPool ∧
    (s.setEntry r k f).diePool = s.diePool ∧ (s.setEntry r k f).supmem = s.supmem ∧ (s.setEntry r k f).poison = s.poison ∧
    (s.setEntry r k f).granules = s.granules ∧ (s.setEntry r k f).granuleFrom = s.granuleFrom ∧ (s.setEntry r k f).granulesOut = s.granulesOut ∧
    (s.setEntry r k f).pasids = s.pasids ∧ (s.setEntry r k f).tiles = s.tiles ∧ (s.setEntry r k f).clusterTlb = s.clusterTlb ∧
    (s.setEntry r k f).carafeTlb = s.carafeTlb ∧ (s.setEntry r k f).tasks = s.tasks ∧ (s.setEntry r k f).nextTask = s.nextTask ∧
    (s.setEntry r k f).forks = s.forks ∧ (s.setEntry r k f).launches = s.launches ∧ (s.setEntry r k f).points = s.points ∧
    (s.setEntry r k f).dies = s.dies ∧ (s.setEntry r k f).faultQueues = s.faultQueues ∧ (s.setEntry r k f).faultIrqs = s.faultIrqs ∧
    (s.setEntry r k f).thyme = s.thyme ∧ (s.setEntry r k f).perc = s.perc ∧ (s.setEntry r k f).queues = s.queues ∧
    (s.setEntry r k f).runLists = s.runLists ∧ (s.setEntry r k f).walkers = s.walkers ∧ (s.setEntry r k f).models = s.models ∧
    (s.setEntry r k f).mgmt = s.mgmt ∧ (s.setEntry r k f).harts = s.harts ∧ (s.setEntry r k f).history = s.history :=
  by refine ⟨?_, ?_, ?_, ?_, ?_, ?_, ?_, ?_, ?_, ?_, ?_, ?_, ?_, ?_, ?_, ?_, ?_, ?_, ?_, ?_, ?_, ?_, ?_, ?_, ?_, ?_, ?_, ?_, ?_, ?_, ?_, ?_, ?_, ?_, ?_, ?_, ?_, ?_⟩ <;> rfl

@[simp] theorem State.setTask_frame (s : State) (n : Nat) (x : Task) :
    (s.setTask n x).agenda = s.agenda ∧ (s.setTask n x).steps = s.steps ∧ (s.setTask n x).ref = s.ref ∧ (s.setTask n x).hart = s.hart ∧
    (s.setTask n x).env = s.env ∧ (s.setTask n x).cycle = s.cycle ∧ (s.setTask n x).hbm = s.hbm ∧ (s.setTask n x).lpddr = s.lpddr ∧
    (s.setTask n x).cxl = s.cxl ∧ (s.setTask n x).host = s.host ∧ (s.setTask n x).clusterPool = s.clusterPool ∧ (s.setTask n x).diePool = s.diePool ∧
    (s.setTask n x).supmem = s.supmem ∧ (s.setTask n x).poison = s.poison ∧ (s.setTask n x).granules = s.granules ∧
    (s.setTask n x).granuleFrom = s.granuleFrom ∧ (s.setTask n x).granulesOut = s.granulesOut ∧ (s.setTask n x).pasids = s.pasids ∧
    (s.setTask n x).tiles = s.tiles ∧ (s.setTask n x).clusterTlb = s.clusterTlb ∧ (s.setTask n x).carafeTlb = s.carafeTlb ∧
    (s.setTask n x).slots = s.slots ∧ (s.setTask n x).nextTask = s.nextTask ∧ (s.setTask n x).forks = s.forks ∧
    (s.setTask n x).launches = s.launches ∧ (s.setTask n x).points = s.points ∧ (s.setTask n x).dies = s.dies ∧
    (s.setTask n x).faultQueues = s.faultQueues ∧ (s.setTask n x).faultIrqs = s.faultIrqs ∧ (s.setTask n x).thyme = s.thyme ∧
    (s.setTask n x).perc = s.perc ∧ (s.setTask n x).queues = s.queues ∧ (s.setTask n x).runLists = s.runLists ∧ (s.setTask n x).walkers = s.walkers ∧
    (s.setTask n x).models = s.models ∧ (s.setTask n x).mgmt = s.mgmt ∧ (s.setTask n x).harts = s.harts ∧ (s.setTask n x).history = s.history :=
  by refine ⟨?_, ?_, ?_, ?_, ?_, ?_, ?_, ?_, ?_, ?_, ?_, ?_, ?_, ?_, ?_, ?_, ?_, ?_, ?_, ?_, ?_, ?_, ?_, ?_, ?_, ?_, ?_, ?_, ?_, ?_, ?_, ?_, ?_, ?_, ?_, ?_, ?_, ?_⟩ <;> rfl

@[simp] theorem State.setPasid_frame (s : State) (n : Nat) (x : Pasid) :
    (s.setPasid n x).agenda = s.agenda ∧ (s.setPasid n x).steps = s.steps ∧ (s.setPasid n x).ref = s.ref ∧ (s.setPasid n x).hart = s.hart ∧
    (s.setPasid n x).env = s.env ∧ (s.setPasid n x).cycle = s.cycle ∧ (s.setPasid n x).hbm = s.hbm ∧ (s.setPasid n x).lpddr = s.lpddr ∧
    (s.setPasid n x).cxl = s.cxl ∧ (s.setPasid n x).host = s.host ∧ (s.setPasid n x).clusterPool = s.clusterPool ∧
    (s.setPasid n x).diePool = s.diePool ∧ (s.setPasid n x).supmem = s.supmem ∧ (s.setPasid n x).poison = s.poison ∧
    (s.setPasid n x).granules = s.granules ∧ (s.setPasid n x).granuleFrom = s.granuleFrom ∧ (s.setPasid n x).granulesOut = s.granulesOut ∧
    (s.setPasid n x).tiles = s.tiles ∧ (s.setPasid n x).clusterTlb = s.clusterTlb ∧ (s.setPasid n x).carafeTlb = s.carafeTlb ∧
    (s.setPasid n x).slots = s.slots ∧ (s.setPasid n x).tasks = s.tasks ∧ (s.setPasid n x).nextTask = s.nextTask ∧ (s.setPasid n x).forks = s.forks ∧
    (s.setPasid n x).launches = s.launches ∧ (s.setPasid n x).points = s.points ∧ (s.setPasid n x).dies = s.dies ∧
    (s.setPasid n x).faultQueues = s.faultQueues ∧ (s.setPasid n x).faultIrqs = s.faultIrqs ∧ (s.setPasid n x).thyme = s.thyme ∧
    (s.setPasid n x).perc = s.perc ∧ (s.setPasid n x).queues = s.queues ∧ (s.setPasid n x).runLists = s.runLists ∧
    (s.setPasid n x).walkers = s.walkers ∧ (s.setPasid n x).models = s.models ∧ (s.setPasid n x).mgmt = s.mgmt ∧ (s.setPasid n x).harts = s.harts ∧
    (s.setPasid n x).history = s.history :=
  by refine ⟨?_, ?_, ?_, ?_, ?_, ?_, ?_, ?_, ?_, ?_, ?_, ?_, ?_, ?_, ?_, ?_, ?_, ?_, ?_, ?_, ?_, ?_, ?_, ?_, ?_, ?_, ?_, ?_, ?_, ?_, ?_, ?_, ?_, ?_, ?_, ?_, ?_, ?_⟩ <;> rfl

@[simp] theorem State.setTile_frame (s : State) (n : Nat) (x : Tile) :
    (s.setTile n x).agenda = s.agenda ∧ (s.setTile n x).steps = s.steps ∧ (s.setTile n x).ref = s.ref ∧ (s.setTile n x).hart = s.hart ∧
    (s.setTile n x).env = s.env ∧ (s.setTile n x).cycle = s.cycle ∧ (s.setTile n x).hbm = s.hbm ∧ (s.setTile n x).lpddr = s.lpddr ∧
    (s.setTile n x).cxl = s.cxl ∧ (s.setTile n x).host = s.host ∧ (s.setTile n x).clusterPool = s.clusterPool ∧ (s.setTile n x).diePool = s.diePool ∧
    (s.setTile n x).supmem = s.supmem ∧ (s.setTile n x).poison = s.poison ∧ (s.setTile n x).granules = s.granules ∧
    (s.setTile n x).granuleFrom = s.granuleFrom ∧ (s.setTile n x).granulesOut = s.granulesOut ∧ (s.setTile n x).pasids = s.pasids ∧
    (s.setTile n x).clusterTlb = s.clusterTlb ∧ (s.setTile n x).carafeTlb = s.carafeTlb ∧ (s.setTile n x).slots = s.slots ∧
    (s.setTile n x).tasks = s.tasks ∧ (s.setTile n x).nextTask = s.nextTask ∧ (s.setTile n x).forks = s.forks ∧
    (s.setTile n x).launches = s.launches ∧ (s.setTile n x).points = s.points ∧ (s.setTile n x).dies = s.dies ∧
    (s.setTile n x).faultQueues = s.faultQueues ∧ (s.setTile n x).faultIrqs = s.faultIrqs ∧ (s.setTile n x).thyme = s.thyme ∧
    (s.setTile n x).perc = s.perc ∧ (s.setTile n x).queues = s.queues ∧ (s.setTile n x).runLists = s.runLists ∧ (s.setTile n x).walkers = s.walkers ∧
    (s.setTile n x).models = s.models ∧ (s.setTile n x).mgmt = s.mgmt ∧ (s.setTile n x).harts = s.harts ∧ (s.setTile n x).history = s.history :=
  by refine ⟨?_, ?_, ?_, ?_, ?_, ?_, ?_, ?_, ?_, ?_, ?_, ?_, ?_, ?_, ?_, ?_, ?_, ?_, ?_, ?_, ?_, ?_, ?_, ?_, ?_, ?_, ?_, ?_, ?_, ?_, ?_, ?_, ?_, ?_, ?_, ?_, ?_, ?_⟩ <;> rfl

@[simp] theorem State.setDie_frame (s : State) (n : Nat) (x : FaultUnit) :
    (s.setDie n x).agenda = s.agenda ∧ (s.setDie n x).steps = s.steps ∧ (s.setDie n x).ref = s.ref ∧ (s.setDie n x).hart = s.hart ∧
    (s.setDie n x).env = s.env ∧ (s.setDie n x).cycle = s.cycle ∧ (s.setDie n x).hbm = s.hbm ∧ (s.setDie n x).lpddr = s.lpddr ∧
    (s.setDie n x).cxl = s.cxl ∧ (s.setDie n x).host = s.host ∧ (s.setDie n x).clusterPool = s.clusterPool ∧ (s.setDie n x).diePool = s.diePool ∧
    (s.setDie n x).supmem = s.supmem ∧ (s.setDie n x).poison = s.poison ∧ (s.setDie n x).granules = s.granules ∧
    (s.setDie n x).granuleFrom = s.granuleFrom ∧ (s.setDie n x).granulesOut = s.granulesOut ∧ (s.setDie n x).pasids = s.pasids ∧
    (s.setDie n x).tiles = s.tiles ∧ (s.setDie n x).clusterTlb = s.clusterTlb ∧ (s.setDie n x).carafeTlb = s.carafeTlb ∧
    (s.setDie n x).slots = s.slots ∧ (s.setDie n x).tasks = s.tasks ∧ (s.setDie n x).nextTask = s.nextTask ∧ (s.setDie n x).forks = s.forks ∧
    (s.setDie n x).launches = s.launches ∧ (s.setDie n x).points = s.points ∧ (s.setDie n x).faultQueues = s.faultQueues ∧
    (s.setDie n x).faultIrqs = s.faultIrqs ∧ (s.setDie n x).thyme = s.thyme ∧ (s.setDie n x).perc = s.perc ∧ (s.setDie n x).queues = s.queues ∧
    (s.setDie n x).runLists = s.runLists ∧ (s.setDie n x).walkers = s.walkers ∧ (s.setDie n x).models = s.models ∧ (s.setDie n x).mgmt = s.mgmt ∧
    (s.setDie n x).harts = s.harts ∧ (s.setDie n x).history = s.history :=
  by refine ⟨?_, ?_, ?_, ?_, ?_, ?_, ?_, ?_, ?_, ?_, ?_, ?_, ?_, ?_, ?_, ?_, ?_, ?_, ?_, ?_, ?_, ?_, ?_, ?_, ?_, ?_, ?_, ?_, ?_, ?_, ?_, ?_, ?_, ?_, ?_, ?_, ?_, ?_⟩ <;> rfl

@[simp] theorem State.setLaunch_frame (s : State) (n : Nat) (x : Launch) :
    (s.setLaunch n x).agenda = s.agenda ∧ (s.setLaunch n x).steps = s.steps ∧ (s.setLaunch n x).ref = s.ref ∧ (s.setLaunch n x).hart = s.hart ∧
    (s.setLaunch n x).env = s.env ∧ (s.setLaunch n x).cycle = s.cycle ∧ (s.setLaunch n x).hbm = s.hbm ∧ (s.setLaunch n x).lpddr = s.lpddr ∧
    (s.setLaunch n x).cxl = s.cxl ∧ (s.setLaunch n x).host = s.host ∧ (s.setLaunch n x).clusterPool = s.clusterPool ∧
    (s.setLaunch n x).diePool = s.diePool ∧ (s.setLaunch n x).supmem = s.supmem ∧ (s.setLaunch n x).poison = s.poison ∧
    (s.setLaunch n x).granules = s.granules ∧ (s.setLaunch n x).granuleFrom = s.granuleFrom ∧ (s.setLaunch n x).granulesOut = s.granulesOut ∧
    (s.setLaunch n x).pasids = s.pasids ∧ (s.setLaunch n x).tiles = s.tiles ∧ (s.setLaunch n x).clusterTlb = s.clusterTlb ∧
    (s.setLaunch n x).carafeTlb = s.carafeTlb ∧ (s.setLaunch n x).slots = s.slots ∧ (s.setLaunch n x).tasks = s.tasks ∧
    (s.setLaunch n x).nextTask = s.nextTask ∧ (s.setLaunch n x).forks = s.forks ∧ (s.setLaunch n x).points = s.points ∧
    (s.setLaunch n x).dies = s.dies ∧ (s.setLaunch n x).faultQueues = s.faultQueues ∧ (s.setLaunch n x).faultIrqs = s.faultIrqs ∧
    (s.setLaunch n x).thyme = s.thyme ∧ (s.setLaunch n x).perc = s.perc ∧ (s.setLaunch n x).queues = s.queues ∧
    (s.setLaunch n x).runLists = s.runLists ∧ (s.setLaunch n x).walkers = s.walkers ∧ (s.setLaunch n x).models = s.models ∧
    (s.setLaunch n x).mgmt = s.mgmt ∧ (s.setLaunch n x).harts = s.harts ∧ (s.setLaunch n x).history = s.history :=
  by refine ⟨?_, ?_, ?_, ?_, ?_, ?_, ?_, ?_, ?_, ?_, ?_, ?_, ?_, ?_, ?_, ?_, ?_, ?_, ?_, ?_, ?_, ?_, ?_, ?_, ?_, ?_, ?_, ?_, ?_, ?_, ?_, ?_, ?_, ?_, ?_, ?_, ?_, ?_⟩ <;> rfl

@[simp] theorem State.setPoint_frame (s : State) (n : Nat) (x : Point) :
    (s.setPoint n x).agenda = s.agenda ∧ (s.setPoint n x).steps = s.steps ∧ (s.setPoint n x).ref = s.ref ∧ (s.setPoint n x).hart = s.hart ∧
    (s.setPoint n x).env = s.env ∧ (s.setPoint n x).cycle = s.cycle ∧ (s.setPoint n x).hbm = s.hbm ∧ (s.setPoint n x).lpddr = s.lpddr ∧
    (s.setPoint n x).cxl = s.cxl ∧ (s.setPoint n x).host = s.host ∧ (s.setPoint n x).clusterPool = s.clusterPool ∧
    (s.setPoint n x).diePool = s.diePool ∧ (s.setPoint n x).supmem = s.supmem ∧ (s.setPoint n x).poison = s.poison ∧
    (s.setPoint n x).granules = s.granules ∧ (s.setPoint n x).granuleFrom = s.granuleFrom ∧ (s.setPoint n x).granulesOut = s.granulesOut ∧
    (s.setPoint n x).pasids = s.pasids ∧ (s.setPoint n x).tiles = s.tiles ∧ (s.setPoint n x).clusterTlb = s.clusterTlb ∧
    (s.setPoint n x).carafeTlb = s.carafeTlb ∧ (s.setPoint n x).slots = s.slots ∧ (s.setPoint n x).tasks = s.tasks ∧
    (s.setPoint n x).nextTask = s.nextTask ∧ (s.setPoint n x).forks = s.forks ∧ (s.setPoint n x).launches = s.launches ∧
    (s.setPoint n x).dies = s.dies ∧ (s.setPoint n x).faultQueues = s.faultQueues ∧ (s.setPoint n x).faultIrqs = s.faultIrqs ∧
    (s.setPoint n x).thyme = s.thyme ∧ (s.setPoint n x).perc = s.perc ∧ (s.setPoint n x).queues = s.queues ∧ (s.setPoint n x).runLists = s.runLists ∧
    (s.setPoint n x).walkers = s.walkers ∧ (s.setPoint n x).models = s.models ∧ (s.setPoint n x).mgmt = s.mgmt ∧ (s.setPoint n x).harts = s.harts ∧
    (s.setPoint n x).history = s.history :=
  by refine ⟨?_, ?_, ?_, ?_, ?_, ?_, ?_, ?_, ?_, ?_, ?_, ?_, ?_, ?_, ?_, ?_, ?_, ?_, ?_, ?_, ?_, ?_, ?_, ?_, ?_, ?_, ?_, ?_, ?_, ?_, ?_, ?_, ?_, ?_, ?_, ?_, ?_, ?_⟩ <;> rfl

@[simp] theorem State.setQueue_frame (s : State) (n : Nat) (x : Queue) :
    (s.setQueue n x).agenda = s.agenda ∧ (s.setQueue n x).steps = s.steps ∧ (s.setQueue n x).ref = s.ref ∧ (s.setQueue n x).hart = s.hart ∧
    (s.setQueue n x).env = s.env ∧ (s.setQueue n x).cycle = s.cycle ∧ (s.setQueue n x).hbm = s.hbm ∧ (s.setQueue n x).lpddr = s.lpddr ∧
    (s.setQueue n x).cxl = s.cxl ∧ (s.setQueue n x).host = s.host ∧ (s.setQueue n x).clusterPool = s.clusterPool ∧
    (s.setQueue n x).diePool = s.diePool ∧ (s.setQueue n x).supmem = s.supmem ∧ (s.setQueue n x).poison = s.poison ∧
    (s.setQueue n x).granules = s.granules ∧ (s.setQueue n x).granuleFrom = s.granuleFrom ∧ (s.setQueue n x).granulesOut = s.granulesOut ∧
    (s.setQueue n x).pasids = s.pasids ∧ (s.setQueue n x).tiles = s.tiles ∧ (s.setQueue n x).clusterTlb = s.clusterTlb ∧
    (s.setQueue n x).carafeTlb = s.carafeTlb ∧ (s.setQueue n x).slots = s.slots ∧ (s.setQueue n x).tasks = s.tasks ∧
    (s.setQueue n x).nextTask = s.nextTask ∧ (s.setQueue n x).forks = s.forks ∧ (s.setQueue n x).launches = s.launches ∧
    (s.setQueue n x).points = s.points ∧ (s.setQueue n x).dies = s.dies ∧ (s.setQueue n x).faultQueues = s.faultQueues ∧
    (s.setQueue n x).faultIrqs = s.faultIrqs ∧ (s.setQueue n x).thyme = s.thyme ∧ (s.setQueue n x).perc = s.perc ∧
    (s.setQueue n x).runLists = s.runLists ∧ (s.setQueue n x).walkers = s.walkers ∧ (s.setQueue n x).models = s.models ∧
    (s.setQueue n x).mgmt = s.mgmt ∧ (s.setQueue n x).harts = s.harts ∧ (s.setQueue n x).history = s.history :=
  by refine ⟨?_, ?_, ?_, ?_, ?_, ?_, ?_, ?_, ?_, ?_, ?_, ?_, ?_, ?_, ?_, ?_, ?_, ?_, ?_, ?_, ?_, ?_, ?_, ?_, ?_, ?_, ?_, ?_, ?_, ?_, ?_, ?_, ?_, ?_, ?_, ?_, ?_, ?_⟩ <;> rfl

@[simp] theorem State.setModel_frame (s : State) (n : Nat) (x : Model) :
    (s.setModel n x).agenda = s.agenda ∧ (s.setModel n x).steps = s.steps ∧ (s.setModel n x).ref = s.ref ∧ (s.setModel n x).hart = s.hart ∧
    (s.setModel n x).env = s.env ∧ (s.setModel n x).cycle = s.cycle ∧ (s.setModel n x).hbm = s.hbm ∧ (s.setModel n x).lpddr = s.lpddr ∧
    (s.setModel n x).cxl = s.cxl ∧ (s.setModel n x).host = s.host ∧ (s.setModel n x).clusterPool = s.clusterPool ∧
    (s.setModel n x).diePool = s.diePool ∧ (s.setModel n x).supmem = s.supmem ∧ (s.setModel n x).poison = s.poison ∧
    (s.setModel n x).granules = s.granules ∧ (s.setModel n x).granuleFrom = s.granuleFrom ∧ (s.setModel n x).granulesOut = s.granulesOut ∧
    (s.setModel n x).pasids = s.pasids ∧ (s.setModel n x).tiles = s.tiles ∧ (s.setModel n x).clusterTlb = s.clusterTlb ∧
    (s.setModel n x).carafeTlb = s.carafeTlb ∧ (s.setModel n x).slots = s.slots ∧ (s.setModel n x).tasks = s.tasks ∧
    (s.setModel n x).nextTask = s.nextTask ∧ (s.setModel n x).forks = s.forks ∧ (s.setModel n x).launches = s.launches ∧
    (s.setModel n x).points = s.points ∧ (s.setModel n x).dies = s.dies ∧ (s.setModel n x).faultQueues = s.faultQueues ∧
    (s.setModel n x).faultIrqs = s.faultIrqs ∧ (s.setModel n x).thyme = s.thyme ∧ (s.setModel n x).perc = s.perc ∧
    (s.setModel n x).queues = s.queues ∧ (s.setModel n x).runLists = s.runLists ∧ (s.setModel n x).walkers = s.walkers ∧
    (s.setModel n x).mgmt = s.mgmt ∧ (s.setModel n x).harts = s.harts ∧ (s.setModel n x).history = s.history :=
  by refine ⟨?_, ?_, ?_, ?_, ?_, ?_, ?_, ?_, ?_, ?_, ?_, ?_, ?_, ?_, ?_, ?_, ?_, ?_, ?_, ?_, ?_, ?_, ?_, ?_, ?_, ?_, ?_, ?_, ?_, ?_, ?_, ?_, ?_, ?_, ?_, ?_, ?_, ?_⟩ <;> rfl

@[simp] theorem State.setHart_frame (s : State) (n : Nat) (x : Hart) :
    (s.setHart n x).agenda = s.agenda ∧ (s.setHart n x).steps = s.steps ∧ (s.setHart n x).ref = s.ref ∧ (s.setHart n x).hart = s.hart ∧
    (s.setHart n x).env = s.env ∧ (s.setHart n x).cycle = s.cycle ∧ (s.setHart n x).hbm = s.hbm ∧ (s.setHart n x).lpddr = s.lpddr ∧
    (s.setHart n x).cxl = s.cxl ∧ (s.setHart n x).host = s.host ∧ (s.setHart n x).clusterPool = s.clusterPool ∧ (s.setHart n x).diePool = s.diePool ∧
    (s.setHart n x).supmem = s.supmem ∧ (s.setHart n x).poison = s.poison ∧ (s.setHart n x).granules = s.granules ∧
    (s.setHart n x).granuleFrom = s.granuleFrom ∧ (s.setHart n x).granulesOut = s.granulesOut ∧ (s.setHart n x).pasids = s.pasids ∧
    (s.setHart n x).tiles = s.tiles ∧ (s.setHart n x).clusterTlb = s.clusterTlb ∧ (s.setHart n x).carafeTlb = s.carafeTlb ∧
    (s.setHart n x).slots = s.slots ∧ (s.setHart n x).tasks = s.tasks ∧ (s.setHart n x).nextTask = s.nextTask ∧ (s.setHart n x).forks = s.forks ∧
    (s.setHart n x).launches = s.launches ∧ (s.setHart n x).points = s.points ∧ (s.setHart n x).dies = s.dies ∧
    (s.setHart n x).faultQueues = s.faultQueues ∧ (s.setHart n x).faultIrqs = s.faultIrqs ∧ (s.setHart n x).thyme = s.thyme ∧
    (s.setHart n x).perc = s.perc ∧ (s.setHart n x).queues = s.queues ∧ (s.setHart n x).runLists = s.runLists ∧ (s.setHart n x).walkers = s.walkers ∧
    (s.setHart n x).models = s.models ∧ (s.setHart n x).mgmt = s.mgmt ∧ (s.setHart n x).history = s.history :=
  by refine ⟨?_, ?_, ?_, ?_, ?_, ?_, ?_, ?_, ?_, ?_, ?_, ?_, ?_, ?_, ?_, ?_, ?_, ?_, ?_, ?_, ?_, ?_, ?_, ?_, ?_, ?_, ?_, ?_, ?_, ?_, ?_, ?_, ?_, ?_, ?_, ?_, ?_, ?_⟩ <;> rfl

@[simp] theorem State.setPoison_frame (s : State) (p : Place) (u : Nat) (b : Bool) :
    (s.setPoison p u b).agenda = s.agenda ∧ (s.setPoison p u b).steps = s.steps ∧ (s.setPoison p u b).ref = s.ref ∧
    (s.setPoison p u b).hart = s.hart ∧ (s.setPoison p u b).env = s.env ∧ (s.setPoison p u b).cycle = s.cycle ∧ (s.setPoison p u b).hbm = s.hbm ∧
    (s.setPoison p u b).lpddr = s.lpddr ∧ (s.setPoison p u b).cxl = s.cxl ∧ (s.setPoison p u b).host = s.host ∧
    (s.setPoison p u b).clusterPool = s.clusterPool ∧ (s.setPoison p u b).diePool = s.diePool ∧ (s.setPoison p u b).supmem = s.supmem ∧
    (s.setPoison p u b).granules = s.granules ∧ (s.setPoison p u b).granuleFrom = s.granuleFrom ∧ (s.setPoison p u b).granulesOut = s.granulesOut ∧
    (s.setPoison p u b).pasids = s.pasids ∧ (s.setPoison p u b).tiles = s.tiles ∧ (s.setPoison p u b).clusterTlb = s.clusterTlb ∧
    (s.setPoison p u b).carafeTlb = s.carafeTlb ∧ (s.setPoison p u b).slots = s.slots ∧ (s.setPoison p u b).tasks = s.tasks ∧
    (s.setPoison p u b).nextTask = s.nextTask ∧ (s.setPoison p u b).forks = s.forks ∧ (s.setPoison p u b).launches = s.launches ∧
    (s.setPoison p u b).points = s.points ∧ (s.setPoison p u b).dies = s.dies ∧ (s.setPoison p u b).faultQueues = s.faultQueues ∧
    (s.setPoison p u b).faultIrqs = s.faultIrqs ∧ (s.setPoison p u b).thyme = s.thyme ∧ (s.setPoison p u b).perc = s.perc ∧
    (s.setPoison p u b).queues = s.queues ∧ (s.setPoison p u b).runLists = s.runLists ∧ (s.setPoison p u b).walkers = s.walkers ∧
    (s.setPoison p u b).models = s.models ∧ (s.setPoison p u b).mgmt = s.mgmt ∧ (s.setPoison p u b).harts = s.harts ∧
    (s.setPoison p u b).history = s.history :=
  by refine ⟨?_, ?_, ?_, ?_, ?_, ?_, ?_, ?_, ?_, ?_, ?_, ?_, ?_, ?_, ?_, ?_, ?_, ?_, ?_, ?_, ?_, ?_, ?_, ?_, ?_, ?_, ?_, ?_, ?_, ?_, ?_, ?_, ?_, ?_, ?_, ?_, ?_, ?_⟩ <;> rfl

@[simp] theorem State.log_frame (s : State) (e : ThymeEvent) :
    (s.log e).agenda = s.agenda ∧ (s.log e).steps = s.steps ∧ (s.log e).ref = s.ref ∧ (s.log e).hart = s.hart ∧ (s.log e).env = s.env ∧
    (s.log e).cycle = s.cycle ∧ (s.log e).hbm = s.hbm ∧ (s.log e).lpddr = s.lpddr ∧ (s.log e).cxl = s.cxl ∧ (s.log e).host = s.host ∧
    (s.log e).clusterPool = s.clusterPool ∧ (s.log e).diePool = s.diePool ∧ (s.log e).supmem = s.supmem ∧ (s.log e).poison = s.poison ∧
    (s.log e).granules = s.granules ∧ (s.log e).granuleFrom = s.granuleFrom ∧ (s.log e).granulesOut = s.granulesOut ∧ (s.log e).pasids = s.pasids ∧
    (s.log e).tiles = s.tiles ∧ (s.log e).clusterTlb = s.clusterTlb ∧ (s.log e).carafeTlb = s.carafeTlb ∧ (s.log e).slots = s.slots ∧
    (s.log e).tasks = s.tasks ∧ (s.log e).nextTask = s.nextTask ∧ (s.log e).forks = s.forks ∧ (s.log e).launches = s.launches ∧
    (s.log e).points = s.points ∧ (s.log e).dies = s.dies ∧ (s.log e).faultQueues = s.faultQueues ∧ (s.log e).faultIrqs = s.faultIrqs ∧
    (s.log e).perc = s.perc ∧ (s.log e).queues = s.queues ∧ (s.log e).runLists = s.runLists ∧ (s.log e).walkers = s.walkers ∧
    (s.log e).models = s.models ∧ (s.log e).mgmt = s.mgmt ∧ (s.log e).harts = s.harts ∧ (s.log e).history = s.history :=
  by refine ⟨?_, ?_, ?_, ?_, ?_, ?_, ?_, ?_, ?_, ?_, ?_, ?_, ?_, ?_, ?_, ?_, ?_, ?_, ?_, ?_, ?_, ?_, ?_, ?_, ?_, ?_, ?_, ?_, ?_, ?_, ?_, ?_, ?_, ?_, ?_, ?_, ?_, ?_⟩ <;> rfl

/-- A write of a tier changes that tier alone. -/
theorem State.setTierMem_frame (s : State) (t : Tier) (m : Memory) :
    s.setTierMem t m = { s with hbm := if t = .hbm then m else s.hbm, lpddr := if t = .lpddr then m else s.lpddr,
                                cxl := if t = .cxl then m else s.cxl, host := if t = .host then m else s.host } := by
  cases t <;> rfl

/-! ### Reading after a setter -/

theorem State.slotAt_setSlot {s : State} {t k : Nat} {x : Slot} (h : x ≠ {} ∨ s.slots.rising) :
    (s.setSlot t k x).slotAt t k = x :=
  h.elim (fun h => Map.get_set_ne _ h s.slots) fun h => Map.get_set_self _ x h

theorem State.slotAt_setSlot_other {s : State} {t k t' k' : Nat} {x : Slot} (h : slotKey t' k' ≠ slotKey t k) :
    (s.setSlot t k x).slotAt t' k' = s.slotAt t' k' := Map.get_set_other _ h x s.slots

theorem State.ctx_setCtx {s : State} {r : EngRef} {c : Ctx} (h : c ≠ {} ∨ s.slots.rising) : (s.setCtx r c).ctx r = c := by
  unfold State.ctx State.setCtx State.updSlot
  rw [State.slotAt_setSlot]
  rcases h with h | h
  · left; intro e; exact h (congrArg Slot.ctx e)
  · exact .inr h

@[simp] theorem Ctx.chain_setChain (c : Ctx) (e : Engine) (h : Chain) : (c.setChain e h).chain e = h := by cases e <;> rfl

theorem Ctx.chain_setChain_other (c : Ctx) {e e' : Engine} (h : Chain) (he : e' ≠ e) : (c.setChain e h).chain e' = c.chain e' := by
  cases e <;> cases e' <;> first | rfl | exact absurd rfl he

theorem Ctx.setChain_ne (c : Ctx) (e : Engine) {h : Chain} (hh : h.inflight ≠ []) : c.setChain e h ≠ {} := by
  intro he
  apply hh
  rw [← Ctx.chain_setChain c e h, he]
  cases e <;> rfl

/-- A context's other parts, whatever happens to a chain of it. -/
@[simp] theorem Ctx.setChain_frame (c : Ctx) (e : Engine) (h : Chain) :
    (c.setChain e h).tp = c.tp ∧ (c.setChain e h).wb = c.wb ∧ (c.setChain e h).acc = c.acc ∧ (c.setChain e h).vregs = c.vregs ∧
    (c.setChain e h).sems = c.sems ∧ (c.setChain e h).regions = c.regions ∧ (c.setChain e h).rings = c.rings ∧
    (c.setChain e h).rb = c.rb ∧ (c.setChain e h).budget = c.budget ∧ (c.setChain e h).wdc = c.wdc ∧
    (c.setChain e h).step = c.step ∧ (c.setChain e h).dirty = c.dirty := by cases e <;> simp [Ctx.setChain]

theorem State.chain_setCtx {s : State} {r : EngRef} {c : Ctx} (h : c ≠ {} ∨ s.slots.rising) :
    (s.setCtx r c).chain r = c.chain r.eng := by rw [State.chain, State.ctx_setCtx h]

@[simp] theorem State.slotAt_log (s : State) (e : ThymeEvent) (t k : Nat) : (s.log e).slotAt t k = s.slotAt t k := rfl
@[simp] theorem State.ctx_log (s : State) (e : ThymeEvent) (r : EngRef) : (s.log e).ctx r = s.ctx r := rfl
@[simp] theorem State.chain_log (s : State) (e : ThymeEvent) (r : EngRef) : (s.log e).chain r = s.chain r := rfl

end Sys2Proof.Machine
end

