-- ==== Sys2Proof/Laws/Issue.lean ====
section
/-! SUPPORT. What issuing and running a block do: its entry, its single iteration, and the meaning of a form in
terms of what its iteration delivers. -/

namespace Sys2Proof.Machine

/-! ### Taking counts and ring slots -/

theorem Ctx.setRing_chains (c : Ctx) (n : Nat) (g : Option Ring) (e : Engine) : (c.setRing n g).chain e = c.chain e := by
  cases e <;> rfl

/-- A slot that differs in its counts and rings alone: what taking counts does. -/
def Ctx.SameMedia (c c' : Ctx) : Prop := c' = { c with sems := c'.sems, rings := c'.rings }

theorem Ctx.SameMedia.refl (c : Ctx) : c.SameMedia c := rfl
theorem Ctx.SameMedia.trans {a b c : Ctx} (h : a.SameMedia b) (h' : b.SameMedia c) : a.SameMedia c := by
  unfold Ctx.SameMedia at *
  rw [h'] ; dsimp only; rw [h]

theorem Ctx.SameMedia.chain {c c' : Ctx} (h : c.SameMedia c') (e : Engine) : c'.chain e = c.chain e := by
  rw [h]; cases e <;> rfl

theorem Ctx.sameMedia_setSem (c : Ctx) (n k : Nat) : c.SameMedia (c.setSem n k) := rfl
theorem Ctx.sameMedia_setRing (c : Ctx) (n : Nat) (g : Option Ring) : c.SameMedia (c.setRing n g) := rfl

theorem foldl_sameMedia {β : Type} (f : Ctx → β → Ctx) (hf : ∀ (c : Ctx) x, c.SameMedia (f c x)) :
    ∀ (l : List β) (c : Ctx), c.SameMedia (l.foldl f c)
  | [], c => .refl c
  | x :: l, c => (hf c x).trans (foldl_sameMedia f hf l (f c x))

theorem Ctx.sameMedia_takeWaits (c : Ctx) (ws : List (Nat × Nat)) : c.SameMedia (c.takeWaits ws) := by
  unfold Ctx.takeWaits
  refine foldl_sameMedia _ (fun c x => Ctx.SameMedia.trans (c.sameMedia_setSem x.1 (c.sem x.1 - x.2)) ?_) ws c
  exact foldl_sameMedia _ (fun (c : Ctx) y => by dsimp only; split; exact rfl; split <;> exact rfl) _ _

theorem Ctx.sameMedia_takeSlots : ∀ (ns : List Nat) (c : Ctx), c.SameMedia (c.takeSlots ns).1
  | [], c => .refl c
  | n :: ns, c => by
    rw [Ctx.takeSlots]
    split
    · exact Ctx.sameMedia_takeSlots ns c
    · exact ((c.sameMedia_setSem _ _).trans (Ctx.sameMedia_setRing _ _ _)).trans (Ctx.sameMedia_takeSlots ns _)

/-! ### The entry of an issued block -/

theorem State.issuedCtx_ne (s : State) (i : Instr) (hd : Option Handle) : s.issuedCtx i hd ≠ {} :=
  Ctx.setChain_ne _ _ (by simp [State.issuedChain])

@[simp] theorem Slot.tests_frame (x : Slot) (n : Nat) (l : List Nat) :
    (x.tests n l).ctx = x.ctx ∧ (x.tests n l).task = x.task ∧ (x.tests n l).parking = x.parking ∧ (x.tests n l).inPlace = x.inPlace ∧
    (x.tests n l).cancelled = x.cancelled ∧ (x.tests n l).yielding = x.yielding ∧ (x.tests n l).key = x.key ∧
    (x.tests n l).wdLimit = x.wdLimit ∧ (x.tests n l).wdActive = x.wdActive ∧ (x.tests n l).lane = x.lane := ⟨rfl, rfl, rfl, rfl, rfl, rfl, rfl, rfl, rfl, rfl⟩

/-- A slot's context after an update that leaves it one. -/
theorem State.slotAt_updSlot {s : State} {t k : Nat} {f : Slot → Slot} (h : (f (s.slotAt t k)).ctx ≠ {}) :
    (s.updSlot t k f).slotAt t k = f (s.slotAt t k) :=
  State.slotAt_setSlot (.inl fun e => h (congrArg Slot.ctx e))

/-- Issuing is one update of the slot, after the descriptors read have been kept. -/
theorem State.startBlock_eq (s : State) (i : Instr) (hd : Option Handle) :
    s.startBlock s.ref i hd =
      let s0 := match lParts i with | some (_, _, b) => (s.noteHandle s.ref b.a).noteHandle s.ref b.d | none => s
      let s1 := s0.updSlot s.ref.tile s.ref.slot fun x =>
        ({ x with ctx := s.issuedCtx i hd } : Slot).tests s.cycle (((s.ctx s.ref).testsOf i).map (·.1))
      if (ctlOf i).trc = 1 then
        s1.log { time := s.cycle, pasid := (s.task (s.taskOf s.ref)).pasid, tile := s.ref.tile, slot := s.ref.slot,
                 eng := s.ref.eng.num, kind := 1, addr := (s.chain s.ref).cursor, data := 0 }
      else s1 := rfl

theorem State.ctx_startBlock (s : State) (i : Instr) (hd : Option Handle) :
    (s.startBlock s.ref i hd).ctx s.ref = s.issuedCtx i hd := by
  rw [State.startBlock_eq]
  dsimp only
  split
  · rw [State.ctx_log, State.ctx, State.slotAt_updSlot (s.issuedCtx_ne i hd)]; rfl
  · rw [State.ctx, State.slotAt_updSlot (s.issuedCtx_ne i hd)]; rfl

theorem State.chain_startBlock (s : State) (i : Instr) (hd : Option Handle) :
    (s.startBlock s.ref i hd).chain s.ref = s.issuedChain i hd := by
  rw [State.chain, State.ctx_startBlock, State.issuedCtx, Ctx.chain_setChain]

/-- The issued block stands last in its chain. -/
theorem State.entry_startBlock (s : State) (i : Instr) (hd : Option Handle) :
    ((s.startBlock s.ref i hd).chain s.ref).inflight[s.nextIndex s.ref]? = some (s.newEntry i hd) := by
  rw [State.chain_startBlock]
  simp [State.issuedChain, State.nextIndex]

/-- Sampling changes the Percolator alone. -/
theorem State.sampleAll_eq : ∀ (l : List (Place × Nat × Nat)) (s : State), ∃ p, s.sampleAll l = { s with perc := p }
  | [], s => ⟨s.perc, rfl⟩
  | x :: l, s => by
    obtain ⟨p, h⟩ : ∃ p, s.sampleAccess x.1 (x.2.1 * 32) x.2.2 = { s with perc := p } := by
      unfold State.sampleAccess
      dsimp only
      repeat' split
      all_goals exact ⟨_, rfl⟩
    obtain ⟨q, h2⟩ := State.sampleAll_eq l { s with perc := p }
    exact ⟨q, (congrArg (fun t : State => t.sampleAll l) h).trans h2⟩

/-- What issuing leaves of the tiles: their banks and their outstanding accesses. -/
def State.SameTiles (s t : State) : Prop := ∀ n, (t.tile n).whole = (s.tile n).whole ∧ (t.tile n).accesses = (s.tile n).accesses

/-- Keeping a descriptor changes a tile's copies and the Percolator's samples alone. -/
theorem State.noteHandle_eq (s : State) (r : EngRef) (x : Desc) :
    ∃ m p, s.noteHandle r x = { s with tiles := m, perc := p } ∧ s.SameTiles { s with tiles := m, perc := p } := by
  unfold State.noteHandle
  dsimp only
  split
  · exact ⟨s.tiles, s.perc, rfl, fun _ => ⟨rfl, rfl⟩⟩
  · split
    · rename_i ws pss _ _
      split
      · obtain ⟨p, h⟩ := State.sampleAll_eq (hotSectors (pss.flatMap id)) s
        exact ⟨s.tiles, p, h, fun _ => ⟨rfl, rfl⟩⟩
      · obtain ⟨p, h⟩ := State.sampleAll_eq (hotSectors (pss.flatMap id)) (s.setTile r.tile { s.tile r.tile with
          handles := { pasid := (s.task (s.taskOf r)).pasid, index := x.base, words := ws } :: (s.tile r.tile).handles })
        refine ⟨_, p, h, fun n => ?_⟩
        by_cases hn : n = r.tile
        · subst hn
          unfold State.tile
          dsimp only [State.setTile]
          rw [Map.get_set_ne _ (fun e => by have := congrArg Tile.handles e; simp at this)]
          exact ⟨rfl, rfl⟩
        · unfold State.tile
          dsimp only [State.setTile]
          rw [Map.get_set_other _ hn]
          exact ⟨rfl, rfl⟩
    · exact ⟨s.tiles, s.perc, rfl, fun _ => ⟨rfl, rfl⟩⟩

/-- Issuing changes the issuing slot, a tile's copies of descriptors, the Percolator's samples and the Thyme buffer alone. -/
theorem State.startBlock_keeps (s : State) (i : Instr) (hd : Option Handle) :
    (s.startBlock s.ref i hd).env = s.env ∧ (s.startBlock s.ref i hd).cycle = s.cycle ∧ (s.startBlock s.ref i hd).forks = s.forks ∧
    s.SameTiles (s.startBlock s.ref i hd) ∧
    (s.startBlock s.ref i hd).slotAt s.ref.tile s.ref.slot =
      ({ s.slotAt s.ref.tile s.ref.slot with ctx := s.issuedCtx i hd } : Slot).tests s.cycle (((s.ctx s.ref).testsOf i).map (·.1)) := by
  have hn : ∃ m p, (match lParts i with | some (_, _, b) => (s.noteHandle s.ref b.a).noteHandle s.ref b.d | none => s) =
      { s with tiles := m, perc := p } ∧ s.SameTiles { s with tiles := m, perc := p } := by
    split
    · rename_i b _
      obtain ⟨m, p, h1, h2⟩ := s.noteHandle_eq s.ref b.a
      rw [h1]
      obtain ⟨m', p', h3, h4⟩ := State.noteHandle_eq { s with tiles := m, perc := p } s.ref b.d
      exact ⟨m', p', h3, fun n => ⟨(h4 n).1.trans (h2 n).1, (h4 n).2.trans (h2 n).2⟩⟩
    · exact ⟨s.tiles, s.perc, rfl, fun _ => ⟨rfl, rfl⟩⟩
  obtain ⟨m, p, h1, h2⟩ := hn
  have h3 := State.slotAt_updSlot (s := { s with tiles := m, perc := p }) (t := s.ref.tile) (k := s.ref.slot)
    (f := fun x => ({ x with ctx := s.issuedCtx i hd } : Slot).tests s.cycle (((s.ctx s.ref).testsOf i).map (·.1))) (s.issuedCtx_ne i hd)
  rw [State.startBlock_eq]
  dsimp only
  rw [h1]
  split <;> exact ⟨rfl, rfl, rfl, h2, h3⟩

/-- The entries that are free are those that were free. -/
theorem State.noEntry_startBlock (s : State) (i : Instr) (hd : Option Handle) (t : Nat) (l : List Nat) :
    (s.startBlock s.ref i hd).noEntry t l = s.noEntry t l := by
  obtain ⟨-, -, h1, h2, -⟩ := s.startBlock_keeps i hd
  have h3 : (s.startBlock s.ref i hd).carafeLoad = s.carafeLoad := by
    funext h
    unfold State.carafeLoad
    rw [h1]
  unfold State.noEntry
  rw [(h2 t).2, h3]

/-- A block's accesses find entries where none is short. -/
theorem State.room_of {s : State} {i : Instr} (hd : Option Handle) (h : usesMemory i = false ∨ s.noEntry s.ref.tile anyCarafe = false) :
    (s.startBlock s.ref i hd).entriesShort s.ref (s.newEntry i hd) = false := by
  unfold State.entriesShort
  rcases h with h | h
  · have : usesMemory (s.newEntry i hd).instr = false := h
    rw [this]; rfl
  · have h1 : s.noEntry s.ref.tile [] = false := by
      unfold State.noEntry at h ⊢
      rw [Bool.or_eq_false_iff] at h ⊢
      exact ⟨h.1, rfl⟩
    simp only [s.noEntry_startBlock, h, Bool.false_eq_true, if_false, h1, Bool.and_false]

/-- A store finds no earlier store in its way where none of its chain has still to run (R155). -/
theorem State.storesBehind_of {s : State} {i : Instr} (hd : Option Handle)
    (h : isStore i = false ∨ ((s.chain s.ref).inflight.any fun g => g.phase != .done && isStore g.instr) = false) :
    (s.startBlock s.ref i hd).storesBehind s.ref (s.nextIndex s.ref) = false := by
  unfold State.storesBehind
  dsimp only
  rw [State.entry_startBlock, State.chain_startBlock]
  have ht : (s.issuedChain i hd).inflight.take (s.nextIndex s.ref) = (s.chain s.ref).inflight := by
    simp [State.issuedChain, State.nextIndex]
  rw [ht]
  have hi : (s.newEntry i hd).instr = i := rfl
  dsimp only
  rw [hi]
  rcases h with h | h
  · simp [h]
  · rw [List.any_eq_false] at h ⊢
    intro g hg
    have := h g hg
    simp only [Bool.not_eq_true] at this
    simp [this]

/-- No earlier block of its chain comes before the first iteration of a block that has a cell in common with none, where none
was in flight at a context switch (R92, R241). -/
theorem State.waitsBehind_of {s : State} {i : Instr} (hd : Option Handle)
    (h : ((s.chain s.ref).inflight.any fun g => g.heldOver || sharesCells g.instr i) = false) :
    ((s.startBlock s.ref i hd).chain s.ref).waitsBehind (s.nextIndex s.ref) = false := by
  unfold Chain.waitsBehind
  rw [State.entry_startBlock]
  dsimp only
  have ht : ((s.startBlock s.ref i hd).chain s.ref).inflight.take (s.nextIndex s.ref) = (s.chain s.ref).inflight := by
    rw [State.chain_startBlock]
    simp [State.issuedChain, State.nextIndex]
  rw [ht]
  exact h

/-- Nothing holds up the first iteration of a block whose chain has no block in its way and whose accesses find entries. -/
theorem State.clear_of {s : State} {i : Instr}
    (h1 : ((s.chain s.ref).inflight.any fun g => g.heldOver || sharesCells g.instr i) = false)
    (h2 : isStore i = false ∨ ((s.chain s.ref).inflight.any fun g => g.phase != .done && isStore g.instr) = false)
    (h3 : usesMemory i = false ∨ s.noEntry s.ref.tile anyCarafe = false) :
    ∀ hd, (s.startBlock s.ref i hd).mayIterate s.ref (s.nextIndex s.ref) = true := by
  intro hd
  unfold State.mayIterate
  rw [State.waitsBehind_of hd h1, State.storesBehind_of hd h2, State.entry_startBlock, Option.any_some, State.room_of hd h3]
  rfl

@[simp] theorem Ctx.ring_setChain (c : Ctx) (e : Engine) (h : Chain) (n : Nat) : (c.setChain e h).ring n = c.ring n := by cases e <;> rfl

/-- Whether an issuing block's first iteration comes late does not rest on the descriptor read. -/
theorem State.late_firstRun (s : State) (i : Instr) (hd : Option Handle) : (s.firstRun i hd).late s.ref = (s.firstRun i none).late s.ref := by
  obtain ⟨-, h1, -, -, h2⟩ := s.startBlock_keeps i hd
  obtain ⟨-, h3, -, -, h4⟩ := s.startBlock_keeps i none
  unfold Run.late State.firstRun State.testsDone
  dsimp only
  rw [h1, h2, h3, h4, State.ctx_startBlock, State.ctx_startBlock]
  simp only [State.issuedCtx, Ctx.ring_setChain]
  rfl

/-- A block that reads no ring is never late. -/
theorem State.timely_of {s : State} {i : Instr} (h : rqRings i = []) : (s.firstRun i none).late s.ref = false := by
  have : (s.firstRun i none).f.taken = [] := by
    show ((_ : Ctx).takeSlots (rqRings i)).2 = []
    rw [h]; rfl
  unfold Run.late
  rw [this]
  simp [State.testsDone]

/-- A chain that may run is of a slot that is not about to park. -/
theorem State.parking_of_runnable {s : State} {r : EngRef} (h : s.runnable r = true) :
    (s.slotAt r.tile r.slot).parking = false := by
  simp only [State.runnable, Slot.live, Bool.and_eq_true, Bool.not_eq_true'] at h
  exact h.1.1.1.1.1.1.1.2

theorem State.runnable_of_gate {s : State} {r : EngRef} {i : Instr} (h : s.gate r i = .go) : s.runnable r = true := by
  unfold State.gate at h
  split at h
  · cases h
  · rename_i h1
    simp only [State.canIssue, State.reachesIssue, Bool.not_eq_true', Bool.and_eq_true, Bool.eq_false_iff, ne_eq, not_not] at h1
    exact h1.1.1.1.1.1.1.1.1.1.1.1.1

/-! ### One iteration -/

/-- A block whose rings are declared has taken a slot of each (R172). -/
theorem Ctx.takeSlots_ne {c : Ctx} {n : Nat} (h : (c.ring n).isSome) : ∀ ns : List Nat, n ∈ ns → (c.takeSlots ns).2 ≠ []
  | m :: ns, hm => by
    rw [Ctx.takeSlots]
    split
    · rename_i h1
      have : n ≠ m := by rintro rfl; rw [h1] at h; cases h
      rcases List.mem_cons.mp hm with rfl | hm
      · exact absurd rfl this
      · exact Ctx.takeSlots_ne h ns hm
    · simp

theorem Ctx.ring_setRing_some (c : Ctx) (n m : Nat) (g : Ring) (h : (c.ring m).isSome) : ((c.setRing n (some g)).ring m).isSome := by
  unfold Ctx.ring Ctx.setRing
  by_cases e : m = n
  · subst e
    rw [Map.get_set_ne _ (by simp)]
    rfl
  · rw [Map.get_set_other _ e]; exact h

theorem Ctx.ring_takeWaits (m : Nat) : ∀ (ws : List (Nat × Nat)) (c : Ctx), (c.ring m).isSome → ((c.takeWaits ws).ring m).isSome := by
  intro ws
  induction ws with
  | nil => intro c h; exact h
  | cons w ws ih =>
    intro c h
    refine ih _ ?_
    have hfold : ∀ (l : List (Nat × Ring)) (c : Ctx), (c.ring m).isSome →
        ((l.foldl (fun c (x : Nat × Ring) => if x.2.esem = w.1 then c.setRing x.1 (some { x.2 with pcur := (x.2.pcur + w.2) % x.2.nslot })
          else if x.2.fsem = w.1 then c.setRing x.1 (some { x.2 with ccur := (x.2.ccur + w.2) % x.2.nslot }) else c) c).ring m).isSome := by
      intro l
      induction l with
      | nil => intro c h; exact h
      | cons x l ih2 =>
        intro c h
        refine ih2 _ ?_
        dsimp only
        split
        · exact c.ring_setRing_some _ _ _ h
        · split
          · exact c.ring_setRing_some _ _ _ h
          · exact h
    exact hfold _ _ h

theorem orElse_none {α : Type} {a b : Option α} (h : (a <|> b) = none) : a = none ∧ b = none := by
  cases a with
  | none => exact ⟨rfl, h⟩
  | some x => cases h

/-- Every ring a block reads is declared, or the block faults at issue (R172). -/
theorem ring_of_ringFault {s : State} {r : EngRef} {i : Instr} (h : ringFault s r i = none) {n : Nat} (hn : n ∈ rqRings i) :
    ((s.ctx r).ring n).isSome := by
  unfold rqRings at hn
  unfold ringFault at h
  split at hn
  · rename_i cls op b he
    rw [he] at h
    dsimp only at h
    split at hn
    · simp at hn
    · rename_i h4
      rw [List.mem_eraseDups, List.mem_append] at hn
      have key : ∀ x : Desc, x.space = spRq → ∀ w, (if cls < 4 ∨ x.space ≠ spRq then (none : Option Cause) else
          match (s.ctx r).ring x.base with
          | none => some .ringMisuse
          | some g => if g.pull.isSome ∨ 8 * g.slot < (x.seg + 1) * w then some .ringMisuse else none) = none →
          ((s.ctx r).ring x.base).isSome := by
        intro x hx w he
        rw [if_neg (by simp [h4, hx])] at he
        split at he
        · cases he
        · rename_i g hg; simp [hg]
      obtain ⟨ha, hb⟩ := orElse_none h
      rcases hn with hn | hn
      · split at hn
        · rename_i hs
          rw [List.mem_singleton] at hn; subst hn
          exact key _ hs _ ha
        · simp at hn
      · split at hn
        · rename_i hs
          rw [List.mem_singleton] at hn; subst hn
          exact key _ hs _ hb
        · simp at hn
  · simp at hn

theorem State.Issues.ringFault {s : State} {i : Instr} (h : s.Issues i) : ringFault s s.ref i = none := by
  have := h.fine
  unfold State.issueFault at this
  split at this
  · cases this
  · split at this
    · cases this
    · split at this
      · cases this
      · assumption

/-- An issuing block holds a slot of each ring it reads. -/
theorem State.Issues.taken {s : State} {i : Instr} (h : s.Issues i) (hd : Option Handle) :
    (!(rqRings i).isEmpty && (s.newEntry i hd).taken.isEmpty) = false := by
  rcases hr : rqRings i with _ | ⟨n, ns⟩
  · rfl
  · have hn : n ∈ rqRings i := by rw [hr]; exact List.mem_cons_self
    have h1 := Ctx.ring_takeWaits n (Ctl.waits (ctlOf i)) _ (ring_of_ringFault h.ringFault hn)
    have h2 := Ctx.takeSlots_ne h1 (rqRings i) hn
    simp only [State.newEntry, List.isEmpty_cons, Bool.not_false, Bool.true_and]
    rw [List.isEmpty_eq_false_iff]
    exact h2

/-- Running on at an index is a run that ends, for a slot that is not about to park. -/
theorem State.continueBlock_eq {s : State} {r : EngRef} {k : Nat} {f : InFlight} (beh : Behaviour)
    (hp : (s.slotAt r.tile r.slot).parking = false) (hf : (s.chain r).inflight[k]? = some f) :
    s.continueBlock beh r k =
      let x := runIters beh r (iterationsOf f.instr - f.ctr) { s := s, v := s.viewOf r k, f := f }
      x.s.endRun r k x.f x.fork x.fault := by
  unfold State.continueBlock
  rw [hf]
  dsimp only
  rw [hp]
  rfl

/-- A read in a calm turn leaves a run as it is. -/
theorem Run.read_calm {x : Run} {r : EngRef} (beh : Behaviour) (h : x.s.calm r = true) (hf : x.fault = none) : x.read beh r = x := by
  unfold Run.read
  dsimp only
  rw [Seen.delivers_calm h]
  cases x
  dsimp only at hf
  rw [hf]
  simp

/-- An issuing block reads in a calm turn. -/
theorem State.Issues.calmRun {s : State} {i : Instr} (h : s.Issues i) (hd : Option Handle) : (s.startBlock s.ref i hd).calm s.ref = true := by
  obtain ⟨h1, -, -, h2, -⟩ := s.startBlock_keeps i hd
  unfold State.calm
  rw [h1, (h2 _).1, h.calm, h.whole]
  rfl

/-- Nothing holds up the first iteration of an issuing block. -/
theorem State.Issues.begins {s : State} {i : Instr} (h : s.Issues i) (hd : Option Handle) :
    (s.env.idle || !(s.startBlock s.ref i hd).mayIterate s.ref (s.nextIndex s.ref)) = false := by
  rw [h.clear hd, h.calm]
  rfl

/-- A block of one iteration that delivers o has run (R88, R89). -/
theorem State.continueBlock_one {s : State} {i : Instr} {beh : Behaviour} {hd : Option Handle} {o : IterOut}
    (h : s.Issues i) (hn : iterationsOf i = 1) (ho : beh.body (s.reading i hd) s.ref (s.newEntry i hd) 0 = .ok o) :
    (s.startBlock s.ref i hd).continueBlock beh s.ref (s.nextIndex s.ref) = s.ran i hd o := by
  have ht := h.taken hd
  obtain ⟨-, -, -, -, hk⟩ := s.startBlock_keeps i hd
  rw [State.continueBlock_eq beh (by rw [hk]; exact State.parking_of_runnable (State.runnable_of_gate h.gate)) (s.entry_startBlock i hd)]
  have hi : iterationsOf (s.newEntry i hd).instr - (s.newEntry i hd).ctr = 0 + 1 := by
    show iterationsOf i - 0 = 0 + 1
    rw [hn]
  dsimp only
  rw [hi, runIters]
  have ht' : (!(rqRings (s.newEntry i hd).instr).isEmpty && (s.newEntry i hd).taken.isEmpty) = false := ht
  dsimp only
  rw [if_neg (by rw [ht']; decide)]
  have hr : ({ s := s.startBlock s.ref i hd, v := (s.startBlock s.ref i hd).viewOf s.ref (s.nextIndex s.ref),
               f := s.newEntry i hd } : Run) = s.firstRun i hd := rfl
  have hf : (s.firstRun i hd).fault = none := rfl
  rw [hr, if_neg (by rw [s.late_firstRun i hd, h.timely]; decide),
    Run.read_calm beh (h.calmRun hd) hf, if_neg (by rw [hf]; decide)]
  have ho' : beh.body ((s.firstRun i hd).seen s.ref) s.ref (s.firstRun i hd).f (s.firstRun i hd).f.ctr = .ok o := ho
  rw [ho']
  dsimp only
  unfold State.ran
  dsimp only
  split
  · rename_i hf
    obtain ⟨e, he⟩ := Option.isSome_iff_exists.mp hf
    rw [he]
    rfl
  · rw [if_neg (by simp), runIters]

/-- The meaning of an L-form block of one iteration, said once for every form. -/
theorem State.runBlock_one {s : State} {i : Instr} {beh : Behaviour} {hd : Option Handle} {o : IterOut}
    (h : s.Issues i) (hn : iterationsOf i = 1) (hc : beh.check s s.ref = .ok hd)
    (ho : beh.body (s.reading i hd) s.ref (s.newEntry i hd) 0 = .ok o) : s.runBlock beh i = s.ran i hd o := by
  unfold State.runBlock
  dsimp only
  rw [h.fresh]
  dsimp only
  rw [h.gate]
  dsimp only
  rw [h.fine]
  dsimp only
  rw [hc]
  dsimp only
  rw [h.begins hd]
  exact State.continueBlock_one h hn ho

/-- The same for a VXE form whose tags are right and whose body delivers o in both states in which the block looks at its
operands. -/
theorem State.runVec_one {s : State} {i : Instr} {b : LBlk} {body : Body} {o : IterOut} (h : s.Issues i) (hn : iterationsOf i = 1)
    (hg : s.TagsOk i b)
    (ht : ∀ x, i = .vrcot x → anyBadTol (s.seenBy s.ref (s.nextIndex s.ref)) s.ref (wouldBe s s.ref i) b = false)
    (ho : ∀ p ∈ s.views i, body p.1 s.ref p.2 0 = .ok o) : s.runBlock (vecBehaviour i b body) i = s.ran i none o := by
  refine State.runBlock_one h hn ?_ (ho _ (List.mem_cons_of_mem _ List.mem_cons_self))
  have h1 := ho _ List.mem_cons_self
  unfold vecBehaviour
  dsimp only
  dsimp only at h1
  have hg' : (!tagsOk (s.seenBy s.ref (s.nextIndex s.ref)) s.ref i b) = false := by rw [hg]; rfl
  rw [hg', if_neg (by decide), h1]
  dsimp only
  rw [if_neg]
  cases i
  case vrcot x => simp [ht x rfl]
  all_goals simp

/-! ### Blocks of one step -/

/-- A block that may issue is one of those whose issue goes on. -/
theorem State.Issues.goes {s : State} {i : Instr} (h : s.Issues i) : s.Goes i := ⟨h.gate, h.fine, h.calm, h.whole⟩

/-- What the semaphores hold where a block issues (R27). -/
theorem State.semsHold_of_gate {s : State} {r : EngRef} {i : Instr} (h : s.gate r i = .go) : (s.ctx r).semsHold i = true := by
  unfold State.gate at h
  split at h
  · cases h
  · rename_i h1
    simp only [State.canIssue, Bool.not_eq_true', Bool.and_eq_true, Bool.eq_false_iff, ne_eq, not_not] at h1
    exact h1.1.1.2

/-- A block of one step does what its effect gives, in the state in which it has issued. -/
theorem State.runStep_ok {s t : State} {i : Instr} {eff : State → EngRef → Nat → Except BlockFault State} (h : s.Goes i)
    (he : eff (s.issued i) s.ref (s.nextIndex s.ref) = .ok t) : s.runStep eff i = t := by
  have hc : s.calm s.ref = true := by simp [State.calm, h.calm, h.whole]
  have he' : eff (s.startBlock s.ref i none) s.ref (s.nextIndex s.ref) = .ok t := he
  unfold State.runStep
  dsimp only
  rw [h.gate]
  dsimp only
  rw [h.fine]
  dsimp only
  rw [Seen.delivers_calm (x := { s := s, v := s.viewOf s.ref (s.nextIndex s.ref) }) hc]
  dsimp only
  rw [he']

/-- Where its effect is a fault it has not issued (R88). -/
theorem State.runStep_error {s : State} {i : Instr} {e : BlockFault} {eff : State → EngRef → Nat → Except BlockFault State} (h : s.Goes i)
    (he : eff (s.issued i) s.ref (s.nextIndex s.ref) = .error e) : s.runStep eff i = s.issueStop s.ref e := by
  have hc : s.calm s.ref = true := by simp [State.calm, h.calm, h.whole]
  have he' : eff (s.startBlock s.ref i none) s.ref (s.nextIndex s.ref) = .error e := he
  unfold State.runStep
  dsimp only
  rw [h.gate]
  dsimp only
  rw [h.fine]
  dsimp only
  rw [Seen.delivers_calm (x := { s := s, v := s.viewOf s.ref (s.nextIndex s.ref) }) hc]
  dsimp only
  rw [he']

/-- One that completes as it issues ends with its completion. -/
theorem State.runNow_ok {s t : State} {i : Instr} {eff : State → EngRef → Nat → Except BlockFault State} (h : s.Goes i)
    (he : eff (s.issued i) s.ref (s.nextIndex s.ref) = .ok t) : s.runNow eff i = s.finish t :=
  State.runStep_ok h (by simp only [he]; rfl)

theorem State.runNow_error {s : State} {i : Instr} {e : BlockFault} {eff : State → EngRef → Nat → Except BlockFault State} (h : s.Goes i)
    (he : eff (s.issued i) s.ref (s.nextIndex s.ref) = .error e) : s.runNow eff i = s.issueStop s.ref e :=
  State.runStep_error h (by simp only [he])

/-- A block that raises a cause does so as it issues, and completes when it is resumed (R108). -/
theorem State.runRaise_ok {s t : State} {i : Instr} {eff : State → EngRef → Nat → Except BlockFault State} (h : s.Issues i)
    (he : eff (s.issued i) s.ref (s.nextIndex s.ref) = .ok t) : s.runRaise eff i = t := by
  unfold State.runRaise
  rw [h.fresh]
  exact State.runStep_ok h.goes he

theorem State.runRaise_error {s : State} {i : Instr} {e : BlockFault} {eff : State → EngRef → Nat → Except BlockFault State} (h : s.Issues i)
    (he : eff (s.issued i) s.ref (s.nextIndex s.ref) = .error e) : s.runRaise eff i = s.issueStop s.ref e := by
  unfold State.runRaise
  rw [h.fresh]
  exact State.runStep_error h.goes he

theorem State.runRaise_resumed {s : State} {i : Instr} {k : Nat} (hk : findRun i (s.chain s.ref).inflight 0 = some k)
    (hr : s.runnable s.ref = true) (hl : s.signalsLate s.ref i = false) (eff : State → EngRef → Nat → Except BlockFault State) : s.runRaise eff i = s.completeBlock s.ref k := by
  unfold State.runRaise
  rw [hk]
  simp [hr, hl]

/-- The address at which an issued block stands. -/
theorem State.ownAddr_issued (s : State) (i : Instr) : (s.issued i).ownAddr s.ref (s.nextIndex s.ref) = (s.chain s.ref).cursor := by
  unfold State.ownAddr State.issued
  rw [State.entry_startBlock]
  rfl

/-! ### Watches (R142, R185) -/

/-- A turn's look at a watched word reports a value, or leaves the module as it is. -/
theorem State.watchHead_cases (s : State) (r : EngRef) :
    s.watchHead r = s ∨ ∃ i v hot, s.watchHead r = (s.sampleAll hot).updChain r fun h => { h with report := some (i, v) } := by
  unfold State.watchHead
  repeat' split
  all_goals first | exact .inl rfl | exact .inr ⟨_, _, _, rfl⟩

end Sys2Proof.Machine
end

