-- ==== Sys2Proof/Laws/PerInstr.lean ====
section
/-! SUPPORT. What every constructor's place in the opcode map says, one lemma per constructor. -/

set_option Elab.async false

namespace Sys2Proof.Laws.Parts

open Sys2Proof

/-- The codec's tables agree at an instruction: what its encoder writes as class, opcode, variant and operand words, or as
group, operation and registers, its decoder reads as the same instruction; an event has no encoding. -/
def Statement (i : Instr) : Prop :=
  (∀ cls op b, lParts i = some (cls, op, b) → cls < 10 ∧ op < 256 ∧ sParts i = none ∧ ∃ k, lCtor cls op = some k ∧ k b = i) ∧
  (∀ cls op opx c p q, sParts i = some (cls, op, opx, c, p, q) → cls < 10 ∧ op < 256 ∧ lParts i = none ∧
    (i.fits = true → sCtor cls op opx c p q = some i)) ∧
  (∀ f3 f7 rd rs1 rs2, xParts i = some (f3, f7, rd, rs1, rs2) → f3 < 8 ∧ f7 < 128 ∧ lParts i = none ∧ sParts i = none ∧
    xCtor f3 f7 rd rs1 rs2 = some i) ∧
  (lParts i = none → sParts i = none → encode i = [] ∧ (xParts i = none → encodeX i = none))

theorem of_l {i : Instr} {cls op : Nat} {b : LBlk} {k : LBlk → Instr} (h : lParts i = some (cls, op, b)) (hs : sParts i = none)
    (hx : xParts i = none) (hk : lCtor cls op = some k) (e : k b = i) (_ : encodeX i = none) (h1 : cls < 10) (h2 : op < 256) : Statement i := by
  refine ⟨fun _ _ _ g => ?_, fun _ _ _ _ _ _ g => by simp [hs] at g, fun _ _ _ _ _ g => by simp [hx] at g, fun g => by simp [h] at g⟩
  obtain ⟨rfl, rfl, rfl⟩ : cls = _ ∧ op = _ ∧ b = _ := by simpa [h] using g
  exact ⟨h1, h2, hs, k, hk, e⟩

theorem of_s {i : Instr} {cls op opx p q : Nat} {c : Ctl} (h : sParts i = some (cls, op, opx, c, p, q)) (hl : lParts i = none)
    (hx : xParts i = none) (h1 : cls < 10) (h2 : op < 256) (hk : i.fits = true → sCtor cls op opx c p q = some i) : Statement i := by
  refine ⟨fun _ _ _ g => by simp [hl] at g, fun _ _ _ _ _ _ g => ?_, fun _ _ _ _ _ g => by simp [hx] at g, fun _ g => by simp [h] at g⟩
  obtain ⟨rfl, rfl, rfl, rfl, rfl, rfl⟩ : cls = _ ∧ op = _ ∧ opx = _ ∧ c = _ ∧ p = _ ∧ q = _ := by simpa [h] using g
  exact ⟨h1, h2, hl, hk⟩

theorem of_x {i : Instr} {f3 f7 rd rs1 rs2 : Nat} (h : xParts i = some (f3, f7, rd, rs1, rs2)) (hl : lParts i = none)
    (hs : sParts i = none) (hk : xCtor f3 f7 rd rs1 rs2 = some i) (h1 : f3 < 8) (h2 : f7 < 128) : Statement i := by
  refine ⟨fun _ _ _ g => by simp [hl] at g, fun _ _ _ _ _ _ g => by simp [hs] at g, fun _ _ _ _ _ g => ?_, fun _ _ => ⟨?_, fun g => ?_⟩⟩
  · obtain ⟨rfl, rfl, rfl, rfl, rfl⟩ : f3 = _ ∧ f7 = _ ∧ rd = _ ∧ rs1 = _ ∧ rs2 = _ := by simpa [h] using g
    exact ⟨h1, h2, hl, hs, hk⟩
  · simp [encode, hl, hs]
  · simp [h] at g

theorem of_event {i : Instr} (hl : lParts i = none) (hs : sParts i = none) (hx : xParts i = none) : Statement i :=
  ⟨fun _ _ _ g => by simp [hl] at g, fun _ _ _ _ _ _ g => by simp [hs] at g, fun _ _ _ _ _ g => by simp [hx] at g,
    fun _ _ => ⟨by simp [encode, hl, hs], fun _ => by simp [encodeX, hx]⟩⟩

theorem nop (c : Ctl) : Statement (.nop c) := of_s rfl rfl rfl (by decide) (by decide) fun _ => rfl
theorem endChain (c : Ctl) : Statement (.endChain c) := of_s rfl rfl rfl (by decide) (by decide) fun _ => rfl
theorem link (c : Ctl) (tgt : Nat) : Statement (.link c tgt) := of_s rfl rfl rfl (by decide) (by decide) fun h => by
  simp [Instr.fits] at h
  simp [sCtor]
  omega
theorem brc (c : Ctl) (cond tgt imm off : Nat) : Statement (.brc c cond tgt imm off) := of_s rfl rfl rfl (by decide) (by decide) fun h => by
  simp [Instr.fits] at h
  simp [sCtor]
  omega
theorem brcd (c : Ctl) (tgt off : Nat) : Statement (.brcd c tgt off) := of_s rfl rfl rfl (by decide) (by decide) fun h => by
  simp [Instr.fits] at h
  simp [sCtor]
  omega
theorem patch (c : Ctl) (len tgt off : Nat) : Statement (.patch c len tgt off) := of_s rfl rfl rfl (by decide) (by decide) fun h => by
  simp [Instr.fits] at h
  simp [sCtor]
  omega
theorem patchi (c : Ctl) (len tgt imm : Nat) : Statement (.patchi c len tgt imm) := of_s rfl rfl rfl (by decide) (by decide) fun h => by
  simp [Instr.fits] at h
  simp [sCtor]
  omega
theorem patchv (c : Ctl) (len tgt elem vreg : Nat) : Statement (.patchv c len tgt elem vreg) := of_s rfl rfl rfl (by decide) (by decide) fun h => by
  simp [Instr.fits] at h
  simp [sCtor]
  omega
theorem yieldSlot (c : Ctl) : Statement (.yieldSlot c) := of_s rfl rfl rfl (by decide) (by decide) fun _ => rfl
theorem spawn (c : Ctl) (rb roff inh : Nat) : Statement (.spawn c rb roff inh) := of_s rfl rfl rfl (by decide) (by decide) fun h => by
  simp [Instr.fits] at h
  simp [sCtor]
  omega
theorem svc (c : Ctl) (svcno arg : Nat) : Statement (.svc c svcno arg) := of_s rfl rfl rfl (by decide) (by decide) fun h => by
  simp [Instr.fits] at h
  simp [sCtor]
  omega
theorem trap (c : Ctl) (tno arg : Nat) : Statement (.trap c tno arg) := of_s rfl rfl rfl (by decide) (by decide) fun h => by
  simp [Instr.fits] at h
  simp [sCtor]
  omega
theorem brkp (c : Ctl) (tag : Nat) : Statement (.brkp c tag) := of_s rfl rfl rfl (by decide) (by decide) fun h => by
  simp [Instr.fits] at h
  simp [sCtor]
  omega
theorem flti (c : Ctl) (cause val : Nat) : Statement (.flti c cause val) := of_s rfl rfl rfl (by decide) (by decide) fun h => by
  simp [Instr.fits] at h
  simp [sCtor]
  omega
theorem ldt (b : LBlk) : Statement (.ldt b) := of_l rfl rfl rfl rfl rfl rfl (by decide) (by decide)
theorem ldg (b : LBlk) : Statement (.ldg b) := of_l rfl rfl rfl rfl rfl rfl (by decide) (by decide)
theorem ldgr (b : LBlk) : Statement (.ldgr b) := of_l rfl rfl rfl rfl rfl rfl (by decide) (by decide)
theorem ldwb (b : LBlk) : Statement (.ldwb b) := of_l rfl rfl rfl rfl rfl rfl (by decide) (by decide)
theorem ldf (b : LBlk) : Statement (.ldf b) := of_l rfl rfl rfl rfl rfl rfl (by decide) (by decide)
theorem ldx (b : LBlk) : Statement (.ldx b) := of_l rfl rfl rfl rfl rfl rfl (by decide) (by decide)
theorem ldxl (b : LBlk) : Statement (.ldxl b) := of_l rfl rfl rfl rfl rfl rfl (by decide) (by decide)
theorem ldw (b : LBlk) : Statement (.ldw b) := of_l rfl rfl rfl rfl rfl rfl (by decide) (by decide)
theorem ldq (b : LBlk) : Statement (.ldq b) := of_l rfl rfl rfl rfl rfl rfl (by decide) (by decide)
theorem sub (b : LBlk) : Statement (.sub b) := of_l rfl rfl rfl rfl rfl rfl (by decide) (by decide)
theorem subc (b : LBlk) : Statement (.subc b) := of_l rfl rfl rfl rfl rfl rfl (by decide) (by decide)
theorem ldacq (c : Ctl) (wt w64 scope rb roff imm off : Nat) : Statement (.ldacq c wt w64 scope rb roff imm off) := of_s rfl rfl rfl (by decide) (by decide) fun h => by
  simp [Instr.fits] at h
  simp [sCtor]
  omega
theorem stt (b : LBlk) : Statement (.stt b) := of_l rfl rfl rfl rfl rfl rfl (by decide) (by decide)
theorem stg (b : LBlk) : Statement (.stg b) := of_l rfl rfl rfl rfl rfl rfl (by decide) (by decide)
theorem stgr (b : LBlk) : Statement (.stgr b) := of_l rfl rfl rfl rfl rfl rfl (by decide) (by decide)
theorem stx (b : LBlk) : Statement (.stx b) := of_l rfl rfl rfl rfl rfl rfl (by decide) (by decide)
theorem stxl (b : LBlk) : Statement (.stxl b) := of_l rfl rfl rfl rfl rfl rfl (by decide) (by decide)
theorem strd (b : LBlk) : Statement (.strd b) := of_l rfl rfl rfl rfl rfl rfl (by decide) (by decide)
theorem atadd (b : LBlk) : Statement (.atadd b) := of_l rfl rfl rfl rfl rfl rfl (by decide) (by decide)
theorem atsmin (b : LBlk) : Statement (.atsmin b) := of_l rfl rfl rfl rfl rfl rfl (by decide) (by decide)
theorem atsmax (b : LBlk) : Statement (.atsmax b) := of_l rfl rfl rfl rfl rfl rfl (by decide) (by decide)
theorem atumin (b : LBlk) : Statement (.atumin b) := of_l rfl rfl rfl rfl rfl rfl (by decide) (by decide)
theorem atumax (b : LBlk) : Statement (.atumax b) := of_l rfl rfl rfl rfl rfl rfl (by decide) (by decide)
theorem atand (b : LBlk) : Statement (.atand b) := of_l rfl rfl rfl rfl rfl rfl (by decide) (by decide)
theorem ator (b : LBlk) : Statement (.ator b) := of_l rfl rfl rfl rfl rfl rfl (by decide) (by decide)
theorem atxor (b : LBlk) : Statement (.atxor b) := of_l rfl rfl rfl rfl rfl rfl (by decide) (by decide)
theorem atxch (b : LBlk) : Statement (.atxch b) := of_l rfl rfl rfl rfl rfl rfl (by decide) (by decide)
theorem atcas (b : LBlk) : Statement (.atcas b) := of_l rfl rfl rfl rfl rfl rfl (by decide) (by decide)
theorem atfadd (b : LBlk) : Statement (.atfadd b) := of_l rfl rfl rfl rfl rfl rfl (by decide) (by decide)
theorem strel (c : Ctl) (si w64 scope rb roff imm off : Nat) : Statement (.strel c si w64 scope rb roff imm off) := of_s rfl rfl rfl (by decide) (by decide) fun h => by
  simp [Instr.fits] at h
  simp [sCtor]
  omega
theorem pub (b : LBlk) : Statement (.pub b) := of_l rfl rfl rfl rfl rfl rfl (by decide) (by decide)
theorem pubc (b : LBlk) : Statement (.pubc b) := of_l rfl rfl rfl rfl rfl rfl (by decide) (by decide)
theorem semi (c : Ctl) (sem val : Nat) : Statement (.semi c sem val) := of_s rfl rfl rfl (by decide) (by decide) fun h => by
  simp [Instr.fits] at h
  simp [sCtor]
  omega
theorem semq (c : Ctl) (sem off : Nat) : Statement (.semq c sem off) := of_s rfl rfl rfl (by decide) (by decide) fun h => by
  simp [Instr.fits] at h
  simp [sCtor]
  omega
theorem semw (c : Ctl) (dec sem cnt : Nat) : Statement (.semw c dec sem cnt) := of_s rfl rfl rfl (by decide) (by decide) fun h => by
  simp [Instr.fits] at h
  simp [sCtor]
  omega
theorem sems (c : Ctl) (rmt slot tile sem cnt : Nat) : Statement (.sems c rmt slot tile sem cnt) := of_s rfl rfl rfl (by decide) (by decide) fun h => by
  simp [Instr.fits] at h
  simp [sCtor]
  omega
theorem regd (c : Ctl) (b2v b2w b2sem b1v b1w b1sem mode space reg len off : Nat) : Statement (.regd c b2v b2w b2sem b1v b1w b1sem mode space reg len off) := of_s rfl rfl rfl (by decide) (by decide) fun h => by
  simp [Instr.fits] at h
  simp [sCtor]
  omega
theorem ringd (c : Ctl) (prod esem fsem reg ring slot64 nslot : Nat) : Statement (.ringd c prod esem fsem reg ring slot64 nslot) := of_s rfl rfl rfl (by decide) (by decide) fun h => by
  simp [Instr.fits] at h
  simp [sCtor]
  omega
theorem eos (c : Ctl) (ring : Nat) : Statement (.eos c ring) := of_s rfl rfl rfl (by decide) (by decide) fun h => by
  simp [Instr.fits] at h
  simp [sCtor]
  omega
theorem bari (c : Ctl) (pt exp : Nat) : Statement (.bari c pt exp) := of_s rfl rfl rfl (by decide) (by decide) fun h => by
  simp [Instr.fits] at h
  simp [sCtor]
  omega
theorem bara (c : Ctl) (pt pw off : Nat) : Statement (.bara c pt pw off) := of_s rfl rfl rfl (by decide) (by decide) fun h => by
  simp [Instr.fits] at h
  simp [sCtor]
  omega
theorem barw (c : Ctl) (pt off : Nat) : Statement (.barw c pt off) := of_s rfl rfl rfl (by decide) (by decide) fun h => by
  simp [Instr.fits] at h
  simp [sCtor]
  omega
theorem fence (c : Ctl) (scope : Nat) : Statement (.fence c scope) := of_s rfl rfl rfl (by decide) (by decide) fun _ => rfl
theorem post (c : Ctl) (op scope rb roff val : Nat) : Statement (.post c op scope rb roff val) := of_s rfl rfl rfl (by decide) (by decide) fun h => by
  simp [Instr.fits] at h
  simp [sCtor]
  omega
theorem join (c : Ctl) (scope rb roff thr : Nat) : Statement (.join c scope rb roff thr) := of_s rfl rfl rfl (by decide) (by decide) fun h => by
  simp [Instr.fits] at h
  simp [sCtor]
  omega
theorem vadd (b : LBlk) : Statement (.vadd b) := of_l rfl rfl rfl rfl rfl rfl (by decide) (by decide)
theorem vsub (b : LBlk) : Statement (.vsub b) := of_l rfl rfl rfl rfl rfl rfl (by decide) (by decide)
theorem vmul (b : LBlk) : Statement (.vmul b) := of_l rfl rfl rfl rfl rfl rfl (by decide) (by decide)
theorem vdiv (b : LBlk) : Statement (.vdiv b) := of_l rfl rfl rfl rfl rfl rfl (by decide) (by decide)
theorem vfma (b : LBlk) : Statement (.vfma b) := of_l rfl rfl rfl rfl rfl rfl (by decide) (by decide)
theorem vfms (b : LBlk) : Statement (.vfms b) := of_l rfl rfl rfl rfl rfl rfl (by decide) (by decide)
theorem vfnma (b : LBlk) : Statement (.vfnma b) := of_l rfl rfl rfl rfl rfl rfl (by decide) (by decide)
theorem vsqrt (b : LBlk) : Statement (.vsqrt b) := of_l rfl rfl rfl rfl rfl rfl (by decide) (by decide)
theorem vrndi (b : LBlk) : Statement (.vrndi b) := of_l rfl rfl rfl rfl rfl rfl (by decide) (by decide)
theorem vmin (b : LBlk) : Statement (.vmin b) := of_l rfl rfl rfl rfl rfl rfl (by decide) (by decide)
theorem vmax (b : LBlk) : Statement (.vmax b) := of_l rfl rfl rfl rfl rfl rfl (by decide) (by decide)
theorem vabs (b : LBlk) : Statement (.vabs b) := of_l rfl rfl rfl rfl rfl rfl (by decide) (by decide)
theorem vneg (b : LBlk) : Statement (.vneg b) := of_l rfl rfl rfl rfl rfl rfl (by decide) (by decide)
theorem vcpys (b : LBlk) : Statement (.vcpys b) := of_l rfl rfl rfl rfl rfl rfl (by decide) (by decide)
theorem vexpx (b : LBlk) : Statement (.vexpx b) := of_l rfl rfl rfl rfl rfl rfl (by decide) (by decide)
theorem vmant (b : LBlk) : Statement (.vmant b) := of_l rfl rfl rfl rfl rfl rfl (by decide) (by decide)
theorem vexpins (b : LBlk) : Statement (.vexpins b) := of_l rfl rfl rfl rfl rfl rfl (by decide) (by decide)
theorem vfexp2 (b : LBlk) : Statement (.vfexp2 b) := of_l rfl rfl rfl rfl rfl rfl (by decide) (by decide)
theorem vrcp (b : LBlk) : Statement (.vrcp b) := of_l rfl rfl rfl rfl rfl rfl (by decide) (by decide)
theorem vrsq (b : LBlk) : Statement (.vrsq b) := of_l rfl rfl rfl rfl rfl rfl (by decide) (by decide)
theorem vlog2f (b : LBlk) : Statement (.vlog2f b) := of_l rfl rfl rfl rfl rfl rfl (by decide) (by decide)
theorem vmov (b : LBlk) : Statement (.vmov b) := of_l rfl rfl rfl rfl rfl rfl (by decide) (by decide)
theorem vbcst (b : LBlk) : Statement (.vbcst b) := of_l rfl rfl rfl rfl rfl rfl (by decide) (by decide)
theorem viota (b : LBlk) : Statement (.viota b) := of_l rfl rfl rfl rfl rfl rfl (by decide) (by decide)
theorem vrun (b : LBlk) : Statement (.vrun b) := of_l rfl rfl rfl rfl rfl rfl (by decide) (by decide)
theorem vlen (b : LBlk) : Statement (.vlen b) := of_l rfl rfl rfl rfl rfl rfl (by decide) (by decide)
theorem viadd (b : LBlk) : Statement (.viadd b) := of_l rfl rfl rfl rfl rfl rfl (by decide) (by decide)
theorem visub (b : LBlk) : Statement (.visub b) := of_l rfl rfl rfl rfl rfl rfl (by decide) (by decide)
theorem vimul (b : LBlk) : Statement (.vimul b) := of_l rfl rfl rfl rfl rfl rfl (by decide) (by decide)
theorem vimad (b : LBlk) : Statement (.vimad b) := of_l rfl rfl rfl rfl rfl rfl (by decide) (by decide)
theorem vimulh (b : LBlk) : Statement (.vimulh b) := of_l rfl rfl rfl rfl rfl rfl (by decide) (by decide)
theorem vimulhu (b : LBlk) : Statement (.vimulhu b) := of_l rfl rfl rfl rfl rfl rfl (by decide) (by decide)
theorem vimin (b : LBlk) : Statement (.vimin b) := of_l rfl rfl rfl rfl rfl rfl (by decide) (by decide)
theorem vimax (b : LBlk) : Statement (.vimax b) := of_l rfl rfl rfl rfl rfl rfl (by decide) (by decide)
theorem vumin (b : LBlk) : Statement (.vumin b) := of_l rfl rfl rfl rfl rfl rfl (by decide) (by decide)
theorem vumax (b : LBlk) : Statement (.vumax b) := of_l rfl rfl rfl rfl rfl rfl (by decide) (by decide)
theorem vand (b : LBlk) : Statement (.vand b) := of_l rfl rfl rfl rfl rfl rfl (by decide) (by decide)
theorem vor (b : LBlk) : Statement (.vor b) := of_l rfl rfl rfl rfl rfl rfl (by decide) (by decide)
theorem vxor (b : LBlk) : Statement (.vxor b) := of_l rfl rfl rfl rfl rfl rfl (by decide) (by decide)
theorem vnot (b : LBlk) : Statement (.vnot b) := of_l rfl rfl rfl rfl rfl rfl (by decide) (by decide)
theorem vshl (b : LBlk) : Statement (.vshl b) := of_l rfl rfl rfl rfl rfl rfl (by decide) (by decide)
theorem vshr (b : LBlk) : Statement (.vshr b) := of_l rfl rfl rfl rfl rfl rfl (by decide) (by decide)
theorem vsra (b : LBlk) : Statement (.vsra b) := of_l rfl rfl rfl rfl rfl rfl (by decide) (by decide)
theorem vclz (b : LBlk) : Statement (.vclz b) := of_l rfl rfl rfl rfl rfl rfl (by decide) (by decide)
theorem vpop (b : LBlk) : Statement (.vpop b) := of_l rfl rfl rfl rfl rfl rfl (by decide) (by decide)
theorem vld (b : LBlk) : Statement (.vld b) := of_l rfl rfl rfl rfl rfl rfl (by decide) (by decide)
theorem vst (b : LBlk) : Statement (.vst b) := of_l rfl rfl rfl rfl rfl rfl (by decide) (by decide)
theorem vldr (b : LBlk) : Statement (.vldr b) := of_l rfl rfl rfl rfl rfl rfl (by decide) (by decide)
theorem vstr (b : LBlk) : Statement (.vstr b) := of_l rfl rfl rfl rfl rfl rfl (by decide) (by decide)
theorem vcmp (b : LBlk) : Statement (.vcmp b) := of_l rfl rfl rfl rfl rfl rfl (by decide) (by decide)
theorem vicmp (b : LBlk) : Statement (.vicmp b) := of_l rfl rfl rfl rfl rfl rfl (by decide) (by decide)
theorem vsel (b : LBlk) : Statement (.vsel b) := of_l rfl rfl rfl rfl rfl rfl (by decide) (by decide)
theorem vmand (b : LBlk) : Statement (.vmand b) := of_l rfl rfl rfl rfl rfl rfl (by decide) (by decide)
theorem vmor (b : LBlk) : Statement (.vmor b) := of_l rfl rfl rfl rfl rfl rfl (by decide) (by decide)
theorem vmxor (b : LBlk) : Statement (.vmxor b) := of_l rfl rfl rfl rfl rfl rfl (by decide) (by decide)
theorem vmnot (b : LBlk) : Statement (.vmnot b) := of_l rfl rfl rfl rfl rfl rfl (by decide) (by decide)
theorem vmcnt (b : LBlk) : Statement (.vmcnt b) := of_l rfl rfl rfl rfl rfl rfl (by decide) (by decide)
theorem vmfst (b : LBlk) : Statement (.vmfst b) := of_l rfl rfl rfl rfl rfl rfl (by decide) (by decide)
theorem vrsum (b : LBlk) : Statement (.vrsum b) := of_l rfl rfl rfl rfl rfl rfl (by decide) (by decide)
theorem vrisum (b : LBlk) : Statement (.vrisum b) := of_l rfl rfl rfl rfl rfl rfl (by decide) (by decide)
theorem vrmax (b : LBlk) : Statement (.vrmax b) := of_l rfl rfl rfl rfl rfl rfl (by decide) (by decide)
theorem vrmin (b : LBlk) : Statement (.vrmin b) := of_l rfl rfl rfl rfl rfl rfl (by decide) (by decide)
theorem vrarg (b : LBlk) : Statement (.vrarg b) := of_l rfl rfl rfl rfl rfl rfl (by decide) (by decide)
theorem vrcnt (b : LBlk) : Statement (.vrcnt b) := of_l rfl rfl rfl rfl rfl rfl (by decide) (by decide)
theorem vscan (b : LBlk) : Statement (.vscan b) := of_l rfl rfl rfl rfl rfl rfl (by decide) (by decide)
theorem vcomp (b : LBlk) : Statement (.vcomp b) := of_l rfl rfl rfl rfl rfl rfl (by decide) (by decide)
theorem vexpd (b : LBlk) : Statement (.vexpd b) := of_l rfl rfl rfl rfl rfl rfl (by decide) (by decide)
theorem vgath (b : LBlk) : Statement (.vgath b) := of_l rfl rfl rfl rfl rfl rfl (by decide) (by decide)
theorem vrco (b : LBlk) : Statement (.vrco b) := of_l rfl rfl rfl rfl rfl rfl (by decide) (by decide)
theorem vrcot (b : LBlk) : Statement (.vrcot b) := of_l rfl rfl rfl rfl rfl rfl (by decide) (by decide)
theorem vtopk (b : LBlk) : Statement (.vtopk b) := of_l rfl rfl rfl rfl rfl rfl (by decide) (by decide)
theorem vhist (b : LBlk) : Statement (.vhist b) := of_l rfl rfl rfl rfl rfl rfl (by decide) (by decide)
theorem vdot (b : LBlk) : Statement (.vdot b) := of_l rfl rfl rfl rfl rfl rfl (by decide) (by decide)
theorem fcvt (b : LBlk) : Statement (.fcvt b) := of_l rfl rfl rfl rfl rfl rfl (by decide) (by decide)
theorem fcvti (b : LBlk) : Statement (.fcvti b) := of_l rfl rfl rfl rfl rfl rfl (by decide) (by decide)
theorem icvtf (b : LBlk) : Statement (.icvtf b) := of_l rfl rfl rfl rfl rfl rfl (by decide) (by decide)
theorem icvt (b : LBlk) : Statement (.icvt b) := of_l rfl rfl rfl rfl rfl rfl (by decide) (by decide)
theorem lgenc (b : LBlk) : Statement (.lgenc b) := of_l rfl rfl rfl rfl rfl rfl (by decide) (by decide)
theorem lgdec (b : LBlk) : Statement (.lgdec b) := of_l rfl rfl rfl rfl rfl rfl (by decide) (by decide)
theorem qnt (b : LBlk) : Statement (.qnt b) := of_l rfl rfl rfl rfl rfl rfl (by decide) (by decide)
theorem dqnt (b : LBlk) : Statement (.dqnt b) := of_l rfl rfl rfl rfl rfl rfl (by decide) (by decide)
theorem pk4 (b : LBlk) : Statement (.pk4 b) := of_l rfl rfl rfl rfl rfl rfl (by decide) (by decide)
theorem upk4 (b : LBlk) : Statement (.upk4 b) := of_l rfl rfl rfl rfl rfl rfl (by decide) (by decide)
theorem fclass (b : LBlk) : Statement (.fclass b) := of_l rfl rfl rfl rfl rfl rfl (by decide) (by decide)
theorem mma (b : LBlk) : Statement (.mma b) := of_l rfl rfl rfl rfl rfl rfl (by decide) (by decide)
theorem mmas (b : LBlk) : Statement (.mmas b) := of_l rfl rfl rfl rfl rfl rfl (by decide) (by decide)
theorem mmd (b : LBlk) : Statement (.mmd b) := of_l rfl rfl rfl rfl rfl rfl (by decide) (by decide)
theorem mmc (b : LBlk) : Statement (.mmc b) := of_l rfl rfl rfl rfl rfl rfl (by decide) (by decide)
theorem acz (b : LBlk) : Statement (.acz b) := of_l rfl rfl rfl rfl rfl rfl (by decide) (by decide)
theorem acr (b : LBlk) : Statement (.acr b) := of_l rfl rfl rfl rfl rfl rfl (by decide) (by decide)
theorem acw (b : LBlk) : Statement (.acw b) := of_l rfl rfl rfl rfl rfl rfl (by decide) (by decide)
theorem acmv (b : LBlk) : Statement (.acmv b) := of_l rfl rfl rfl rfl rfl rfl (by decide) (by decide)
theorem drn (b : LBlk) : Statement (.drn b) := of_l rfl rfl rfl rfl rfl rfl (by decide) (by decide)
theorem winl (b : LBlk) : Statement (.winl b) := of_l rfl rfl rfl rfl rfl rfl (by decide) (by decide)
theorem wpool (b : LBlk) : Statement (.wpool b) := of_l rfl rfl rfl rfl rfl rfl (by decide) (by decide)
theorem vbfly (b : LBlk) : Statement (.vbfly b) := of_l rfl rfl rfl rfl rfl rfl (by decide) (by decide)
theorem vtwd (b : LBlk) : Statement (.vtwd b) := of_l rfl rfl rfl rfl rfl rfl (by decide) (by decide)
theorem vcmul (b : LBlk) : Statement (.vcmul b) := of_l rfl rfl rfl rfl rfl rfl (by decide) (by decide)
theorem migr (c : Ctl) (dtier rb roff npg : Nat) : Statement (.migr c dtier rb roff npg) := of_s rfl rfl rfl (by decide) (by decide) fun h => by
  simp [Instr.fits] at h
  simp [sCtor]
  omega
theorem migrs (c : Ctl) (dtier rb roff npg : Nat) : Statement (.migrs c dtier rb roff npg) := of_s rfl rfl rfl (by decide) (by decide) fun h => by
  simp [Instr.fits] at h
  simp [sCtor]
  omega
theorem mpin (c : Ctl) (rb roff npg : Nat) : Statement (.mpin c rb roff npg) := of_s rfl rfl rfl (by decide) (by decide) fun h => by
  simp [Instr.fits] at h
  simp [sCtor]
  omega
theorem munpin (c : Ctl) (rb roff npg : Nat) : Statement (.munpin c rb roff npg) := of_s rfl rfl rfl (by decide) (by decide) fun h => by
  simp [Instr.fits] at h
  simp [sCtor]
  omega
theorem madv (c : Ctl) (adv rb roff npg : Nat) : Statement (.madv c adv rb roff npg) := of_s rfl rfl rfl (by decide) (by decide) fun h => by
  simp [Instr.fits] at h
  simp [sCtor]
  omega
theorem mabrt (c : Ctl) (rb roff npg : Nat) : Statement (.mabrt c rb roff npg) := of_s rfl rfl rfl (by decide) (by decide) fun h => by
  simp [Instr.fits] at h
  simp [sCtor]
  omega
theorem mhot (c : Ctl) (clr rb roff npg off : Nat) : Statement (.mhot c clr rb roff npg off) := of_s rfl rfl rfl (by decide) (by decide) fun h => by
  simp [Instr.fits] at h
  simp [sCtor]
  omega
theorem mqry (c : Ctl) (rb roff npg off : Nat) : Statement (.mqry c rb roff npg off) := of_s rfl rfl rfl (by decide) (by decide) fun h => by
  simp [Instr.fits] at h
  simp [sCtor]
  omega
theorem tkpost (rd rs1 rs2 : Nat) : Statement (.tkpost rd rs1 rs2) := of_x rfl rfl rfl rfl (by decide) (by decide)
theorem tkcncl (rd rs1 rs2 : Nat) : Statement (.tkcncl rd rs1 rs2) := of_x rfl rfl rfl rfl (by decide) (by decide)
theorem tkstat (rd rs1 rs2 : Nat) : Statement (.tkstat rd rs1 rs2) := of_x rfl rfl rfl rfl (by decide) (by decide)
theorem tkrsm (rd rs1 rs2 : Nat) : Statement (.tkrsm rd rs1 rs2) := of_x rfl rfl rfl rfl (by decide) (by decide)
theorem tkpark (rd rs1 rs2 : Nat) : Statement (.tkpark rd rs1 rs2) := of_x rfl rfl rfl rfl (by decide) (by decide)
theorem lnnew (rd rs1 : Nat) : Statement (.lnnew rd rs1) := of_x rfl rfl rfl rfl (by decide) (by decide)
theorem lncnt (rd rs1 : Nat) : Statement (.lncnt rd rs1) := of_x rfl rfl rfl rfl (by decide) (by decide)
theorem lncncl (rd rs1 : Nat) : Statement (.lncncl rd rs1) := of_x rfl rfl rfl rfl (by decide) (by decide)
theorem grcnt (rd rs1 : Nat) : Statement (.grcnt rd rs1) := of_x rfl rfl rfl rfl (by decide) (by decide)
theorem grcncl (rd rs1 : Nat) : Statement (.grcncl rd rs1) := of_x rfl rfl rfl rfl (by decide) (by decide)
theorem jbcnt (rd rs1 : Nat) : Statement (.jbcnt rd rs1) := of_x rfl rfl rfl rfl (by decide) (by decide)
theorem jbcncl (rd rs1 : Nat) : Statement (.jbcncl rd rs1) := of_x rfl rfl rfl rfl (by decide) (by decide)
theorem semrd (rd rs1 : Nat) : Statement (.semrd rd rs1) := of_x rfl rfl rfl rfl (by decide) (by decide)
theorem semwr (rd rs1 rs2 : Nat) : Statement (.semwr rd rs1 rs2) := of_x rfl rfl rfl rfl (by decide) (by decide)
theorem semsig (rd rs1 rs2 : Nat) : Statement (.semsig rd rs1 rs2) := of_x rfl rfl rfl rfl (by decide) (by decide)
theorem barini (rd rs1 rs2 : Nat) : Statement (.barini rd rs1 rs2) := of_x rfl rfl rfl rfl (by decide) (by decide)
theorem bararv (rd rs1 : Nat) : Statement (.bararv rd rs1) := of_x rfl rfl rfl rfl (by decide) (by decide)
theorem barwt (rd rs1 rs2 : Nat) : Statement (.barwt rd rs1 rs2) := of_x rfl rfl rfl rfl (by decide) (by decide)
theorem fqpop (rd rs1 : Nat) : Statement (.fqpop rd rs1) := of_x rfl rfl rfl rfl (by decide) (by decide)
theorem fbrd (rd rs1 : Nat) : Statement (.fbrd rd rs1) := of_x rfl rfl rfl rfl (by decide) (by decide)
theorem stoprd (rd rs1 rs2 : Nat) : Statement (.stoprd rd rs1 rs2) := of_x rfl rfl rfl rfl (by decide) (by decide)
theorem ctxsv (rd rs1 rs2 : Nat) : Statement (.ctxsv rd rs1 rs2) := of_x rfl rfl rfl rfl (by decide) (by decide)
theorem ctxrs (rd rs1 rs2 : Nat) : Statement (.ctxrs rd rs1 rs2) := of_x rfl rfl rfl rfl (by decide) (by decide)
theorem tlbinv (rd rs1 rs2 : Nat) : Statement (.tlbinv rd rs1 rs2) := of_x rfl rfl rfl rfl (by decide) (by decide)
theorem hinv (rd rs1 rs2 : Nat) : Statement (.hinv rd rs1 rs2) := of_x rfl rfl rfl rfl (by decide) (by decide)
theorem stepctl (rd rs1 rs2 : Nat) : Statement (.stepctl rd rs1 rs2) := of_x rfl rfl rfl rfl (by decide) (by decide)
theorem wdset (rd rs1 rs2 : Nat) : Statement (.wdset rd rs1 rs2) := of_x rfl rfl rfl rfl (by decide) (by decide)
theorem budset (rd rs1 rs2 : Nat) : Statement (.budset rd rs1 rs2) := of_x rfl rfl rfl rfl (by decide) (by decide)
theorem caprd (rd rs1 : Nat) : Statement (.caprd rd rs1) := of_x rfl rfl rfl rfl (by decide) (by decide)
theorem cycrd (rd : Nat) : Statement (.cycrd rd) := of_x rfl rfl rfl rfl (by decide) (by decide)
theorem thyrd (rd rs1 rs2 : Nat) : Statement (.thyrd rd rs1 rs2) := of_x rfl rfl rfl rfl (by decide) (by decide)
theorem pclcfg (rd rs1 rs2 : Nat) : Statement (.pclcfg rd rs1 rs2) := of_x rfl rfl rfl rfl (by decide) (by decide)
theorem blockFetch (e : EngRef) : Statement (.blockFetch e) := of_event rfl rfl rfl
theorem encodingFault (e : EngRef) : Statement (.encodingFault e) := of_event rfl rfl rfl
theorem blockComplete (e : EngRef) (idx : Nat) : Statement (.blockComplete e idx) := of_event rfl rfl rfl
theorem forkJoin (idx : Nat) : Statement (.forkJoin idx) := of_event rfl rfl rfl
theorem spawnAccept (idx : Nat) : Statement (.spawnAccept idx) := of_event rfl rfl rfl
theorem spawnRefusalRaise (e : EngRef) : Statement (.spawnRefusalRaise e) := of_event rfl rfl rfl
theorem guardFaultRaise (e : EngRef) : Statement (.guardFaultRaise e) := of_event rfl rfl rfl
theorem ringSlotTake (e : EngRef) : Statement (.ringSlotTake e) := of_event rfl rfl rfl
theorem ringEndSkip (e : EngRef) : Statement (.ringEndSkip e) := of_event rfl rfl rfl
theorem subTileDelivery (tile slot ring : Nat) : Statement (.subTileDelivery tile slot ring) := of_event rfl rfl rfl
theorem pubSlotDrain (tile slot ring : Nat) : Statement (.pubSlotDrain tile slot ring) := of_event rfl rfl rfl
theorem pageWalk (tile pasid va : Nat) : Statement (.pageWalk tile pasid va) := of_event rfl rfl rfl
theorem accessEntryFreed (tile : Nat) : Statement (.accessEntryFreed tile) := of_event rfl rfl rfl
theorem hotnessSample : Statement (.hotnessSample) := of_event rfl rfl rfl
theorem hotnessDecay : Statement (.hotnessDecay) := of_event rfl rfl rfl
theorem promotion (pasid va : Nat) : Statement (.promotion pasid va) := of_event rfl rfl rfl
theorem demotion (pasid va : Nat) : Statement (.demotion pasid va) := of_event rfl rfl rfl
theorem migrationAccept (idx : Nat) : Statement (.migrationAccept idx) := of_event rfl rfl rfl
theorem chunkCopy (idx : Nat) : Statement (.chunkCopy idx) := of_event rfl rfl rfl
theorem commit (idx : Nat) : Statement (.commit idx) := of_event rfl rfl rfl
theorem migrationRelease (idx : Nat) : Statement (.migrationRelease idx) := of_event rfl rfl rfl
theorem migrationAbort (idx reason : Nat) : Statement (.migrationAbort idx reason) := of_event rfl rfl rfl
theorem abortComplete (idx : Nat) : Statement (.abortComplete idx) := of_event rfl rfl rfl
theorem taskDispatch : Statement (.taskDispatch) := of_event rfl rfl rfl
theorem taskRestore : Statement (.taskRestore) := of_event rfl rfl rfl
theorem contextSave (tile slot : Nat) : Statement (.contextSave tile slot) := of_event rfl rfl rfl
theorem taskPark (tile slot : Nat) : Statement (.taskPark tile slot) := of_event rfl rfl rfl
theorem taskComplete (task : Nat) : Statement (.taskComplete task) := of_event rfl rfl rfl
theorem budgetExhausted (tile slot : Nat) : Statement (.budgetExhausted tile slot) := of_event rfl rfl rfl
theorem watchdog (tile slot : Nat) : Statement (.watchdog tile slot) := of_event rfl rfl rfl
theorem slotAged (e : EngRef) : Statement (.slotAged e) := of_event rfl rfl rfl
theorem haltLine (pasid : Nat) : Statement (.haltLine pasid) := of_event rfl rfl rfl
theorem engineStop (e : EngRef) : Statement (.engineStop e) := of_event rfl rfl rfl
theorem slotRelease (tile slot : Nat) : Statement (.slotRelease tile slot) := of_event rfl rfl rfl
theorem heldRecordWrite (die : Nat) : Statement (.heldRecordWrite die) := of_event rfl rfl rfl
theorem scrub (t : Tier) (sector : Nat) (correctable : Bool) : Statement (.scrub t sector correctable) := of_event rfl rfl rfl
theorem linkFailure (pasid task : Nat) (noPath : Bool) (va : Nat) : Statement (.linkFailure pasid task noPath va) := of_event rfl rfl rfl
theorem fatalError (location kind : Nat) : Statement (.fatalError location kind) := of_event rfl rfl rfl
theorem temperatureTrip : Statement (.temperatureTrip) := of_event rfl rfl rfl
theorem powerMeasurement : Statement (.powerMeasurement) := of_event rfl rfl rfl
theorem coldReset : Statement (.coldReset) := of_event rfl rfl rfl
theorem warmReset : Statement (.warmReset) := of_event rfl rfl rfl
theorem recoveryImage : Statement (.recoveryImage) := of_event rfl rfl rfl
theorem launchLine (qid : Nat) (dws : List Nat) : Statement (.launchLine qid dws) := of_event rfl rfl rfl
theorem launchPageOtherWrite (qid off : Nat) : Statement (.launchPageOtherWrite qid off) := of_event rfl rfl rfl
theorem ringSlotReread (qid : Nat) : Statement (.ringSlotReread qid) := of_event rfl rfl rfl
theorem mailboxMessage (pair : Nat) (reply : Bool) : Statement (.mailboxMessage pair reply) := of_event rfl rfl rfl
theorem launchPacket (qid : Nat) : Statement (.launchPacket qid) := of_event rfl rfl rfl
theorem graphPacket (qid : Nat) : Statement (.graphPacket qid) := of_event rfl rfl rfl
theorem modelPacket (qid : Nat) : Statement (.modelPacket qid) := of_event rfl rfl rfl
theorem signalPacket (qid : Nat) : Statement (.signalPacket qid) := of_event rfl rfl rfl
theorem waitPacket (qid : Nat) : Statement (.waitPacket qid) := of_event rfl rfl rfl
theorem waitPacketComplete (qid : Nat) : Statement (.waitPacketComplete qid) := of_event rfl rfl rfl
theorem pasnew : Statement (.pasnew) := of_event rfl rfl rfl
theorem pasdel : Statement (.pasdel) := of_event rfl rfl rfl
theorem qnew : Statement (.qnew) := of_event rfl rfl rfl
theorem qdel : Statement (.qdel) := of_event rfl rfl rfl
theorem hset : Statement (.hset) := of_event rfl rfl rfl
theorem grant : Statement (.grant) := of_event rfl rfl rfl
theorem mload : Statement (.mload) := of_event rfl rfl rfl
theorem munld : Statement (.munld) := of_event rfl rfl rfl
theorem dumpreg : Statement (.dumpreg) := of_event rfl rfl rfl
theorem fwupd : Statement (.fwupd) := of_event rfl rfl rfl
theorem attest : Statement (.attest) := of_event rfl rfl rfl
theorem wreset : Statement (.wreset) := of_event rfl rfl rfl
theorem peerWindowAccess (t : Tier) (addr op width value : Nat) : Statement (.peerWindowAccess t addr op width value) := of_event rfl rfl rfl
theorem partialLaunchLine (qid : Nat) : Statement (.partialLaunchLine qid) := of_event rfl rfl rfl
theorem illegalInstruction (w : Nat) : Statement (.illegalInstruction w) := of_event rfl rfl rfl

end Sys2Proof.Laws.Parts
end

