-- ==== Sys2Proof/Laws/Runs.lean ====
section
/-! SUPPORT. What the operations on logical sequences do at each position. -/

namespace Sys2Proof.Machine

section
variable {α β : Type}

/-- The value at a position of a list of runs, none beyond its end. -/
def runAt : List (α × Nat) → Nat → Option α
  | [], _ => none
  | (v, n) :: l, p => if p < n then some v else runAt l (p - n)

/-- Elements of a list of runs. -/
def runLen (l : List (α × Nat)) : Nat := (l.map (·.2)).sum

@[simp] theorem runLen_nil : runLen ([] : List (α × Nat)) = 0 := rfl
@[simp] theorem runLen_cons (v : α) (n : Nat) (l : List (α × Nat)) : runLen ((v, n) :: l) = n + runLen l := by simp [runLen]

theorem total_eq_runLen (r : Runs) : Runs.total r = runLen r := rfl

theorem at_eq_runAt : ∀ (r : Runs) (p : Nat), r.at_ p = (runAt r p).getD 0
  | [], _ => rfl
  | (v, n) :: l, p => by
    rw [Runs.at_, runAt]
    split
    · rfl
    · exact at_eq_runAt l (p - n)

theorem runAt_eq_none : ∀ {l : List (α × Nat)} {p : Nat}, runLen l ≤ p → runAt l p = none
  | [], _, _ => rfl
  | (v, n) :: l, p, h => by
    rw [runLen_cons] at h
    rw [runAt, if_neg (by omega)]
    exact runAt_eq_none (by omega)

theorem runAt_isSome : ∀ {l : List (α × Nat)} {p : Nat}, p < runLen l → (runAt l p).isSome = true
  | [], _, h => absurd h (Nat.not_lt_zero _)
  | (v, n) :: l, p, h => by
    rw [runLen_cons] at h
    rw [runAt]
    split
    · rfl
    · exact runAt_isSome (by omega)

theorem runLen_mapRuns (f : α → β) : ∀ l : List (α × Nat), runLen (mapRuns f l) = runLen l
  | [] => rfl
  | (v, n) :: l => by
    have h := runLen_mapRuns f l
    simp only [mapRuns, List.map_cons, runLen_cons] at h ⊢
    rw [h]

theorem runAt_mapRuns (f : α → β) : ∀ (l : List (α × Nat)) (p : Nat), runAt (mapRuns f l) p = (runAt l p).map f
  | [], _ => rfl
  | (v, n) :: l, p => by
    have h := runAt_mapRuns f l (p - n)
    simp only [mapRuns, List.map_cons, runAt] at h ⊢
    split
    · rfl
    · exact h

theorem runLen_zipSegs : ∀ (f : Nat) (a : List (α × Nat)) (b : List (β × Nat)), a.length + b.length ≤ f →
    runLen (zipSegs f a b) = min (runLen a) (runLen b)
  | 0, [], [], _ => rfl
  | 0, _ :: _, _, h => by simp at h
  | 0, [], _ :: _, h => by simp at h
  | f + 1, [], _, _ => by simp [zipSegs]
  | f + 1, _ :: _, [], _ => by simp [zipSegs]
  | f + 1, (x, m) :: xs, (y, n) :: ys, h => by
    simp only [List.length_cons] at h
    rw [zipSegs]
    split
    · have := runLen_zipSegs f xs ((y, n - m) :: ys) (by simp only [List.length_cons]; omega)
      simp only [runLen_cons] at this ⊢
      omega
    · split
      · have := runLen_zipSegs f ((x, m - n) :: xs) ys (by simp only [List.length_cons]; omega)
        simp only [runLen_cons] at this ⊢
        omega
      · have := runLen_zipSegs f xs ys (by omega)
        simp only [runLen_cons] at this ⊢
        omega

theorem runAt_zipSegs : ∀ (f : Nat) (a : List (α × Nat)) (b : List (β × Nat)) (p : Nat), a.length + b.length ≤ f →
    runAt (zipSegs f a b) p = (runAt a p).bind fun x => (runAt b p).map fun y => (x, y)
  | 0, [], [], _, _ => rfl
  | 0, _ :: _, _, _, h => by simp at h
  | 0, [], _ :: _, _, h => by simp at h
  | f + 1, [], _, _, _ => by simp [zipSegs, runAt]
  | f + 1, _ :: _, [], p, _ => by simp [zipSegs, runAt]
  | f + 1, (x, m) :: xs, (y, n) :: ys, p, h => by
    simp only [List.length_cons] at h
    rw [zipSegs]
    split
    · rename_i h1
      have ih := runAt_zipSegs f xs ((y, n - m) :: ys) (p - m) (by simp only [List.length_cons]; omega)
      rw [runAt, runAt, runAt]
      by_cases hp : p < m
      · rw [if_pos hp, if_pos hp, if_pos (by omega)]; rfl
      · rw [if_neg hp, if_neg hp, ih, runAt]
        have e : (p - m < n - m) ↔ (p < n) := by omega
        simp only [e, show p - m - (n - m) = p - n by omega]
    · split
      · rename_i h1 h2
        have ih := runAt_zipSegs f ((x, m - n) :: xs) ys (p - n) (by simp only [List.length_cons]; omega)
        rw [runAt, runAt, runAt]
        by_cases hp : p < n
        · rw [if_pos hp, if_pos hp, if_pos (by omega)]; rfl
        · rw [if_neg hp, if_neg hp, ih, runAt]
          have e : (p - n < m - n) ↔ (p < m) := by omega
          simp only [e, show p - n - (m - n) = p - m by omega]
      · rename_i h1 h2
        have hmn : m = n := by omega
        subst hmn
        have ih := runAt_zipSegs f xs ys (p - m) (by omega)
        rw [runAt, runAt, runAt]
        by_cases hp : p < m
        · rw [if_pos hp, if_pos hp, if_pos hp]; rfl
        · rw [if_neg hp, if_neg hp, if_neg hp, ih]

theorem runLen_alignRuns (a : List (α × Nat)) (b : List (β × Nat)) : runLen (alignRuns a b) = min (runLen a) (runLen b) :=
  runLen_zipSegs _ a b (Nat.le_refl _)

theorem runAt_alignRuns (a : List (α × Nat)) (b : List (β × Nat)) (p : Nat) :
    runAt (alignRuns a b) p = (runAt a p).bind fun x => (runAt b p).map fun y => (x, y) :=
  runAt_zipSegs _ a b p (Nat.le_refl _)

variable [DecidableEq α]

theorem runLen_consRun (v : α) (n : Nat) (l : List (α × Nat)) : runLen (consRun v n l) = n + runLen l := by
  match l with
  | [] => rfl
  | (w, m) :: l =>
    rw [consRun]
    split
    · simp only [runLen_cons]; omega
    · simp only [runLen_cons]

theorem runAt_consRun (v : α) (n : Nat) (l : List (α × Nat)) (p : Nat) : runAt (consRun v n l) p = runAt ((v, n) :: l) p := by
  match l with
  | [] => rfl
  | (w, m) :: l =>
    rw [consRun]
    split
    · rename_i h
      subst h
      simp only [runAt]
      by_cases h1 : p < n
      · rw [if_pos (by omega), if_pos h1]
      · by_cases h2 : p < n + m
        · rw [if_pos h2, if_neg h1, if_pos (by omega)]
        · rw [if_neg h2, if_neg h1, if_neg (by omega), show p - (n + m) = p - n - m by omega]
    · rfl

theorem runLen_mergeRuns : ∀ l : List (α × Nat), runLen (mergeRuns l) = runLen l
  | [] => rfl
  | (v, n) :: l => by
    rw [mergeRuns]
    split
    · rename_i h; rw [runLen_mergeRuns l, runLen_cons]; omega
    · rw [runLen_consRun, runLen_mergeRuns l, runLen_cons]

theorem runAt_mergeRuns : ∀ (l : List (α × Nat)) (p : Nat), runAt (mergeRuns l) p = runAt l p
  | [], _ => rfl
  | (v, n) :: l, p => by
    rw [mergeRuns]
    split
    · rename_i h
      subst h
      rw [runAt_mergeRuns l p, runAt, if_neg (Nat.not_lt_zero _), Nat.sub_zero]
    · rw [runAt_consRun, runAt, runAt, runAt_mergeRuns l (p - n)]

end

/-- Merging changes no element (R193). -/
theorem total_mergeRuns (l : Runs) : Runs.total (mergeRuns l) = Runs.total l := runLen_mergeRuns l
theorem at_mergeRuns (l : Runs) (p : Nat) : Runs.at_ (mergeRuns l) p = Runs.at_ l p := by
  rw [at_eq_runAt, runAt_mergeRuns, at_eq_runAt]

/-- An operand of one element, repeated, has the result's length (R197). -/
theorem total_broadcast {n : Nat} {v : Runs} (h : v.total = n ∨ v.total = 1) : (broadcast n v).total = n := by
  unfold broadcast
  split
  · simp [Runs.total]
  · exact h.resolve_right (by assumption)

/-- The total of three aligned sequences of one length, and the element each position takes. -/
theorem aligned3 (n : Nat) (a z d : Runs) (ha : a.total = n) (hz : z.total = n) (hd : d.total = n) (F : Nat → Nat → Nat → Nat) :
    Runs.total (mapRuns (fun ((x, y), o) => F x y o) (alignRuns (alignRuns a z) d)) = n ∧
    ∀ p < n, Runs.at_ (mapRuns (fun ((x, y), o) => F x y o) (alignRuns (alignRuns a z) d)) p = F (a.at_ p) (z.at_ p) (d.at_ p) := by
  rw [total_eq_runLen] at ha hz hd
  refine ⟨?_, ?_⟩
  · rw [total_eq_runLen, runLen_mapRuns, runLen_alignRuns, runLen_alignRuns]
    omega
  · intro p hp
    obtain ⟨x, hx⟩ := Option.isSome_iff_exists.mp (runAt_isSome (l := a) (p := p) (by omega))
    obtain ⟨y, hy⟩ := Option.isSome_iff_exists.mp (runAt_isSome (l := z) (p := p) (by omega))
    obtain ⟨o, ho⟩ := Option.isSome_iff_exists.mp (runAt_isSome (l := d) (p := p) (by omega))
    simp only [at_eq_runAt, runAt_mapRuns, runAt_alignRuns, hx, hy, ho, Option.bind_some, Option.map_some, Option.getD_some]

/-- A result length is that of every operand longer than one element (R197). -/
theorem resultLen_mem {ls : List Nat} {n : Nat} (h : resultLen ls = some n) : ∀ l ∈ ls, l = n ∨ l = 1 := by
  unfold resultLen at h
  split at h
  · cases h
  · rename_i m rest
    split at h
    · rename_i h1
      cases h
      intro l hl
      rcases List.mem_cons.mp hl with rfl | hl
      · exact .inl rfl
      · exact .inl (by simpa using List.all_eq_true.mp h1 l hl)
    · split at h
      · rename_i k others hf
        split at h
        · rename_i h2
          cases h
          intro l hl
          by_cases h3 : l = 1
          · exact .inr h3
          · have : l ∈ (m :: rest).filter (· != 1) := List.mem_filter.mpr ⟨hl, by simpa using h3⟩
            rw [hf] at this
            rcases List.mem_cons.mp this with rfl | h4
            · exact .inl rfl
            · rw [Bool.and_eq_true] at h2
              exact .inl (by simpa using List.all_eq_true.mp h2.1 l h4)
        · cases h
      · cases h

end Sys2Proof.Machine
end

