-- ==== Sys2Proof/Tests/Slice0.lean ====
section
/-! SUPPORT. The tests of the model: a small machine on which every statement with hypotheses has a witness (wit_ and the name
of the statement), the worked encodings of the spec, and ill-formed terms that the checks refuse. -/

open Sys2Proof Sys2Proof.Machine

set_option Elab.async false
set_option synthInstance.maxSize 4096
set_option synthInstance.maxHeartbeats 400000

namespace Sys2Proof.Machine.Demo

/-! ### Looking at what a block reads -/

/-- A block issues, no earlier one is in its way, and no entry of its tile or of any Carafe is taken that it may need: what is
checked of a state here. -/
def Issuing (s : State) (i : Instr) : Prop :=
  findRun i (s.chain s.ref).inflight 0 = none ∧ s.gate s.ref i = .go ∧ s.issueFault s.ref i = none ∧ s.env = {} ∧
  (s.tile s.ref.tile).whole = true ∧ ((s.chain s.ref).inflight.any fun g => g.heldOver || sharesCells g.instr i) = false ∧
  (isStore i = false ∨ ((s.chain s.ref).inflight.any fun g => g.phase != .done && isStore g.instr) = false) ∧
  (usesMemory i = false ∨ s.noEntry s.ref.tile anyCarafe = false) ∧ (s.firstRun i none).late s.ref = false

/-- Such a block meets the hypotheses that the statements share. -/
theorem Issuing.issues {s : State} {i : Instr} (h : Issuing s i) : s.Issues i :=
  ⟨h.1, h.2.1, h.2.2.1, h.2.2.2.1, h.2.2.2.2.1, State.clear_of h.2.2.2.2.2.1 h.2.2.2.2.2.2.1 h.2.2.2.2.2.2.2.1, h.2.2.2.2.2.2.2.2⟩

theorem goes_iff (s : State) (i : Instr) :
    s.Goes i ↔ s.gate s.ref i = .go ∧ s.issueFault s.ref i = none ∧ s.env = {} ∧ (s.tile s.ref.tile).whole = true :=
  ⟨fun h => ⟨h.gate, h.fine, h.calm, h.whole⟩, fun h => ⟨h.1, h.2.1, h.2.2.1, h.2.2.2⟩⟩

/-- What the first look at an operand gives. -/
def got (s : State) (i : Instr) (x : Desc) (fmt : Nat) : Runs × Hot :=
  (operandSeq (s.seenBy s.ref (s.nextIndex s.ref)) s.ref (wouldBe s s.ref i) x fmt (0, 0, 0, 0)).toOption.getD default

def gotBits (s : State) (i : Instr) (x : Desc) (w : Nat) : List Nat × Hot :=
  (readOperand (s.seenBy s.ref (s.nextIndex s.ref)) s.ref (wouldBe s s.ref i) x w (0, 0, 0, 0)).toOption.getD default

def okOf {ε α : Type} [Inhabited α] : Except ε α → α
  | .ok a => a
  | .error _ => default

/-! ### A small machine: one task, resident in slot 0 of tile 0, four pages of PASID 5 -/

def vr (tag : Nat) (runs : Runs) : VReg := { runs := runs, tag := tag, valid := true }

/-- Registers by tag: FP32 at 1 to 3, INT32 at 4 to 6, UINT32 at 7, INT4 at 8, L6 at 9, BOOL at 10 to 12, INT8 at 13. -/
def regs : Map VReg :=
  [(1, vr 1 [(0x40000000, 3), (0x3F800000, 1)]), (2, vr 1 [(0x3F800000, 1)]), (3, vr 1 [(0x40400000, 4)]),
   (4, vr 4 [(7, 3), (0xFFFFFFFF, 1)]), (5, vr 4 [(2, 1)]), (6, vr 4 [(9, 4)]), (7, vr 8 [(2, 1), (0, 2), (0xFFFFFFFF, 1)]),
   (8, vr 7 [(5, 4)]), (9, vr 9 [(1, 4)]), (10, vr 10 [(1, 3), (0, 1)]), (11, vr 10 [(1, 1)]), (12, vr 10 [(0, 4)]), (13, vr 6 [(3, 4)])]

/-- A leaf entry: present, leaf, writable, executable, sampled; a tier, a frame address. -/
def leaf (tier frame : Nat) : Nat := 2 ^ 63 + 2 ^ 62 + tier * 2 ^ 60 + 2 ^ 53 + 2 ^ 52 + 2 ^ 51 + frame

/-- Tables at HBM 0, 0x1000, 0x2000, 0x3000. Page 1 of the VA space is in HBM, page 2 in LPDDR, page 3 pinned in HBM,
page 4 in HBM; page 5 is not present, page 6 is malformed, and a pinned page of 2 MiB in LPDDR holds frames. Page 1 holds the
descriptor of handle 0, four INT32 elements at 0x10800, and those elements. -/
def tables (m : Memory) : Memory :=
  [(0, 2 ^ 63 + 0x1000), (0x1000, 2 ^ 63 + 0x2000), (0x2000, 2 ^ 63 + 0x3000), (0x3008, leaf 0 0x10000), (0x3010, leaf 1 0x20000),
   (0x3018, leaf 0 0x30000 + 2 ^ 58), (0x3020, leaf 0 0x40000), (0x3030, 2 ^ 63), (0x2008, leaf 1 0x400000 + 2 ^ 58),
   (0x10400, 2 ^ 63 + 0x10800), (0x10408, 4 + 2 ^ 8), (0x10410, 4 + 2 ^ 32), (0x10418, 1 + 2 ^ 32), (0x10420, 1),
   (0x10800, 11 + 22 * 2 ^ 32), (0x10808, 33 + 44 * 2 ^ 32)].foldl (fun m (a, v) => Memory.putNat m a 8 v) m

/-- A task record's words: its heads are 0x10000; class 1, budget 2 units, every cluster. -/
def words : List Nat := [0x10000, 0, 0, 0, 0, 1000, 2 + 2 ^ 32, 0, (2 ^ 32 - 1) * 2 ^ 32, 0, 0, 0, 0x200000, 0, 0, 0]

def demoCtx (e : Engine) (g : Nat → Region → Region) : Ctx :=
  { ({ } : Ctx) with
    vregs := regs, rb := [0, 0x10000, 0x20000, 2 ^ 57 - 0x10000, 0, 0, 0, 0], sems := [(1, 3)],
    tp := [(0, 5), (8, 1), (9, 1)],
    regions := [(0, some (g 0 { mode := e.num + 1, space := spTp, off := 0, len := 0x8000 })),
                (1, some (g 1 { mode := e.num + 1, space := spWb, off := 0, len := 0x8000 }))],
    lde := { present := true }, mxe := { present := true }, vxe := { present := true }, ste := { present := true } }

/-- The machine, its task on engine e about to issue. -/
def demo (e : Engine) : State :=
  { State.reset with
    ref := engRef 0 0 e
    slots := [(0, { task := some 1, ctx := demoCtx e fun _ g => g })]
    tasks := [(1, { pasid := 5, va := 0x10000, words := words, state := .resident, place := some 0, fresh := false })]
    nextTask := 2
    pasids := [(5, { valid := true, htable := 0x10400, hcount := 2 })]
    granules := [(0, 5)]
    hbm := tables [] }

/-- The same with another slot, device memory or anything else. -/
def withCtx (s : State) (f : Ctx → Ctx) : State := s.updCtx s.ref f

def vd (n : Nat) : Desc := { space := spV, base := n }
def tpw (off : Nat) : Desc := { space := spTp, base := off, seg := 3 }

/-- A window of 4 elements of global memory at an offset in page 1. -/
def gmw (off : Nat) : Desc := { space := spGm, base := 2 ^ 45 + off, seg := 3 }
def cpw (off : Nat) : Desc := { space := spCp, base := off, seg := 3 }
def ixw (off : Nat) : Desc := { space := spIx, base := off, seg := 3 }
def im (n : Nat) : Desc := { space := spIm, base := n }
/-! ### Elementwise forms -/

/-- The block an elementwise form is shown on: registers a and z, result over register d. -/
def elemBlk (fmt dfmt a z d : Nat) (two : Bool) : LBlk :=
  { fmt := fmt, dfmt := dfmt, a := vd a, b := if two then vd z else {}, d := vd d }

/-- Every hypothesis of ElementwiseForms for one form. -/
def ElemMet (s : State) (e : ElementForm) (b : LBlk) : Prop :=
  let i := e.ins b
  let (a, h1) := got s i b.a b.fmt
  let (z, h2) := if e.two then got s i b.b b.fmt else (a, [])
  let d := if e.old then okOf ((s.ctx s.ref).regSeq b.d (e.tag b) (0, 0, 0, 0)) else z
  let y : Runs := (upto 4).map fun p => (e.F b ((broadcast 4 a).at_ p) ((broadcast 4 z).at_ p) ((broadcast 4 d).at_ p), 1)
  let o := okOf (finishVec s s.ref b (e.tag b) 4 (b.counters 0) y (h1 ++ h2))
  wellFormed .vxe 0 i = true ∧ Issuing s i ∧ b.iterations = 1 ∧ s.Reads i b.a b.fmt (b.counters 0) a h1 ∧
  (if e.two then s.Reads i b.b b.fmt (b.counters 0) z h2 else z = a ∧ h2 = []) ∧
  (if e.old then s.ReadsOld i b (e.tag b) d else d = z) ∧
  resultLen ([a.total] ++ (if e.two then [z.total] else []) ++ (if e.old then [d.total] else [])) = some 4 ∧
  e.Computes b 4 a z d y ∧ s.Delivers i b (e.tag b) 4 y (h1 ++ h2) o

def formsShown : List (ElementForm × LBlk) :=
  ((floatForms.take 21).map fun e => (e, elemBlk 1 0 1 2 3 e.two)) ++
  (floatForms.drop 21).map (fun e => (e, { elemBlk 1 0 1 2 3 e.two with a := tpw 0 })) ++
  (intForms.map fun e => (e, elemBlk 4 0 4 5 6 e.two)) ++
  (maskForms.zip [1, 4, 10, 10, 10, 10]).map (fun (e, f) => (e, elemBlk f (if f = 10 then 0 else 10) (if f = 10 then 10 else f) (if f = 10 then 11 else f + 1) 12 e.two)) ++
  (convertForms.zip [(1, 2, vd 1), (1, 4, vd 1), (4, 1, vd 4), (4, 6, vd 4), (1, 9, vd 1), (9, 1, vd 9), (7, 6, tpw 0), (1, 8, vd 1)]).map
    fun (e, f, d, x) => (e, { elemBlk f d 0 0 3 e.two with a := x })


theorem wit_ElementwiseForms : (formsShown.map fun p => p.1.ins {}) = (floatForms ++ intForms ++ maskForms ++ convertForms).map (fun e => e.ins {}) ∧
    ∀ p ∈ formsShown, ElemMet (demo .vxe) p.1 p.2 := by
  simp only [ElemMet, Issuing, State.Reads, State.ReadsOld, State.TagsOk, State.Delivers, State.views, ElementForm.Computes]
  decide +kernel

/-! ### Other VXE forms -/

def sv : State := demo .vxe

/-- A block that the fetch checks accept, that issues on the small machine, with one iteration. -/
def Fit (s : State) (i : Instr) : Prop := wellFormed s.ref.eng 0 i = true ∧ Issuing s i ∧ iterationsOf i = 1

/-- The output that writes a whole register. -/
def outReg (n fmt : Nat) (y : Runs) : IterOut := { tile := [.vreg n (vr fmt y)] }

theorem wit_MaskedResult : ∀ s ∈ [sv], ∀ r ∈ [s.ref], ∀ y ∈ [([(9, 4)] : Runs)], Runs.total y = 4 ∧
    applyMask s r { fmt := 4, d := vd 4 } 4 4 (0, 0, 0, 0) y = .ok y ∧
    applyMask s r { fmt := 4, d := vd 4, msk := 1, mreg := 10, zm := 1 } 4 4 (0, 0, 0, 0) y = .ok [(9, 3), (0, 1)] ∧
    applyMask s r { fmt := 4, d := vd 4, msk := 1, mreg := 10 } 4 4 (0, 0, 0, 0) y = .ok [(9, 3), (0xFFFFFFFF, 1)] := by
  decide +kernel

/-- Registers with 512 runs of two, and with runs that cut one of them: their sum has 513 runs. -/
def wide : State := withCtx sv fun c => (c.setVreg 1 (vr 1 ((upto 512).map fun k => (0x3F800000 + k % 2 * 2 ^ 23, 2)))).setVreg 2
  (vr 1 [(0x40000000, 1), (0x3F800000, 1023)])

theorem wit_ElementwiseTraps :
    (∀ b ∈ [elemBlk 1 0 4 2 3 true, { elemBlk 1 0 1 2 3 true with msk := 1, mreg := 4, zm := 1 }], Fit sv (.vadd b) ∧ ¬ sv.TagsOk (.vadd b) b) ∧
    (∀ b ∈ [elemBlk 8 0 7 14 7 true], ∀ s ∈ [withCtx sv fun c => c.setVreg 14 (vr 8 [(1, 3)])], Fit s (.vor b) ∧
      s.Reads (.vor b) b.a b.fmt (b.counters 0) [(2, 1), (0, 2), (0xFFFFFFFF, 1)] [] ∧ s.Reads (.vor b) b.b b.fmt (b.counters 0) [(1, 3)] [] ∧
      resultLen [4, 3] = none ∧ s.TagsOk (.vor b) b) ∧
    (∀ b ∈ [elemBlk 1 0 1 2 3 true], Fit wide (.vadd b) ∧ wide.TagsOk (.vadd b) b ∧
      wide.Reads (.vadd b) b.a b.fmt (b.counters 0) (got wide (.vadd b) b.a 1).1 [] ∧
      wide.Reads (.vadd b) b.b b.fmt (b.counters 0) [(0x40000000, 1), (0x3F800000, 1023)] [] ∧ resultLen [1024, 1024] = some 1024 ∧
      (mergeRuns (mapRuns (fun (x, z) => fp32.add 0 false x z) (alignRuns (got wide (.vadd b) b.a 1).1
        [(0x40000000, 1), (0x3F800000, 1023)]))).length = 513) := by
  simp only [Fit, State.Reads, State.TagsOk, Issuing, State.views]
  decide +kernel

theorem wit_ConstructionForms :
    (∀ b ∈ [({ fmt := 4, a := im 7, b := im 65536, d := vd 6 } : LBlk)], Fit sv (.vbcst b) ∧ sv.Reads (.vbcst b) b.a b.fmt (b.counters 0) [(7, 1)] [] ∧
      sv.Delivers (.vbcst b) b b.fmt b.b.base [(7, 65536)] [] (outReg 6 4 [(7, 65536)])) ∧
    (∀ b ∈ [({ fmt := 8, a := im 7, b := im (3 + 2 ^ 16), d := vd 6 } : LBlk)], Fit sv (.viota b) ∧
      sv.Reads (.viota b) b.a b.fmt (b.counters 0) [(7, 1)] [] ∧
      sv.Delivers (.viota b) b b.fmt 4 [(7, 2), (8, 2)] [] (outReg 6 8 [(7, 2), (8, 2)])) ∧
    (∀ b ∈ [({ fmt := 8, a := vd 7, b := vd 14, d := vd 6 } : LBlk)], ∀ s ∈ [withCtx sv fun c => c.setVreg 14 (vr 8 [(2, 1), (1, 2), (3, 1)])],
      Fit s (.vrun b) ∧ s.Reads (.vrun b) b.a b.fmt (b.counters 0) [(2, 1), (0, 2), (0xFFFFFFFF, 1)] [] ∧
      s.Reads (.vrun b) b.b 8 (b.counters 0) [(2, 1), (1, 2), (3, 1)] [] b.fmt ∧
      s.DeliversPlain (.vrun b) b b.fmt [(2, 2), (0, 2), (0xFFFFFFFF, 3)] [] (outReg 6 8 [(2, 2), (0, 2), (0xFFFFFFFF, 3)])) ∧
    (∀ b ∈ [({ fmt := 4, a := vd 6, b := im 6, d := vd 6 } : LBlk)], Fit sv (.vlen b) ∧ sv.Reads (.vlen b) b.a b.fmt (b.counters 0) [(9, 4)] [] ∧
      sv.DeliversPlain (.vlen b) b b.fmt (takeRuns [(9, 4)] 6 ++ [(0, 2)]) [] (outReg 6 4 [(9, 4), (0, 2)])) ∧
    (∀ b ∈ [({ fmt := 4, a := vd 4, d := tpw 0x7FF0 } : LBlk)], Fit sv (.vst b) ∧
      sv.Reads (.vst b) b.a b.fmt (b.counters 0) [(7, 3), (0xFFFFFFFF, 1)] [] ∧ b.d.count = 4 ∧
      ∀ o ∈ [okOf (storeWindow (sv.seenBy sv.ref 0) sv.ref b b.fmt (b.counters 0) [(7, 3), (0xFFFFFFFF, 1)] [])],
        sv.DeliversWindow (.vst b) b b.fmt [(7, 3), (0xFFFFFFFF, 1)] [] o) ∧
    (∀ b ∈ [({ fmt := 6, dfmt := 7, a := vd 13, d := tpw 0x40 } : LBlk)], Fit sv (.pk4 b) ∧ sv.Reads (.pk4 b) b.a b.fmt (b.counters 0) [(3, 4)] [] ∧
      ∀ o ∈ [okOf (storeWindow (sv.seenBy sv.ref 0) sv.ref b 7 (b.counters 0) [(3, 4)] [])],
        sv.DeliversWindow (.pk4 b) b 7 [(3, 4)] [] o) ∧
    (∀ b ∈ [({ fmt := 4, a := { tpw 0 with seg := 0 }, d := vd 6 } : LBlk)], Fit sv (.vldr b) ∧ sv.TagsOk (.vldr b) b ∧
      sv.ReadsBits (.vldr b) b.a 64 (b.counters 0) [5] [] ∧ Runs.total ([5].map recordRun) = 1) ∧
    (∀ b ∈ [({ fmt := 4, a := vd 4, b := { tpw 0x200 with seg := 0 }, d := { tpw 0x100 with seg := 1 } } : LBlk)], Fit sv (.vstr b) ∧ sv.TagsOk (.vstr b) b ∧
      ∀ p ∈ sv.views (.vstr b), (p.1.ctx sv.ref).vreg b.a.base = vr 4 [(7, 3), (0xFFFFFFFF, 1)]) := by
  simp only [Fit, State.Reads, State.ReadsBits, State.TagsOk, State.Delivers, State.DeliversPlain, State.DeliversWindow, State.views, Issuing]
  decide +kernel

/-- Reductions with blocks that show them: unmasked, and under the filter mask 1, 1, 1, 0. -/
def redBlk (m : Nat) (p : Nat × Nat × Nat) : LBlk := { fmt := p.1, dfmt := p.2.1, a := vd p.2.2, d := vd 6, msk := m, mreg := 10 * m }
def redFmts : List (Nat × Nat × Nat) := [(10, 8, 10), (10, 8, 10), (1, 1, 1), (4, 4, 4), (1, 0, 1), (1, 0, 1), (4, 8, 4), (4, 8, 4)]

theorem wit_ReductionForms : ∀ m ∈ [0, 1], ∀ p ∈ reductionForms.zip redFmts, ∀ b ∈ [redBlk m p.2], ∀ i ∈ [p.1.ins b], ∀ a ∈ [(got sv i b.a b.fmt).1],
    ∀ fm ∈ [if m = 0 then none else some ([(1, 3), (0, 1)] : Runs)], (m = 0 ∨ p.2 ≠ (4, 8, 4) → Fit sv i) ∧ a.length = 2 ∧
    sv.Reads i b.a b.fmt (b.counters 0) a [] ∧ (m = 0 ∨ p.2 ≠ (4, 8, 4) → sv.Masks i b 4 fm) ∧
    (m = 0 ∨ p.2 ≠ (4, 8, 4) → sv.DeliversPlain i b (p.1.tag b) [(p.1.F b (contributions a fm), 1)] []
      (outReg 6 (p.1.tag b) [(p.1.F b (contributions a fm), 1)])) := by
  simp only [State.TagsOk, Fit, State.Reads, State.Masks, State.DeliversPlain, Issuing, State.views]
  decide +kernel

theorem wit_ContributionRuns : ∀ a ∈ [([(7, 2), (7, 1), (9, 3)] : Runs)], ∀ m ∈ [([(1, 5), (0, 1)] : Runs)], Runs.total m = Runs.total a ∧
    contributions a (some m) = [(7, 3, 0), (9, 2, 3)] ∧ contributions a none = [(7, 3, 0), (9, 3, 3)] := by
  decide +kernel

def permB (fmt dfmt : Nat) (a b : Desc) (m : Nat) : LBlk := { fmt := fmt, dfmt := dfmt, a := a, b := b, d := vd 6, msk := ofBool (m != 0), mreg := m }

theorem wit_PermutationForms :
    (∀ b ∈ [permB 4 0 (vd 4) (vd 5) 10], Fit sv (.vsel b) ∧ sv.Selects (.vsel b) b [(1, 3), (0, 1)] ∧
      sv.Reads (.vsel b) b.a b.fmt (b.counters 0) [(7, 3), (0xFFFFFFFF, 1)] [] ∧ sv.Reads (.vsel b) b.b b.fmt (b.counters 0) [(2, 1)] [] ∧
      sv.DeliversPlain (.vsel b) b b.fmt [(7, 3), (2, 1)] [] (outReg 6 4 [(7, 3), (2, 1)])) ∧
    (∀ b ∈ [permB 4 0 (vd 4) {} 0], Fit sv (.vscan b) ∧ sv.Reads (.vscan b) b.a b.fmt (b.counters 0) [(7, 3), (0xFFFFFFFF, 1)] [] ∧
      sv.Masks (.vscan b) b 4 none ∧ sv.Delivers (.vscan b) b b.fmt 4 (scanFrom b 4 0 none (contributions [(7, 3), (0xFFFFFFFF, 1)] none)) []
        (outReg 6 4 [(7, 1), (14, 1), (21, 1), (20, 1)])) ∧
    (∀ b ∈ [permB 4 0 (vd 4) {} 10], Fit sv (.vcomp b) ∧ sv.Reads (.vcomp b) b.a b.fmt (b.counters 0) [(7, 3), (0xFFFFFFFF, 1)] [] ∧
      sv.Selects (.vcomp b) b [(1, 3), (0, 1)] ∧ sv.DeliversPlain (.vcomp b) b b.fmt [(7, 3)] [] (outReg 6 4 [(7, 3)])) ∧
    (∀ b ∈ [{ permB 4 0 (vd 5) {} 10 with zm := 1 }], Fit sv (.vexpd b) ∧ sv.Reads (.vexpd b) b.a b.fmt (b.counters 0) [(2, 1)] [] ∧
      sv.Selects (.vexpd b) b [(1, 3), (0, 1)] ∧ onesOf [(1, 3), (0, 1)] = 3 ∧
      sv.Delivers (.vexpd b) b b.fmt 4 (dealRuns (broadcast 3 [(2, 1)]) [(1, 3), (0, 1)]) [] (outReg 6 4 [(2, 3), (0, 1)])) ∧
    (∀ b ∈ [permB 4 0 (vd 4) (vd 7) 0], Fit sv (.vgath b) ∧ sv.Reads (.vgath b) b.a b.fmt (b.counters 0) [(7, 3), (0xFFFFFFFF, 1)] [] ∧
      sv.Reads (.vgath b) b.b 8 (b.counters 0) [(2, 1), (0, 2), (0xFFFFFFFF, 1)] [] ∧
      sv.Delivers (.vgath b) b b.fmt 4 [(7, 3), (0, 1)] [] (outReg 6 4 [(7, 3), (0, 1)])) ∧
    (∀ b ∈ [permB 4 0 (vd 4) {} 0], Fit sv (.vrco b) ∧ sv.Reads (.vrco b) b.a b.fmt (b.counters 0) [(7, 3), (0xFFFFFFFF, 1)] [] ∧
      sv.DeliversPlain (.vrco b) b b.fmt [(7, 3), (0xFFFFFFFF, 1)] [] (outReg 6 4 [(7, 3), (0xFFFFFFFF, 1)])) ∧
    (∀ b ∈ [permB 4 0 (vd 4) (im 8) 0], Fit sv (.vrcot b) ∧ sv.Reads (.vrcot b) b.a b.fmt (b.counters 0) [(7, 3), (0xFFFFFFFF, 1)] [] ∧
      sv.Reads (.vrcot b) b.b b.fmt (b.counters 0) [(8, 1)] [] ∧ badTol b.fmt 8 = false ∧
      sv.DeliversPlain (.vrcot b) b b.fmt (coalesce b.fmt 8 7 [(7, 3), (0xFFFFFFFF, 1)]) [] (outReg 6 4 [(7, 4)])) ∧
    (∀ b ∈ [permB 4 8 (vd 4) (im 1) 0], Fit sv (.vtopk b) ∧ sv.Reads (.vtopk b) b.a b.fmt (b.counters 0) [(7, 3), (0xFFFFFFFF, 1)] [] ∧
      sv.Masks (.vtopk b) b 4 none ∧ sv.Reads (.vtopk b) b.b 8 (b.counters 0) [(1, 1)] [] b.fmt ∧
      sv.DeliversPlain (.vtopk b) b 8 (((topPositions b.fmt (contributions [(7, 3), (0xFFFFFFFF, 1)] none)).take 1).map fun p => (p, 1)) []
        (outReg 6 8 [(0, 1)])) ∧
    (∀ b ∈ [permB 8 0 (vd 7) (im 3) 0], Fit sv (.vhist b) ∧ sv.Reads (.vhist b) b.a b.fmt (b.counters 0) [(2, 1), (0, 2), (0xFFFFFFFF, 1)] [] ∧
      sv.Masks (.vhist b) b 4 none ∧ sv.Reads (.vhist b) b.b 8 (b.counters 0) [(3, 1)] [] b.fmt ∧
      sv.DeliversPlain (.vhist b) b b.fmt ((upto 3).map fun j => ((((contributions [(2, 1), (0, 2), (0xFFFFFFFF, 1)] none).filter (·.1 == j)).map
        (·.2.1)).sum, 1)) [] (outReg 6 8 [(2, 1), (0, 1), (1, 1)])) ∧
    (∀ b ∈ [permB 1 1 (vd 1) (vd 3) 0], Fit sv (.vdot b) ∧ sv.Reads (.vdot b) b.a b.fmt (b.counters 0) [(0x40000000, 3), (0x3F800000, 1)] [] ∧
      sv.Reads (.vdot b) b.b b.fmt (b.counters 0) [(0x40400000, 4)] [] ∧ resultLen [4, 4] = some 4 ∧ sv.Masks (.vdot b) b 4 none ∧
      sv.DeliversPlain (.vdot b) b b.dfmt [(0x41A80000, 1)] [] (outReg 6 1 [(0x41A80000, 1)])) ∧
    (∀ b ∈ [permB 1 6 (vd 1) (vd 2) 0], Fit sv (.qnt b) ∧ sv.Reads (.qnt b) b.a b.fmt (b.counters 0) [(0x40000000, 3), (0x3F800000, 1)] [] ∧
      sv.Reads (.qnt b) b.b 1 (b.counters 0) [(0x3F800000, 1)] [] b.fmt ∧ sv.Delivers (.qnt b) b b.dfmt 4 [(2, 3), (1, 1)] [] (outReg 6 6 [(2, 3), (1, 1)])) ∧
    (∀ b ∈ [permB 4 1 (vd 4) (im 0x00800000) 0], Fit sv (.dqnt b) ∧ sv.Reads (.dqnt b) b.a b.fmt (b.counters 0) [(7, 3), (0xFFFFFFFF, 1)] [] ∧
      sv.Reads (.dqnt b) b.b 1 (b.counters 0) [(0x00800000, 1)] [] b.fmt ∧
      sv.Delivers (.dqnt b) b b.dfmt 4 [(0x01E00000, 3), (0x80800000, 1)] [] (outReg 6 1 [(0x01E00000, 3), (0x80800000, 1)])) := by
  simp only [Fit, State.Reads, State.Masks, State.Selects, State.TagsOk, State.Delivers, State.DeliversPlain, Issuing, State.views]
  decide +kernel

/-! ### Matrix and window forms -/

/-- Bytes in both shares: rows of INT8 at tp 0 and 8, a line of B with its metadata at wb 0. -/
def sm : State := withCtx (demo .mxe) fun c => { c with wb := [(0, 2), (1, 3), (4, 0x44)], acc := [(0, 100)] }

def acw (lines elems : Nat) : Desc := { space := spAc, seg := elems - 1, ext2 := lines - 1, aux := if lines = 1 then 0 else 1 }
def stepB (fmt dfmt cx : Nat) (a b d : Desc) : LBlk := { fmt := fmt, dfmt := dfmt, cx := cx, a := a, b := b, d := d }

theorem wit_StepForms :
    (∀ b ∈ [stepB 6 4 0 { tpw 0 with ext2 := 1, aux := 1 } { tpw 0 with space := spWb } (acw 2 1)], Fit sm (.mma b) ∧
      sm.StepRows (.mma b) b b.fmt [[5, 0, 0, 0], [1, 1, 0, 0]] [[2, 3, 0, 0]] [] [] ∧
      sm.cellSums (.mma b) b b.fmt ([[5, 0, 0, 0], [1, 1, 0, 0]].map fun x => x.zip [2, 3, 0, 0]) = [.acc 0 110, .acc 64 5]) ∧
    (∀ b ∈ [stepB 6 4 0 { tpw 0 with seg := 7 } { tpw 0 with space := spWb } (acw 1 1)], Fit sm (.mmas b) ∧ cform b = 0 ∧
      sm.StepRows (.mmas b) b (fmtB 7 1 b) [[5, 0, 0, 0, 0, 0, 0, 0]] [[2, 3, 0, 0]] [] [] ∧
      ∀ ms ∈ [lineMeta (sm.reading (.mmas b) none) sm.ref b (b.counters 0)], ms = [0x44] ∧ ms.all (metadataOk (b.b.seg + 1)) = true) ∧
    (∀ b ∈ [stepB 6 4 256 (tpw 0) { tpw 0 with space := spWb } (acw 1 1)], Fit sm (.mmas b) ∧ cform b ≠ 0 ∧
      sm.StepRows (.mmas b) b (fmtB 7 1 b) [[5, 0, 0, 0]] [[2, 0, 3, 0]] [] []) ∧
    (∀ b ∈ [stepB 6 4 0 { tpw 0 with seg := 0 } { tpw 0 with space := spWb, seg := 0 } (acw 1 1)], Fit sm (.mmd b) ∧
      sm.StepRows (.mmd b) b b.fmt [[5]] [[2]] [] []) ∧
    (∀ b ∈ [stepB 2 1 0 { tpw 8 with seg := 1 } { tpw 0 with space := spWb, seg := 1 } (acw 1 2)], Fit sm (.mmc b) ∧
      sm.StepRows (.mmc b) b b.fmt [[0x101, 0]] [[0x302, 0]] [] []) := by
  simp only [Fit, State.StepRows, Issuing]
  decide +kernel

/-- A drain record at tp 0x100: a bias row at 0x200, clamped to 0 to 7; a window record likewise: one tap, one position. -/
def recs (v : Nat) (s : State) : State := withCtx s fun c => { c with tp := Memory.putNat c.tp 0x100 64 v, acc := [(0, 100)] }
def atRec (a d : Desc) (fmt : Nat) : LBlk := { fmt := fmt, a := a, b := { tpw 0x100 with seg := 0 }, d := d }

theorem wit_CellForms :
    (∀ b ∈ [({ d := acw 2 64 } : LBlk)], Fit sm (.acz b) ∧ matCheck (.acz b) b sm sm.ref = .ok none) ∧
    (∀ b ∈ [({ fmt := 4, a := acw 2 2, d := tpw 0 } : LBlk)], Fit sm (.acr b) ∧ matCheck (.acr b) b sm sm.ref = .ok none) ∧
    (∀ b ∈ [({ fmt := 4, a := tpw 0, d := acw 2 2 } : LBlk)], Fit sm (.acw b) ∧ matCheck (.acw b) b sm sm.ref = .ok none ∧
      sm.Source (.acw b) b.a 32 (b.counters 0) [5, 0, 0x101, 0] []) ∧
    (∀ b ∈ [({ fmt := 4, a := im 9, d := acw 1 64 } : LBlk)], Fit sm (.acw b) ∧ matCheck (.acw b) b sm sm.ref = .ok none ∧
      sm.Source (.acw b) b.a 32 (b.counters 0) [9] []) ∧
    (∀ b ∈ [({ a := acw 2 2, d := acw 1 4 } : LBlk)], Fit sm (.acmv b) ∧ matCheck (.acmv b) b sm sm.ref = .ok none) ∧
    (∀ b ∈ [{ atRec (acw 1 1) { tpw 0 with seg := 0 } 4 with dfmt := 6, cx := 512 }],
      ∀ s ∈ [recs (0x200 + 7 * 2 ^ 160 + 2 * 2 ^ 192) (demo .mxe)], ∀ x ∈ [s.reading (.drn b) none], ∀ w ∈ [(x.ctx s.ref).mediumBits spTp (8 * 0x100) 512],
      Fit s (.drn b) ∧ matCheck (.drn b) b s s.ref = .ok none ∧ originAt x s.ref b.b (b.counters 0) = 0x100 ∧
      lateTouch x s.ref (s.newEntry (.drn b) none) { space := spTp, lo := 0x100, hi := 0x140, write := false } = .ok () ∧
      drainFault b w = none ∧ (drainWindows b (drainOf w)).forM (lateTouch x s.ref (s.newEntry (.drn b) none)) = .ok () ∧
      drainElem x s.ref b (drainOf w) 0 0 100 = 7) := by
  simp only [Fit, State.Source, Issuing]
  decide +kernel

theorem wit_WindowForms :
    (∀ b ∈ [atRec { tpw 0 with seg := 0 } { tpw 0x40 with seg := 0 } 4], ∀ s ∈ [recs (0x01010000 * 2 ^ 128) (demo .lde)],
      ∀ q ∈ [winRecOf (0x01010000 * 2 ^ 128)], Fit s (.winl b) ∧ readWindow (s.reading (.winl b) none) s.ref (s.newEntry (.winl b) none) b false 0 = .ok q ∧
      q.mode = 0 ∧ b.d.seg + 1 = q.kh * q.kw * (b.a.seg + 1) ∧ b.d.ext2 + 1 = q.np ∧ winlElems (s.reading (.winl b) none) s.ref b q 0 = [(0, 0, 5)]) ∧
    (∀ b ∈ [atRec { tpw 0 with seg := 0 } (vd 6) 4], ∀ s ∈ [recs (0x01010000 * 2 ^ 128) (demo .vxe)],
      ∀ q ∈ [winRecOf (0x01010000 * 2 ^ 128)], Fit s (.wpool b) ∧ s.ReadsWindow (.wpool b) b true q ∧
      (∀ p ∈ s.views (.wpool b), wpoolElems p.1 s.ref b q 0 = [(5, 1)]) ∧ s.DeliversAny (.wpool b) b 1 [(5, 1)] [] (outReg 6 4 [(5, 1)])) ∧
    (∀ b ∈ [({ fmt := 1, a := vd 1, d := vd 6 } : LBlk)], Fit sv (.vbfly b) ∧
      sv.ReadsComplex (.vbfly b) b.a (b.counters 0) [(0x40000000, 0x40000000), (0x40000000, 0x3F800000)] [] ∧
      sv.DeliversAny (.vbfly b) b 4 [(0x40800000, 1), (0x40400000, 1), (0, 1), (0x3F800000, 1)] []
        (outReg 6 1 [(0x40800000, 1), (0x40400000, 1), (0, 1), (0x3F800000, 1)])) ∧
    (∀ b ∈ [({ fmt := 1, cx := 1, a := vd 1, b := im 1, d := vd 6 } : LBlk)], Fit sv (.vtwd b) ∧
      sv.ReadsComplex (.vtwd b) b.a (b.counters 0) [(0x40000000, 0x40000000), (0x40000000, 0x3F800000)] [] ∧
      twiddle 1 1 = (0xBF800000, 0) ∧
      sv.DeliversAny (.vtwd b) b 4 [(0x40000000, 2), (0xC0000000, 1), (0xBF800000, 1)] []
        (outReg 6 1 [(0x40000000, 2), (0xC0000000, 1), (0xBF800000, 1)])) ∧
    (∀ b ∈ [({ fmt := 1, a := vd 1, b := vd 3, d := vd 6 } : LBlk)], Fit sv (.vcmul b) ∧
      sv.ReadsComplex (.vcmul b) b.a (b.counters 0) [(0x40000000, 0x40000000), (0x40000000, 0x3F800000)] [] ∧
      sv.ReadsComplex (.vcmul b) b.b (b.counters 0) [(0x40400000, 0x40400000), (0x40400000, 0x40400000)] [] ∧
      sv.DeliversAny (.vcmul b) b 4 [(0, 1), (0x41400000, 1), (0x40400000, 1), (0x41100000, 1)] []
        (outReg 6 1 [(0, 1), (0x41400000, 1), (0x40400000, 1), (0x41100000, 1)])) := by
  simp only [State.TagsOk, Fit, State.ReadsComplex, State.ReadsWindow, State.DeliversAny, State.views, Issuing]
  decide +kernel

/-! ### Loads and stores -/

def sl : State := demo .lde
def ss : State := demo .ste
def ldB (a b d : Desc) : LBlk := { fmt := 4, a := a, b := b, d := d }

/-- What a source reads, and what goes to a destination. -/
def src (s : State) (i : Instr) (x : Desc) (w : Nat) : List Nat × Hot := okOf (readOperand (s.reading i none) s.ref (s.newEntry i none) x w (0, 0, 0, 0))
def dst (s : State) (i : Instr) (hd : Option Handle) (b : LBlk) (l : List Nat) : Writes :=
  okOf (writeOperand (s.reading i hd) s.ref b.d (memWidth b.fmt) b 0 l)
def plc (s : State) (i : Instr) (hd : Option Handle) (k : AccessKind) (l : List (Option Int)) : List (Option (List Piece)) :=
  okOf (translateTile (s.reading i hd) s.ref k 32 l)

/-- A copy: it fits, its source reads some values, its destination takes them. -/
def Copies (s : State) (i : Instr) (b : LBlk) (l : List Nat) : Prop :=
  Fit s i ∧ s.Source i b.a 32 (b.counters 0) l (src s i b.a 32).2 ∧ s.Target i none b l (dst s i none b l)

/-- A gather or scatter: its index list and the places it names. -/
def Gathers (s : State) (i : Instr) (b : LBlk) (xs : List Nat) (k : AccessKind) (l : List (Option Int)) : Prop :=
  Fit s i ∧ indexList (s.reading i none) s.ref (s.newEntry i none) b 0 = .ok xs ∧ s.Places i none k 32 l (plc s i none k l)

theorem wit_LoadForms :
    (∀ b ∈ [ldB (gmw 0x800) {} (tpw 0x40), ldB (gmw 0x800) {} (cpw 0xFFF0)], Copies sl (.ldg b) b [11, 22, 33, 44]) ∧
    (∀ b ∈ [ldB (cpw 0xFFF0) {} (tpw 0x40)], Copies sl (.ldgr b) b [0, 0, 0, 0]) ∧
    (∀ b ∈ [ldB (gmw 0x800) {} { tpw 0x40 with space := spWb }], Copies sl (.ldwb b) b [11, 22, 33, 44] ∧ b.a.space ≠ spTh) ∧
    (∀ b ∈ [ldB { space := spTh, seg := 3 } {} (tpw 0x40)], ∀ i ∈ [Instr.ldt b], ∀ h ∈ [okOf (readHandle sl sl.ref b b.a)], Fit sl i ∧
      readHandle sl sl.ref b b.a = .ok h ∧ tileMatches b.a b.d h = true ∧
      (∃ t ∈ [okOf (readTile (sl.reading i (some h)) sl.ref b.a h (b.counters 0))], t.1 = [11, 22, 33, 44] ∧
        readTile (sl.reading i (some h)) sl.ref b.a h (b.counters 0) = .ok t ∧ sl.Target i (some h) b t.1 (dst sl i (some h) b t.1))) ∧
    (∀ b ∈ [ldB { space := spTh, seg := 3, st0 := 1 } {} { tpw 0x40 with space := spWb }], ∀ i ∈ [Instr.ldwb b], ∀ h ∈ [okOf (readHandle sl sl.ref b b.a)],
      Fit sl i ∧ b.a.space = spTh ∧ readHandle sl sl.ref b b.a = .ok h ∧ tileMatches b.a b.d h = true ∧
      (∃ t ∈ [okOf (readTile (sl.reading i (some h)) sl.ref b.a h (b.counters 0))], t.1 = [22, 33, 44, 0] ∧
        readTile (sl.reading i (some h)) sl.ref b.a h (b.counters 0) = .ok t ∧ sl.Target i (some h) b t.1 (dst sl i (some h) b t.1))) ∧
    (∀ b ∈ [ldB (im 9) {} (tpw 0x40)], Fit sl (.ldf b) ∧ sl.Target (.ldf b) none b [9, 9, 9, 9] (dst sl (.ldf b) none b [9, 9, 9, 9])) ∧
    (∀ b ∈ [ldB { tpw 0 with seg := 0 } (ixw 0) (tpw 0x40)], Fit sl (.ldx b) ∧ b.a.space = spTp ∧
      indexList (sl.reading (.ldx b) none) sl.ref (sl.newEntry (.ldx b) none) b 0 = .ok [5, 0, 0x101, 0] ∧
      sl.Target (.ldx b) none b [0, 5, 0, 5] (dst sl (.ldx b) none b [0, 5, 0, 5])) ∧
    (∀ b ∈ [ldB { gmw 0x800 with seg := 0 } (ixw 0) (tpw 0x40)], ∀ i ∈ [Instr.ldx b], b.a.space ≠ spTp ∧
      Gathers sl i b [5, 0, 0x101, 0] .read ((indexed 0x10800 4 [5, 0, 0x101, 0]).map fun a => a.map (8 * ·)) ∧
      originAt (sl.reading i none) sl.ref b.a (b.counters 0) = 0x10800 ∧
      (∃ v ∈ [sl.valuesAt i (plc sl i none .read ((indexed 0x10800 4 [5, 0, 0x101, 0]).map fun a => a.map (8 * ·)))],
        v = [0, 11, 0, 11] ∧ sl.Target i none b v (dst sl i none b v))) ∧
    (∀ b ∈ [ldB { gmw 0x800 with seg := 1 } (ixw 0) { tpw 0x40 with seg := 1, ext2 := 3, aux := 1 }], ∀ i ∈ [Instr.ldxl b],
      ∀ l ∈ [lineElems b.a 32 (indexed 0x10800 (pitchOf b.a 32) [5, 0, 0x101, 0])], Gathers sl i b [5, 0, 0x101, 0] .read l ∧
      (∃ v ∈ [sl.valuesAt i (plc sl i none .read l)], v = [0, 0, 11, 22, 0, 0, 11, 22] ∧ sl.Target i none b v (dst sl i none b v))) ∧
    -- a walk record at tp 0x100: two hops of a chase from 0x10800, whose next pointer lies 8 bytes on, and its start at tp 0x200
    (∀ b ∈ [ldB { tpw 0x100 with seg := 0 } { tpw 0x200 with seg := 0 } { tpw 0x40 with seg := 0, ext2 := 1, aux := 1 }],
      ∀ s ∈ [withCtx { sl with hbm := Memory.putNat sl.hbm 0x10808 8 0 } fun c => { c with tp := Memory.putNat (Memory.putNat c.tp 0x100 32 ((2 * 2 ^ 8 + 8 * 2 ^ 16) * 2 ^ 192)) 0x200 8 0x10800 }],
      ∀ i ∈ [Instr.ldw b], ∀ rec ∈ [((2 * 2 ^ 8 + 8 * 2 ^ 16) * 2 ^ 192 : Nat)], ∀ q ∈ [walkOf rec], ∀ hd ∈ [some ({ record := rec } : Handle)],
      Fit s i ∧ walkCheck b s s.ref = .ok hd ∧ q.mode = 0 ∧ q.hops = 2 ∧
      readOperand (s.reading i hd) s.ref (s.newEntry i hd) b.b 64 (b.counters 0) = .ok ([0x10800], []) ∧
      (∃ w ∈ [okOf (walkAll (fun _ p => chase ((s.reading i hd).viaCarafe s.ref) s.ref q b.fmt q.hops p) 0 [0x10800])],
        walkAll (fun _ p => chase ((s.reading i hd).viaCarafe s.ref) s.ref q b.fmt q.hops p) 0 [0x10800] = .ok w ∧ w.1 = [[11, 0]] ∧
        s.Target i hd b [11, 0] (dst s i hd b [11, 0]))) ∧
    (∀ b ∈ [ldB (gmw 0x800) (im 30) { tpw 0x40 with seg := 7 }], Fit sl (.ldq b) ∧
      sl.Source (.ldq b) b.a 32 (b.counters 0) [11, 22, 33, 44] (src sl (.ldq b) b.a 32).2 ∧
      (([0, 1, 2, 3].zip [11, 22, 33, 44]).filter fun x => reaches b.fmt x.2 b.b.base) = [(2, 33), (3, 44)]) := by
  simp only [Copies, Gathers, Fit, State.Source, State.Target, State.Places, Issuing]
  decide +kernel

theorem wit_StoreForms :
    (∀ b ∈ [ldB (tpw 0) {} (gmw 0x800)], Copies ss (.stg b) b [5, 0, 0x101, 0]) ∧
    (∀ b ∈ [ldB (tpw 0) {} (cpw 0xFFF0)], Copies ss (.stgr b) b [5, 0, 0x101, 0]) ∧
    (∀ b ∈ [ldB (tpw 0) {} { space := spTh, seg := 3 }], ∀ i ∈ [Instr.stt b], ∀ h ∈ [okOf (readHandle ss ss.ref b b.d)], Fit ss i ∧
      readHandle ss ss.ref b b.d = .ok h ∧ tileMatches b.d b.a h = true ∧
      readOperand (ss.reading i (some h)) ss.ref (ss.newEntry i (some h)) b.a 32 (b.counters 0) = .ok ([5, 0, 0x101, 0], []) ∧
      ss.Places i (some h) .write 32 (tileElems b.d h (b.counters 0)) (plc ss i (some h) .write (tileElems b.d h (b.counters 0)))) ∧
    (∀ b ∈ [ldB (tpw 0) (ixw 0) { tpw 0x40 with seg := 0 }], Fit ss (.stx b) ∧ b.d.space = spTp ∧
      ss.Source (.stx b) b.a 32 (b.counters 0) [5, 0, 0x101, 0] [] ∧
      indexList (ss.reading (.stx b) none) ss.ref (ss.newEntry (.stx b) none) b 0 = .ok [5, 0, 0x101, 0]) ∧
    (∀ b ∈ [ldB (tpw 0) (ixw 0) { gmw 0x800 with seg := 0 }], ∀ i ∈ [Instr.stx b], b.d.space ≠ spTp ∧
      Gathers ss i b [5, 0, 0x101, 0] .write ((indexed 0x10800 4 [5, 0, 0x101, 0]).map fun a => a.map (8 * ·)) ∧
      ss.Source i b.a 32 (b.counters 0) [5, 0, 0x101, 0] []) ∧
    (∀ b ∈ [ldB { tpw 0 with seg := 0, ext2 := 3, aux := 1 } (ixw 0) { gmw 0x800 with seg := 0 }], ∀ i ∈ [Instr.stxl b],
      Gathers ss i b [5, 0, 0x101, 0] .write (lineElems b.d 32 (indexed 0x10800 (pitchOf b.d 32) [5, 0, 0x101, 0])) ∧
      ss.Source i b.a 32 (b.counters 0) [5, 0x101, 0, 0] []) ∧
    (∀ b ∈ [ldB (tpw 0) (ixw 0) { gmw 0x800 with seg := 0 }, ldB (tpw 0) {} (cpw 0)], ∀ x ∈ [ss.reading (.strd b) none],
      ∀ l ∈ [if b.b.space = spIx then indexed (originAt x ss.ref b.d (b.counters 0)) 4 [5, 0, 0x101, 0] else wordAddrs x ss.ref b.d (b.counters 0)],
      ∀ st ∈ [[5, 0, 0x101, 0].map fun v => ({ f := strdOp b, x := v } : Step)], Fit ss (.strd b) ∧
      ss.Source (.strd b) b.a 32 (b.counters 0) [5, 0, 0x101, 0] [] ∧
      (b.b.space = spIx → indexList x ss.ref (ss.newEntry (.strd b) none) b 0 = .ok [5, 0, 0x101, 0]) ∧
      stepsAt x ss.ref b.d (packCtr (b.counters 0)) l st = .ok (okOf (stepsAt x ss.ref b.d (packCtr (b.counters 0)) l st))) ∧
    (∀ e ∈ atomForms.zip [4, 4, 4, 8, 8, 4, 4, 4, 4, 4, 1], ∀ bb ∈ [({} : Desc), { tpw 0x40 with seg := 1 }], ∀ F ∈ [e.1.F { fmt := e.2 }],
      ∀ b ∈ [({ fmt := e.2, a := if F = .cas then tpw 0 else { tpw 0 with seg := 1 }, b := bb, d := { gmw 0x800 with seg := 1 } } : LBlk)],
      ∀ x ∈ [ss.reading (e.1.ins b) none], ∀ l ∈ [(src ss (e.1.ins b) b.a 32).1],
      ∀ st ∈ [((atomOperands b (F == .cas) l).zip (if bb.space = spNone then [none, none] else [some 0x200, some 0x220])).map
        fun ((o, v), ret) => ({ f := F, x := v, e := o, ret := ret } : Step)],
      Fit ss (e.1.ins b) ∧ e.1.F b = F ∧ ss.Source (e.1.ins b) b.a 32 (b.counters 0) l [] ∧
      stepsAt x ss.ref b.d (packCtr (b.counters 0)) (wordAddrs x ss.ref b.d (b.counters 0)) st =
        .ok (okOf (stepsAt x ss.ref b.d (packCtr (b.counters 0)) (wordAddrs x ss.ref b.d (b.counters 0)) st))) := by
  simp only [Copies, Gathers, Fit, State.Source, State.Places, State.Target, Issuing]
  decide +kernel

/-! ### Blocks that run on, and S-form blocks -/

/-- A block in flight that stands at its next iteration. -/
def running (s : State) (i : Instr) (n : Nat) (p : Phase := .run) : State :=
  s.updChain s.ref fun h => { h with inflight := [{ addr := 0x400, words := [], instr := i, ctr := n, phase := p }] }

theorem wit_NestOrder : ∀ b ∈ [({ fmt := 4, b0 := 1, b1 := 1, a := vd 4, b := vd 5, d := vd 6 } : LBlk)], ∀ i ∈ [Instr.viadd b],
    ∀ beh ∈ [vecBehaviour i b (elemBody b b.fmt b.fmt b.fmt true false fun x z _ => wrapClamp b.fmt (b.sat == 1) (intVal b.fmt x + intVal b.fmt z))],
    (lParts i).isSome = true ∧ wellFormed .vxe 0 i = true ∧ Issuing sv i ∧ iterationsOf i = 4 ∧ beh.check sv sv.ref = .ok none ∧
    (∀ s ∈ [withCtx sv fun c => c.setVreg 4 {}], Issuing s i ∧ (beh.check s s.ref).isOk = false) ∧
    (∀ s ∈ [running sv i 1], findRun i (s.chain s.ref).inflight 0 = some 0 ∧ ((s.chain s.ref).inflight[0]?).isSome = true ∧ s.runnable s.ref = true ∧ s.env = {} ∧
      s.mayIterate s.ref 0 = true) ∧
    -- loops at their bounds
    (∀ b ∈ [({ b0 := 1, b1 := 2, b2 := 0, b3 := 65535 } : LBlk)], b.iterations = 6 * 65536 ∧
      ∀ p ∈ [((0, 0, 0, 0), 0), ((1, 0, 0, 0), 1), ((0, 1, 0, 0), 2), ((1, 2, 0, 0), 5), ((0, 0, 0, 1), 6), ((1, 2, 0, 65535), 393215)], b.counters p.2 = p.1 ∧
        p.2 = p.1.1 + 2 * (p.1.2.1 + 3 * (p.1.2.2.1 + 1 * p.1.2.2.2))) := by
  simp only [Issuing]
  decide +kernel

/-- A block of one step that the fetch checks accept and that issues. -/
def Runs1 (s : State) (i : Instr) : Prop := wellFormed s.ref.eng 0 i = true ∧ s.Goes i

def ended (s : State) : State := s.updChain s.ref fun h => { h with endFlag := true }

theorem wit_TransferForms : Runs1 sl (.nop {}) ∧ Runs1 sl (.link {} 0x1000) ∧
    (∀ p ∈ [(0, 0), (1, 0), (2, 0), (3, 5), (3, 6), (4, 6), (4, 5), (5, 6), (5, 5), (6, 5), (6, 6), (7, 6), (7, 5), (8, 5), (8, 6), (9, 4), (9, 2), (10, 2), (10, 4)],
      ∀ i ∈ [Instr.brc {} p.1 0x40 p.2 0], Runs1 sl i ∧ (sl.sees i).tpWord 0 4 = 5) ∧
    (∀ i ∈ [Instr.brc {} 1 0x40 0 0, .brc {} 2 0x40 0 0], Runs1 (ended sl) i ∧ ((ended sl).chain sl.ref).endFlag = true) ∧
    (Runs1 sl (.brcd {} 0x40 0) ∧ (sl.sees (.brcd {} 0x40 0)).tpWord 0 4 = 5) ∧
    (Runs1 sl (.brcd {} 0x40 4) ∧ (sl.sees (.brcd {} 0x40 4)).tpWord 4 4 = 0) := by
  simp only [Runs1, goes_iff]
  decide +kernel

theorem wit_CursorMoves : Runs1 sl (.nop {}) ∧ Runs1 sl (.link {} 0x1000) ∧ nextAddr 0 (.vadd {}) = 128 ∧
    nextAddr (2 ^ 48 + 0x80) (.vadd { lk := 1, next := 0x40 }) = 2 ^ 48 + 0x40 := by
  simp only [Runs1, goes_iff]
  decide +kernel

theorem wit_TaskControlForms : Runs1 sl (.endChain {}) ∧ (Runs1 sl (.yieldSlot {}) ∧ sl.cycle < (sl.task ((sl.issued (.yieldSlot {})).taskOf sl.ref)).deadline) ∧
    (∀ s ∈ [{ sl with cycle := 1000 }], Runs1 s (.yieldSlot {}) ∧ (s.task ((s.issued (.yieldSlot {})).taskOf s.ref)).deadline ≤ s.cycle) ∧
    (∀ p ∈ [(0, 0), (1, 0), (127, 127)], ∀ i ∈ [Instr.spawn {} 1 p.1 1], Runs1 sl i ∧ wrapTo 64 (rbAddr (sl.issued i) sl.ref 1 p.1) % 128 = p.2 % 128 + p.1 % 2 * (1 - p.2 / 127)) := by
  simp only [Runs1, goes_iff]
  decide +kernel

/-- Page 7 is another module's memory; a fork of the acting chain holds the sector of 0x10800. -/
def peered (s : State) : State := { s with hbm := Memory.putNat s.hbm 0x3038 8 (leaf 2 (2 ^ 47 + 0x40000)) }
def ownFork (s : State) : State :=
  { s with steps := 1, forks := [{ task := 1, pasid := 5, ref := s.ref, block := 0, kind := .mem [] [{ place := .tier .hbm, unit := 0x10800 / 32, va := 0x10800, ops := [] }] }] }

/-- A patch of n bytes at T whose page translates. -/
def Patches (s : State) (i : Instr) (T n : Nat) (q : Phys) : Prop :=
  Runs1 s i ∧ T % 32 + n ≤ 32 ∧ nearTarget (s.chain s.ref).cursor T = T ∧
  (s.issued i).translate s.ref.tile ((s.issued i).task ((s.issued i).taskOf s.ref)).pasid T .write = .ok q

theorem wit_PatchForms :
    (∀ p ∈ [(Instr.patch {} 15 0x10810 0, sl, 0x10810, 16), (.patchi {} 3 0x10800 9, sl, 0x10800, 4), (.patchv {} 1 0x10800 3 4, sv, 0x10800, 2)],
      ∀ s ∈ [p.2.1, ownFork p.2.1], ∀ q ∈ [okOf ((s.issued p.1).translate 0 5 p.2.2.1 .write)], ∀ a ∈ [patchWrite q p.2.2.1 p.2.2.2 9],
      Patches s p.1 p.2.2.1 p.2.2.2 q ∧ q.place = .tier .hbm ∧ (s.issued p.1).ownHolds s.ref s.steps a = !s.forks.isEmpty ∧
        Map.get false (s.issued p.1).poison ((s.issued p.1).unitKey a) = false) ∧
    (sl.sees (.patch {} 15 0x10810 0)).tpWord 0 16 = 5 + 2 ^ 64 + 2 ^ 72 ∧ (sv.sees (.patchv {} 1 0x10800 3 4)).vreg 4 = vr 4 [(7, 3), (0xFFFFFFFF, 1)] ∧
    (∀ p ∈ [(Instr.patch {} 15 0x70010 0, sl, 16), (.patchi {} 3 0x70010 9, sl, 4), (.patchv {} 1 0x70010 3 4, sv, 2)], ∀ s ∈ [peered p.2.1],
      ∀ q ∈ [okOf ((s.issued p.1).translate 0 5 0x70010 .write)], Patches s p.1 0x70010 p.2.2 q ∧ q.place = .peer) ∧
    (∀ p ∈ [(Instr.patch {} 15 0x50010 0, sl, 16), (.patchi {} 3 0x50010 9, sl, 4), (.patchv {} 1 0x50010 3 4, sv, 2)],
      Runs1 p.2.1 p.1 ∧ nearTarget (p.2.1.chain p.2.1.ref).cursor 0x50010 = 0x50010 ∧ (p.2.1.issued p.1).translate 0 5 0x50010 .write = .error .notPresent) ∧
    (∀ s ∈ [withCtx sv fun c => c.setVreg 4 {}], Runs1 s (.patchv {} 1 0x10800 3 4) ∧ ((s.sees (.patchv {} 1 0x10800 3 4)).vreg 4).valid = false) ∧
    (Runs1 sv (.patchv {} 1 0x10800 4 4) ∧ ((sv.sees (.patchv {} 1 0x10800 4 4)).vreg 4).len = 4) := by
  simp only [Patches, Runs1, goes_iff]
  decide +kernel

/-- The small machine's task made privileged. -/
def privileged (s : State) : State := s.updTask 1 fun t => { t with words := words.set 6 (2 ^ 35) }

theorem wit_RaisingForms :
    (∀ i ∈ [Instr.svc {} 65535 7, .trap {} 63 7, .brkp {} 65535, .flti {} 0x101 7], wellFormed .lde 0 i = true ∧ Issuing sl i ∧
      ∀ s ∈ [running sl i 0], findRun i (s.chain s.ref).inflight 0 = some 0 ∧ s.runnable s.ref = true ∧ s.signalsLate s.ref i = false) ∧
    (sl.task ((sl.issued (.flti {} 0x101 7)).taskOf sl.ref)).priv = false ∧
    (∀ p ∈ [(0x040, Cause.trap 0), (0x07F, .trap 63), (0x101, .permission), (0x187, .migrationAbort 7), (0x283, .danglingStream)],
      ∀ s ∈ [privileged sl], Issuing s (.flti {} p.1 7) ∧ ((s.issued (.flti {} p.1 7)).task ((s.issued (.flti {} p.1 7)).taskOf s.ref)).priv = true ∧
        causeOf p.1 = some p.2 ∧ decide (p.2.disp = .note) = decide (p.1 = 0x283) ∧ (s.issued (.flti {} p.1 7)).wouldHold (dieOf s.ref.tile) = false) ∧
    -- a NOTE whose record is held
    (∀ s ∈ [(privileged sl).setDie 0 { tail := 4096 }], Issuing s (.flti {} 0x283 7) ∧
      ((s.issued (.flti {} 0x283 7)).task ((s.issued (.flti {} 0x283 7)).taskOf s.ref)).priv = true ∧
      (s.issued (.flti {} 0x283 7)).wouldHold (dieOf s.ref.tile) = true) := by
  simp only [Issuing]
  decide +kernel

/-- Rendezvous point 3 of cluster 0 with its arrivals. -/
def pointed (s : State) (p : Point) : State := s.setPoint 3 p

theorem wit_SignalForms :
    (∀ i ∈ [Instr.semi {} 255 65535], Runs1 sl i ∧ ((sl.issued i).ctx sl.ref).ringSem 255 = false) ∧ Runs1 sl (.semq {} 1 0x7FFC) ∧
    (∀ i ∈ [Instr.semw {} 0 1 3, .semw {} 1 1 3], Runs1 sl i ∧ ((sl.issued i).ctx sl.ref).ringSem 1 = false) ∧
    (∀ i ∈ [Instr.sems {} 1 0 128 1 5], Runs1 sl i ∧ dieOf 128 ≠ dieOf sl.ref.tile) ∧
    (∀ i ∈ [Instr.sems {} 0 0 0 1 65532, .sems {} 1 0 0 1 65532], Runs1 sl i ∧
      ((sl.issued i).signalSlot ((sl.issued i).task ((sl.issued i).taskOf sl.ref)).pasid 0 0 1 65532).any (·.isOk) = true) ∧
    (∀ i ∈ [Instr.bari {} 3 65535], Runs1 sl i ∧ ((sl.issued i).point (pointKey sl.ref 3)).owner = none) ∧
    (∀ p ∈ [({ owner := some 5, exp := 2, arr := 1, phase := 65535 } : Point), { owner := some 5, exp := 2 }], ∀ s ∈ [pointed sl p], ∀ i ∈ [Instr.bara {} 3 1 0x40],
      Runs1 s i ∧ (s.issued i).point (pointKey s.ref 3) = p ∧ p.owner = some ((s.issued i).task ((s.issued i).taskOf s.ref)).pasid) ∧
    (∀ s ∈ [pointed sl { owner := some 6 }, pointed sl { owner := some 5 }], Runs1 s (.bari {} 3 2) ∧ ((s.issued (.bari {} 3 2)).point (pointKey s.ref 3)).owner ≠ none) ∧
    (∀ p ∈ [({} : Point), { owner := some 6 }], ∀ s ∈ [pointed sl p], Runs1 s (.bara {} 3 0 0) ∧ (s.issued (.bara {} 3 0 0)).point (pointKey s.ref 3) = p ∧
      p.owner ≠ some ((s.issued (.bara {} 3 0 0)).task ((s.issued (.bara {} 3 0 0)).taskOf s.ref)).pasid) ∧
    (∀ p ∈ [(5, 6), (5, 32772), (6, 0)], ∀ s ∈ [pointed sl { owner := some p.1, exp := 2, phase := p.2 }], ∀ i ∈ [Instr.barw {} 3 0], Runs1 s i ∧
      (decide (((s.issued i).point (pointKey s.ref 3)).owner = some ((s.issued i).task ((s.issued i).taskOf s.ref)).pasid) = decide (p.1 = 5))) := by
  simp only [Runs1, goes_iff]
  decide +kernel

/-- A region for rings, and a ring of two slots over it with one full slot. -/
def forRings (s : State) : State := withCtx s fun c => c.setRegion 2 (some { mode := 6, space := spTp, off := 0x10000, len := 0x400 })
def ring0 : Ring := { reg := 2, nslot := 2, slot := 64, fsem := 20, esem := 21, prod := 1 }
def ringed (s : State) (g : Ring) : State := withCtx (forRings s) fun c => ((c.setRing 0 (some g)).setSem 20 1).setSem 21 1

theorem wit_RegionForms :
    (∀ p ∈ [(1, 6, spTp, 0x40, 0x20000), (0, 0, 0, 0, 0)], ∀ i ∈ [Instr.regd {} 0 0 0 p.1 0 (30 * p.1) p.2.1 p.2.2.1 3 p.2.2.2.1 p.2.2.2.2], Runs1 sl i ∧
      (((sl.issued i).ctx sl.ref).regd 3 (if p.2.1 = 0 then none else some (regionOfFields 0 0 0 p.1 0 (30 * p.1) p.2.1 p.2.2.1 p.2.2.2.1 p.2.2.2.2))).isOk = true) ∧
    (∀ s ∈ [forRings sl], ∀ i ∈ [Instr.ringd {} 1 21 20 2 0 1 2], Runs1 s i ∧ ((s.issued i).ctx s.ref).ring 0 = none ∧
      ((s.issued i).ctx s.ref).ringOk (ringOfFields 1 21 20 2 1 2) = true) ∧
    (∀ s ∈ [ringed sl ring0], Runs1 s (.ringd {} 1 21 20 2 0 1 0) ∧ ((s.issued (.ringd {} 1 21 20 2 0 1 0)).ctx s.ref).ring 0 = some ring0 ∧
      ring0.sub = none ∧ ring0.pull = none ∧ Runs1 s (.eos {} 0) ∧ ((s.issued (.eos {} 0)).ctx s.ref).ring 0 = some ring0 ∧ ring0.tokens < ring0.prod) := by
  simp only [Runs1, goes_iff]
  decide +kernel

theorem wit_OrderingForms :
    (∀ p ∈ [(0, 1), (0, 2), (1, 4)], ∀ i ∈ [Instr.ldacq {} 0 p.1 0 1 p.2 0 0x40], Runs1 sl i ∧ rbAddr (sl.issued i) sl.ref 1 p.2 % (4 * (p.1 + 1)) ≠ 0) ∧
    (∀ p ∈ [(0, 0x800, 11), (1, 0x800, 11 + 22 * 2 ^ 32)], ∀ i ∈ [Instr.ldacq {} 1 p.1 2 1 p.2.1 11 0x40], Runs1 sl i ∧
      (readWord (sl.issued i) sl.ref (rbAddr (sl.issued i) sl.ref 1 p.2.1) (if p.1 = 1 then 8 else 4)).toOption.map (·.1) = some p.2.2) ∧
    (∀ i ∈ [Instr.strel {} 1 0 2 1 0x800 9 0, .strel {} 0 1 2 1 0x800 0 0], Runs1 ss i ∧ rbAddr (ss.issued i) ss.ref 1 0x800 = 0x10800 ∧
      (wordAccess (ss.issued i) ss.ref .write 0x10800 4 (.write 9)).isOk = true ∧ (wordAccess (ss.issued i) ss.ref .write 0x10800 8 (.write 5)).isOk = true) ∧
    Runs1 sl (.fence {} 2) ∧
    (∀ op ∈ [0, 1, 2], ∀ i ∈ [Instr.post {} op 2 1 0x800 9], Runs1 ss i ∧ rbAddr (ss.issued i) ss.ref 1 0x800 = 0x10800 ∧
      (wordAccess (ss.issued i) ss.ref .atomic 0x10800 8 (.rmw .postAdd 9 0 none)).isOk = true) ∧
    (∀ i ∈ [Instr.join {} 2 1 0x800 (11 + 22 * 2 ^ 32)], Runs1 sl i ∧ (readWord (sl.issued i) sl.ref (rbAddr (sl.issued i) sl.ref 1 0x800) 8).isOk = true) ∧
    (sl.chain sl.ref).report = none ∧
    -- a value that the home has reported, and that the word no longer holds
    (∀ i ∈ [Instr.join {} 2 1 0x800 (2 ^ 60), .ldacq {} 1 0 2 1 0x800 99 0x40],
      ∀ s ∈ [sl.updChain sl.ref fun h => { h with report := some (i, 2 ^ 60) }], Runs1 s i ∧ (s.chain s.ref).reported i = some (2 ^ 60) ∧
        rbAddr (s.issued i) s.ref 1 0x800 % 8 = 0 ∧ s.watchHolds s.ref i = true ∧ sl.watchHolds sl.ref i = false) ∧
    (∀ i ∈ [Instr.strel {} 1 0 2 1 2 9 0, .strel {} 0 1 2 1 4 0 0, .post {} 0 2 1 4 9], Runs1 ss i) ∧ Runs1 sl (.join {} 2 1 4 9) ∧
    (∀ q ∈ [(2, 4), (4, 8)], rbAddr (ss.issued (.fence {} 2)) ss.ref 1 q.1 % q.2 ≠ 0) := by
  simp only [Runs1, goes_iff]
  decide +kernel

def th4 : Desc := { space := spTh, seg := 3 }
def rq0 (n : Nat) : Desc := { space := spRq, seg := n }
/-- A stream of a block, as it opens. -/
def stream (b : LBlk) : Stream := { block := 0, body := b, handle := okOf (readHandle sl sl.ref b th4) }

theorem wit_StreamForms :
    (∀ b ∈ [ldB th4 {} (rq0 3)], ∀ s ∈ [ringed sl ring0], Runs1 s (.sub b) ∧
      b.d.seg + 1 = tileCount b.a ∧ ((s.issued (.sub b)).ctx s.ref).ring b.d.base = some ring0 ∧ tileCount b.a * memWidth b.fmt ≤ 8 * ring0.slot ∧ ring0.sub = none) ∧
    (∀ b ∈ [({ d := rq0 0 } : LBlk)], ∀ x ∈ [stream (ldB th4 {} (rq0 3))],
      ∀ g ∈ [ring0, { ring0 with sub := some x }, { ring0 with sub := some { x with took := some 0 } }], ∀ s ∈ [ringed sl g], Runs1 s (.subc b) ∧
      ((s.issued (.subc b)).ctx s.ref).ring b.d.base = some g ∧ g.tokens < g.prod) ∧
    (∀ b ∈ [ldB (rq0 3) {} th4], ∀ s ∈ [ringed ss ring0], Runs1 s (.pub b) ∧
      ((s.issued (.pub b)).ctx s.ref).ring b.a.base = some ring0 ∧ tileCount b.d * memWidth b.fmt ≤ 8 * ring0.slot ∧ ring0.pull = none) ∧
    (∀ b ∈ [({ a := rq0 0 } : LBlk)], ∀ x ∈ [stream (ldB (rq0 3) {} th4)], ∀ g ∈ [ring0, { ring0 with pull := some x }, { ring0 with pull := some { x with took := some 0 } }],
      ∀ fl ∈ [[], [({ task := 1, pasid := 5, ref := engRef 0 0 .ste, block := 0, kind := .mem [] [], pull := some 0 } : Fork)]],
      ∀ s ∈ [{ ringed ss g with forks := fl }], Runs1 s (.pubc b) ∧ ((s.issued (.pubc b)).ctx s.ref).ring b.a.base = some g ∧
      ((s.issued (.pubc b)).setCtx s.ref (((s.issued (.pubc b)).ctx s.ref).setRing b.a.base (some { g with pull := g.pull.bind Stream.closed }))).pullOver s.ref b.a.base =
        (fl.isEmpty && (g.pull.bind fun x => x.took).isNone)) := by
  simp only [Runs1, goes_iff]
  decide +kernel

/-- A descriptor that the tile has kept and memory still holds: whichever is read, it is that one. -/
theorem handleWords_kept {s : State} {r : EngRef} {p x : Nat} {pss : List (List (List Piece))} {h : HandleCopy}
    (hm : mapE (fun k => translateElems s r .read true 64 [((s.handleVa p x + 8 * k) * 8 : Nat)]) (upto 8) = .ok pss)
    (hf : (s.tile r.tile).handles.find? (fun h => h.pasid == p && h.index == x) = some h)
    (he : h.words = pss.map fun ps => readPieces s (ps.flatMap id)) : s.handleWords r p x = .ok h.words := by
  unfold State.handleWords
  dsimp only
  rw [hm, hf]
  simp [he]

def h0Words : List Nat := [2 ^ 63 + 0x10800, 4 + 2 ^ 8, 4 + 2 ^ 32, 1 + 2 ^ 32, 1, 0, 0, 0]

theorem wit_StreamHandles : ∀ p ∈ [(ringed sl ring0, ldB th4 {} (rq0 3), true), (ringed ss ring0, ldB (rq0 3) {} th4, false)],
    readHandle (p.1.issued (if p.2.2 then .sub p.2.1 else .pub p.2.1)) p.1.ref p.2.1 th4 = .ok (parseHandle h0Words) := by
  intro p hp
  have h : (((p.1.issued (if p.2.2 then .sub p.2.1 else .pub p.2.1)).task ((p.1.issued (if p.2.2 then .sub p.2.1 else .pub p.2.1)).taskOf p.1.ref)).pasid) = 5 := by
    revert p; decide +kernel
  have hw : (p.1.issued (if p.2.2 then .sub p.2.1 else .pub p.2.1)).handleWords p.1.ref 5 th4.base = .ok h0Words := by
    refine handleWords_kept (h := { pasid := 5, index := 0, words := h0Words })
      (pss := okOf (mapE (fun k => translateElems (p.1.issued (if p.2.2 then .sub p.2.1 else .pub p.2.1)) p.1.ref .read true 64 [((0x10400 + 8 * k) * 8 : Nat)]) (upto 8))) ?_ ?_ ?_ <;>
      (clear h; revert p; decide +kernel)
  unfold readHandle
  dsimp only
  rw [h, hw]
  clear h hw
  revert p
  decide +kernel

/-! ### Ranges of pages, and what blocks leave alone -/

/-- A block of class 9 begins on the first page of its range, at VA a. -/
def Begins (s : State) (i : Instr) (rb roff n a : Nat) : Prop :=
  wellFormed .ste 0 i = true ∧ Issuing s i ∧ rbAddr (s.issued i) s.ref rb roff = (a : Int) ∧ a % pageBytes = 0 ∧ a + n * pageBytes ≤ vaLimit

theorem onPage_begins {s : State} {i : Instr} {rb roff n a : Nat} (h : Begins s i rb roff n a) :
    s.OnPage i rb roff n (s.issued i) (s.nextIndex s.ref) a 0 := ⟨h.2.2.1, .inl ⟨h.2.1.issues, rfl, rfl, rfl, h.2.2.2⟩⟩

/-- Or it goes on with page j. -/
def GoesOn (s : State) (i : Instr) (rb roff k a j : Nat) : Prop :=
  rbAddr s s.ref rb roff = (a : Int) ∧ s.runnable s.ref = true ∧ findRun i (s.chain s.ref).inflight 0 = some k ∧
  ((s.chain s.ref).inflight[k]?).map (·.ctr) = some j

theorem onPage_goesOn {s : State} {i : Instr} {rb roff n k a j : Nat} (h : GoesOn s i rb roff k a j) : s.OnPage i rb roff n s k a j := by
  obtain ⟨f, h1, h2⟩ := Option.map_eq_some_iff.mp h.2.2.2
  exact ⟨h.1, .inr ⟨rfl, h.2.1, h.2.2.1, f, h1, h2⟩⟩

/-- Page 1 in motion to LPDDR. -/
def motion1 : Motion := { pasid := 5, va := 0x10000, srcTier := .hbm, src := 0x10000, dstTier := .lpddr, dst := 0x50000, leafTier := .hbm, leaf := 0x3008 }
def moving (s : State) (m : Motion) : State := { s with perc := { s.perc with motions := [m] } }

theorem wit_RangeForms :
    (∀ x ∈ [0, 1], ∀ i ∈ [Instr.migr {} x 1 0 0], Begins ss i 1 0 1 0x10000 ∧ ∀ w ∈ [okOf ((ss.issued i).walk 5 0x10000)], (ss.issued i).walk 5 0x10000 = .ok w ∧
      firstUnit 0x10000 0 w.size = true ∧ (ss.issued i).restsIn 5 0x10000 w (Tier.ofNum x) = decide (x = 0) ∧
      ((ss.issued i).ask ((ss.issued i).requester ss.ref 0 false) (wholePage 0x10000 w.size) (Tier.ofNum x)).isSome = true) ∧
    (∀ i ∈ [Instr.migrs {} 0 1 0 0], Begins ss i 1 0 1 0x10000 ∧ ∀ w ∈ [okOf ((ss.issued i).walk 5 0x10000)], (ss.issued i).walk 5 0x10000 = .ok w ∧
      ((ss.issued i).perc.aborts.all fun m => !(m.who.same ((ss.issued i).requester ss.ref 0 true) && holdsUnit 0x10000 m.va)) = true ∧
      (ss.issued i).asked ((ss.issued i).requester ss.ref 0 true) (holdsUnit 0x10000) = false ∧ (ss.issued i).restsIn 5 0x10000 w .hbm = true) ∧
    (∀ s ∈ [ss, moving ss motion1], ∀ i ∈ [Instr.mpin {} 1 0 65535, .munpin {} 1 0 65535, .madv {} 0 1 0 65535, .madv {} 1 1 0 65535, .madv {} 2 1 0 65535, .madv {} 4 1 0 65535],
      Begins s i 1 0 65536 0x10000 ∧ ∀ w ∈ [okOf ((s.issued i).walk 5 0x10000)], (s.issued i).walk 5 0x10000 = .ok w ∧ firstUnit 0x10000 0 w.size = true) ∧
    (∀ i ∈ [Instr.mabrt {} 1 0 0], Begins (moving ss motion1) i 1 0 1 0x10000 ∧ (moving ss motion1).motionOf 5 0x10000 = some motion1 ∧ Begins ss i 1 0 1 0x10000 ∧
      ss.motionOf 5 0x10000 = none ∧ ∀ s ∈ [running ss i 1], GoesOn s i 1 0 0 0x10000 1 ∧
        (s.perc.motions.all fun m => m.pasid != 5 || decide (m.va < 0x10000) || decide (0x10000 + 1 * pageBytes ≤ m.va)) = true) ∧
    (∀ i ∈ [Instr.mhot {} 0 1 0 4095 0x100, .mhot {} 1 1 0 4095 0x100, .mqry {} 1 0 511 0x100], Begins ss i 1 0 4096 0x10000 ∧
      ∀ w ∈ [okOf ((ss.issued i).walk 5 0x10000)], (ss.issued i).walk 5 0x10000 = .ok w ∧ firstUnit 0x10000 0 w.size = true) ∧
    (∀ i ∈ [Instr.mqry {} 1 0x40000 0 0x100], Begins ss i 1 0x40000 1 0x50000 ∧ (ss.issued i).walk 5 0x50000 = .error .notPresent) ∧
    -- the second unit of a page of 2 MiB
    (∀ i ∈ [Instr.mhot {} 0 1 0x1F0000 1 0x100, .migr {} 0 1 0x1F0000 1, .migrs {} 0 1 0x1F0000 1], ∀ s ∈ [running ss i 1], GoesOn s i 1 0x1F0000 0 0x200000 1 ∧
      pageVa 0x200000 1 = 0x210000 ∧ (∀ w ∈ [okOf (s.walk 5 0x210000)], s.walk 5 0x210000 = .ok w ∧ firstUnit 0x200000 1 w.size = false) ∧
      s.perc.aborts = [] ∧ s.asked (s.requester s.ref 0 true) (holdsUnit 0x210000) = false) := by
  simp only [Begins, GoesOn, Issuing]
  decide +kernel

/-- Forms over a range, from rb register rb. -/
def rangeForms (rb roff npg : Nat) : List Instr :=
  [.migr {} 0 rb roff npg, .migrs {} 0 rb roff npg, .mpin {} rb roff npg, .munpin {} rb roff npg, .madv {} 0 rb roff npg, .mabrt {} rb roff npg,
   .mhot {} 0 rb roff npg 0x100, .mqry {} rb roff npg 0x100]

theorem wit_RangeFaults :
    (∀ i ∈ rangeForms 1 1 0 ++ rangeForms 1 0xFFFF 0, Issuing ss i ∧ rbAddr (ss.issued i) ss.ref 1 1 = 0x10001) ∧
    (∀ i ∈ rangeForms 0 (2 ^ 45 - 0x10000) 0, Issuing ss i ∧ rbAddr (ss.issued i) ss.ref 0 (2 ^ 45 - 0x10000) = -0x10000) ∧
    (∀ i ∈ rangeForms 3 0 1, Issuing ss i ∧ rbAddr (ss.issued i) ss.ref 3 0 + (2 * pageBytes : Nat) = (vaLimit : Int) + 0x10000) ∧
    (∀ i ∈ [Instr.migr {} 0 1 0x50000 0, .mpin {} 1 0x50000 0, .munpin {} 1 0x50000 0, .madv {} 0 1 0x50000 0, .mhot {} 0 1 0x50000 0 0x100, .mqry {} 1 0x50000 0 0x100],
      Begins ss i 1 0x50000 1 0x60000 ∧ (ss.issued i).walk 5 0x60000 = .error .tableMalformed) ∧
    (∀ i ∈ [Instr.mpin {} 1 0x40000 0], Begins ss i 1 0x40000 1 0x50000 ∧ (ss.issued i).walk 5 0x50000 = .error .notPresent) ∧
    -- MIGRS at a malformed page and at a pinned one, and where the motion it waited for has ended; MABRT at a malformed page
    (∀ i ∈ [Instr.migrs {} 1 1 0x50000 0], Begins ss i 1 0x50000 1 0x60000 ∧ (ss.issued i).walk 5 0x60000 = .error .tableMalformed ∧
      (ss.issued i).perc.aborts = [] ∧ (ss.issued i).asked ((ss.issued i).requester ss.ref 0 true) (holdsUnit 0x60000) = false) ∧
    (∀ i ∈ [Instr.migrs {} 1 1 0x20000 0], Begins ss i 1 0x20000 1 0x30000 ∧ ∀ w ∈ [okOf ((ss.issued i).walk 5 0x30000)], (ss.issued i).walk 5 0x30000 = .ok w ∧
      firstUnit 0x30000 0 w.size = true ∧ (ss.issued i).restsIn 5 0x30000 w .lpddr = false ∧ bitAt w.leaf 58 = true ∧ (ss.issued i).motionOf 5 0x30000 = none ∧
      (ss.issued i).asked ((ss.issued i).requester ss.ref 0 true) (holdsUnit 0x30000) = false) ∧
    (∀ i ∈ [Instr.migrs {} 1 1 0 0], ∀ s ∈ [running ss i 0], ∀ q ∈ [s.requester s.ref 0 true],
      ∀ t ∈ [{ s with perc := { s.perc with aborts := [{ who := q, va := 0x10000, reason := 2 }] } }], GoesOn t i 1 0 0 0x10000 0 ∧
      (t.perc.aborts.find? fun m => m.who.same (t.requester t.ref 0 true) && holdsUnit 0x10000 m.va).map (·.reason) = some 2) ∧
    (∀ i ∈ [Instr.mabrt {} 1 0x50000 0], Begins ss i 1 0x50000 1 0x60000 ∧ (ss.issued i).walk 5 0x60000 = .error .tableMalformed ∧
      (ss.issued i).motionOf 5 0x60000 = none) := by
  simp only [Begins, GoesOn, Issuing]
  decide +kernel

theorem wit_IssuedBlock : (∀ i ∈ [Instr.vadd (elemBlk 1 0 1 2 3 true)], Fit sv i ∧ rqRings i = []) ∧
    -- a block that reads a slot of a ring
    (∀ i ∈ [Instr.vadd { elemBlk 1 0 1 2 3 true with a := rq0 3 }], ∀ s ∈ [ringed sv ring0], Fit s i ∧
      ∀ p ∈ [((s.ctx s.ref).takeWaits (Ctl.waits (ctlOf i))).takeSlots (rqRings i)], p.2.length = 1 ∧ (p.1.releaseSlots p.2).2 = none ∧
        (p.2.filterMap fun x => (p.1.ring x.ring).map (·.esem)) = [21]) := by
  simp only [Fit, Issuing]
  decide +kernel

/-- A block with a signal and a write is done. -/
def doneNop : InFlight := { addr := 0x400, words := [], instr := .nop { ssem := 1, scnt := 2, s2sem := 2, s2cnt := 63 }, writes := [.tp 0 32 9], ctr := 1 }
def withDone (s : State) (f : InFlight) : State := s.updChain s.ref fun h => { h with inflight := [f] }

theorem wit_CompletedBlock : ∀ s ∈ [withDone sl doneNop], (s.chain s.ref).inflight[0]? = some doneNop ∧ doneNop.homes = [] ∧ (s.slotAt 0 0).task ≠ none ∧
    (s.ctx s.ref).step = false ∧ (∀ f ∈ [doneNop, { doneNop with instr := .fence {} 2 }], ∀ t ∈ [withDone sl f],
      ∀ c ∈ [({ ((t.ctx t.ref).mixed ((t.ctx t.ref).applyAll f.writes) t f.beaten).setChain t.ref.eng { t.chain t.ref with
            inflight := ((t.chain t.ref).inflight.eraseIdx 0).map (f.overwritten (t.ctx t.ref)), queue := keptQueue f (t.chain t.ref).queue,
            lastBlk := f.addr, lastCtr := ctrOf f.instr (f.ctr - 1), stepBusy := (t.chain t.ref).stepBusy && !f.stepped,
            since := if ordersCompletion f.instr then t.steps else (t.chain t.ref).since,
            fence := match f.instr with | .fence _ sc => some (max sc ((t.chain t.ref).fence.getD 0)) | _ => (t.chain t.ref).fence } with wdc := 0 } : Ctx)],
        (t.chain t.ref).inflight[0]? = some f ∧ (c.addSignals (Ctl.signals (ctlOf f.instr))).2 = none) ∧
    Ctl.signals (ctlOf doneNop.instr) = [(1, 2), (2, 63)] := by
  decide +kernel

/-! ### X-forms -/

/-- Supervisor 0 in supervisor mode with two operands in x6 and x7. -/
def sup (s : State) (a b : Nat) : State := { s with harts := [(0, { mode := 1, regs := [(6, a), (7, b)] })] }
def p5 : Nat := 5 * 2 ^ 32

theorem wit_Retirement : ∀ s ∈ [sup sl 1 2], s.harts = [(0, { mode := 1, regs := [(6, 1), (7, 2)] })] ∧
    ((s.retireX 31 (2 ^ 64 - 1)).hartAt 0).reg 31 = 2 ^ 64 - 1 ∧ ((s.retireX 0 9).hartAt 0).reg 0 = 0 := by
  decide +kernel

theorem wit_UserMode :
    (∀ p ∈ Sys2Proof.Machine.xTable, encodeX (p.2.2.1 31 6 7) = some (0x0B + 2 ^ 7 * 31 * ofBool (p.1 != 9) + 2 ^ 12 * p.1 + 2 ^ 15 * 6 * ofBool p.2.2.2.1 +
      2 ^ 20 * 7 * ofBool p.2.2.2.2 + 2 ^ 25 * p.2.1)) ∧
    (∀ m ∈ [0, 1, 3], ∀ d ∈ [0, 4], ∀ s ∈ [({ sl with harts := [(0, { mode := m, medeleg := d, mtvec := 0x101, stvec := 0x201, regs := [(6, 6)] })] } : State)],
      (s.hartAt s.hart).mode = m ∧ (s.hartAt s.hart).mode < 4 ∧ 5 < s.xreg 6) := by
  decide +kernel

theorem wit_References : ∀ s ∈ [sl], (∀ x ∈ [p5, 6 * 2 ^ 32, 2 ^ 52], (s.taskRef x 0 = if x = p5 then .ok 5 else if x = 2 ^ 52 then .error 0x10 else .error 0x06)) ∧
    selector (p5 + 2 ^ 19 - 1) 8 = .ok { sem := 255, slot := 3, tile := 511, pasid := 5 } ∧ selector (p5 + 4) 2 = .error 0x10 ∧
    s.pointRef (p5 + 2047) 65535 = .ok (2047, 5) ∧ s.pointRef (p5 + 2048) 0 = .error 0x10 ∧ s.jobRef (p5 + 1) = .error 0x10 ∧ s.entryRef (2 ^ 32) false = .error 0x10 := by
  decide +kernel

/-- A second task, out of its slot, in a state. -/
def second (s : State) (st : TState) : State := s.setTask 2 { pasid := 5, va := 0x20000, words := words, state := st }

/-- The same with one page of 1 GiB in LPDDR for all its addresses, its frame among them. -/
def bare (s : State) : State := { s with hbm := [(0, 2 ^ 63 + 0x1000), (0x1000, leaf 1 0 + 2 ^ 58)].foldl (fun m (a, v) => Memory.putNat m a 8 v) [] }

/-- A FENCE of its slot waits for a write. -/
def fenced (s : State) : State :=
  { running s (.fence {} 0) 0 .waiting with forks := [{ task := 1, pasid := 5, ref := s.ref, block := 0, kind := .mem [] [] }] }

theorem wit_TaskXForms : (sup sl 0x10000 p5).taskRef p5 0 = .ok 5 ∧
    (∀ p ∈ [(sup sl 0x10000 p5, true, false), (fenced (sup sl 0x10000 p5), true, true), ((sup sl 0x10000 p5).updTask 1 fun t => { t with resumed := 1 }, false, false)],
      ∀ s ∈ [p.1], (s.hartAt s.hart).mode = 1 ∧ s.liveTask 5 (s.xreg 6) = some 1 ∧ s.slotOf 1 = some (0, 0) ∧ s.movable 1 0 0 = true ∧
      s.wouldHold 0 = false ∧ (s.slotAt 0 0).inPlace = false ∧ (s.slotAt 0 0).parking = false ∧ decide ((s.task 1).resumed ≠ s.cycle + 1) = p.2.1 ∧
      s.saveWaits 0 0 = p.2.2) ∧
    (∀ s ∈ [(sup sl 0x10000 p5).updTask 1 fun t => { t with words := words.set 12 0x50000 }], s.liveTask 5 (s.xreg 6) = some 1 ∧ s.movable 1 0 0 = true ∧
      s.saveWaits 0 0 = false ∧ ((s.saveTask 0 0 .saved).pasid 5).haltBy = 0x101) ∧
    (∀ st ∈ [TState.ready, .saved, .parked, .halted], ∀ s ∈ [second (sup sl 0x20000 p5) st], s.liveTask 5 (s.xreg 6) = some 2 ∧ s.slotOf 2 = none ∧ (s.task 2).state = st ∧
      s.findTask (s.xreg 6) (s.xreg 7) 1 = .ok 2) ∧
    (sup sl 0x30000 p5).liveTask 5 ((sup sl 0x30000 p5).xreg 6) = none ∧ (sup sl 0x10000 (p5 + 1)).findTask 0x10000 (p5 + 1) 1 = .ok 1 ∧
    (∀ p ∈ [(511, 3), (0, 1), (0, 0)], ∀ x ∈ [p5 + p.1 + 512 * p.2], ∀ s ∈ [second (sup sl 0x20000 x) .ready], s.findTask (s.xreg 6) (s.xreg 7) 11 = .ok 2 ∧
      p.1 = bits (s.xreg 7) 0 9 ∧ p.2 = bits (s.xreg 7) 9 2 ∧ (s.task 2).state.waits = true ∧ (s.pasid (s.task 2).pasid).runs = true ∧
      decide ((s.slotAt p.1 p.2).task = none) = decide (p ≠ (0, 0)) ∧ (s.task 2).allows (clusterOf p.1) = true ∧ p.1 ∉ s.mgmt.tilesOut) ∧
    (∀ s ∈ [(sup sl 0x20000 (p5 + 511)).setTask 2 { pasid := 5, va := 0x20000, words := words.set 8 (2 ^ 32), state := .saved }],
      (s.slotAt 511 0).task = none ∧ (s.task 2).allows (clusterOf 511) = false ∧ s.findTask (s.xreg 6) (s.xreg 7) 11 = .ok 2) := by
  decide +kernel

/-- Launch 7 and graph 9, of PASID 5. -/
def launched (s : State) (done : Bool) : State :=
  { s with launches := [(7, { gen := 2, live := true, pasid := 5, count := 3, done := done }), (9, { gen := 65535, live := true, isGraph := true, pasid := 5, count := 3, done := done })] }

/-- Some index is free in a table with few entries. -/
theorem pickLaunch_free {s : State} {k i : Nat} (h0 : 1 ≤ i) (h1 : i ≤ launchSlots) (hu : (s.launch i).usable = true) : (s.pickLaunch k).isSome = true := by
  have hl : (0 : Nat) < launchSlots := by decide
  unfold State.pickLaunch
  dsimp only
  rw [List.find?_isSome]
  refine ⟨i, List.mem_map.mpr ⟨(launchSlots + (i - 1) - s.free (2 ^ 39 + k) % launchSlots) % launchSlots, ?_, ?_⟩, hu⟩
  · unfold upto; rw [List.mem_range]; exact Nat.mod_lt _ hl
  · have := Nat.mod_lt (s.free (2 ^ 39 + k)) hl
    rw [Nat.add_mod_mod]
    have e : s.free (2 ^ 39 + k) % launchSlots + (launchSlots + (i - 1) - s.free (2 ^ 39 + k) % launchSlots) = launchSlots + (i - 1) := by omega
    rw [e, Nat.add_mod_left, Nat.mod_eq_of_lt (by omega)]
    omega

theorem newLaunch_free {s : State} {k i : Nat} {l : Launch} (h0 : 1 ≤ i) (h1 : i ≤ launchSlots) (hu : (s.launch i).usable = true) :
    ∃ t id, s.newLaunch k l = some (t, id) := by
  obtain ⟨j, hj⟩ := Option.isSome_iff_exists.mp (pickLaunch_free (k := k) h0 h1 hu)
  unfold State.newLaunch
  rw [hj]
  exact ⟨_, _, rfl⟩

/-- A launch descriptor at 0x40 of the supervisors' memory: one task of PASID 5, an object, a graph or none. -/
def described (s : State) (g : Nat) : State :=
  { launched s false with supmem := [(0x40, 0x10800), (0x48, p5 + 1), (0x50, g), (0x58, 99)].foldl (fun m (a, v) => Memory.putNat m a 8 v) [] }

-- Its saving on the bare machine writes the whole frame.
theorem wit_TaskXForms_saves : ∀ s ∈ [bare (sup sl 0x10000 p5)], s.liveTask 5 (s.xreg 6) = some 1 ∧ s.slotOf 1 = some (0, 0) ∧ s.movable 1 0 0 = true ∧
    s.saveWaits 0 0 = false ∧ ((s.saveTask 0 0 .saved).task 1).state = .saved := by
  decide +kernel

/-- The executing hart's translation gives no page below 64 KiB. -/
def barred (s : State) : State := { s with harts := s.harts.map fun (k, h) => (k, { h with barred := upto 16 }) }

theorem wit_LaunchXForms :
    (∀ g ∈ [0, 65535 * 65536 + 9], ∀ s ∈ [described (sup sl 0x40 0) g], ((upto 4).map fun k => Memory.nat s.supmem (s.xreg 6 + 8 * k) 8) = [0x10800, p5 + 1, g, 99] ∧
      s.xreg 6 % 32 = 0 ∧ bits (p5 + 1) 32 20 = 5 ∧ (s.pasid 5).valid = true ∧ (s.hartAt s.hart).reaches (s.xreg 6) = true ∧ ((barred s).hartAt s.hart).reaches (s.xreg 6) = false ∧ (s.launch 65535).usable = true ∧ s.entryOf g true = if g = 0 then none else some 9) ∧
    (∀ d ∈ [false, true], ∀ s ∈ [launched sl d], s.entryRef (2 * 65536 + 7) false = .ok 7 ∧ (s.launch 7).done = d ∧ s.entryRef (65535 * 65536 + 9) true = .ok 9 ∧
      (s.launch 9).done = d) ∧
    (sup sl p5 0).jobRef p5 = .ok 5 ∧ 2 ^ 32 ≤ (sup sl (2 ^ 32) 0).xreg 6 := by
  decide +kernel

/-- A task of PASID 5 saved from slot 1 of tile 0, and ring 0 in slot 0. -/
def twoTasks (s : State) : State := ((ringed s ring0).setTask 2 { pasid := 5, va := 0x20000, words := words, state := .saved, place := some 1, saved := some { sems := [(1, 65535)] } })

theorem wit_SyncXForms :
    (∀ s ∈ [sup (twoTasks sl) (p5 + 1) 65532], s.semRef (s.xreg 6) 0 = .ok { sem := 1, slot := 0, tile := 0, pasid := 5 } ∧
      (s.semRead { sem := 1, slot := 0, tile := 0, pasid := 5 }).toOption.map (·.1) = some 3 ∧ s.semRef (s.xreg 6) (s.xreg 7) = .ok { sem := 1, slot := 0, tile := 0, pasid := 5 } ∧
      s.testsDone 0 0 [1] = false ∧ (s.updSlot 0 0 fun x => x.tests s.cycle [1]).testsDone 0 0 [1] = true ∧
      (s.ctx (engRef 0 0 .lde)).ringSem 1 = false ∧ (s.ctx (engRef 0 0 .lde)).ringSem 20 = true ∧
      (s.signalSlot 5 0 0 1 65532).any (·.isOk) = true ∧ (match s.signalSlot 5 0 0 1 65533 with | some (.error .semOverflow) => true | _ => false) = true) ∧
    (∀ s ∈ [sup sl (p5 + 1024) 1], s.semRef (s.xreg 6) (s.xreg 7) = .ok { sem := 0, slot := 0, tile := 1, pasid := 5 } ∧
      (match s.semRead { sem := 0, slot := 0, tile := 1, pasid := 5 } with | .error e => e == 0x0E | _ => false) = true ∧ s.testsDone 1 0 [0] = false) ∧
    (∀ q ∈ [({} : Point), { owner := some 5, exp := 2, arr := 1, phase := 65535 }, { owner := some 5, exp := 3, arr := 1, phase := 7 }], ∀ v ∈ [0, 65534, 65535],
      ∀ s ∈ [pointed (sup sl (p5 + 3) v) q], s.pointRef (s.xreg 6) (s.xreg 7) = .ok (3, 5) ∧ s.pointRef (s.xreg 6) 0 = .ok (3, 5) ∧ s.point 3 = q) ∧
    phasePassed 65535 65534 = true ∧ phasePassed 65535 65535 = false := by
  decide +kernel

/-- One record in die 0's buffer, for cluster 0, and a stop record of its LDE. -/
def faulted (s : State) : State := (s.takeFault (engRef 0 0 .lde) 0x400 { cause := .permission } .halt)

theorem wit_FaultXForms :
    (∀ s ∈ [sup (faulted sl) 0x40 0x80], s.xreg 6 % 64 = 0 ∧ Map.get [] s.faultQueues s.hart = [(0, 0)] ∧ (∀ x ∈ [s.xreg 6, s.xreg 7], (s.hartAt s.hart).reaches x = true ∧ ((barred s).hartAt s.hart).reaches x = false) ∧ (s.slotAt 0 0).lde.stop.isSome = true ∧
      ((s.slotAt 0 0).lde.stop.map (·.pasid)) = some 5 ∧ selector p5 2 = .ok { sem := 0, slot := 0, tile := 0, pasid := 5 } ∧ s.xreg 7 % 64 = 0) ∧
    (∀ s ∈ [sup sl 0x41 p5], s.xreg 6 % 64 ≠ 0 ∧ Map.get [] s.faultQueues s.hart = [] ∧ (s.slotAt 0 0).lde.stop = none) ∧
    (∀ a ∈ [0, 19, 35, 51], bits a 2 2 = 0 ∧ a < 64) ∧
    (∀ b ∈ [p5, p5 + 1], ∀ s ∈ [sup sl 0x10000 b], s.taskRef (s.xreg 7) 1 = .ok 5 ∧ (bitAt (s.xreg 7) 0 = true ∨ s.xreg 6 % 65536 = 0)) ∧
    (∀ a ∈ [65535, 65536, 131071], ∀ s ∈ [sup sl a p5], s.taskRef (s.xreg 7) 0 = .ok 5 ∧ s.xreg 6 < 2 ^ 17) := by
  decide +kernel

theorem wit_ControlXForms :
    (∀ b ∈ [p5, p5 + 1], (sup sl 0x10000 b).findTask 0x10000 b 1 = .ok 1) ∧ selector p5 0 = .ok { sem := 0, slot := 0, tile := 0, pasid := 5 } ∧
    selector 0 0 = .ok { sem := 0, slot := 0, tile := 0, pasid := 0 } ∧ ((sup sl 4095 0x20).hartAt 0).reaches 0x20 = true ∧ ((barred (sup sl 4095 0x20)).hartAt 0).reaches 0x20 = false ∧
    (sup sl 0x10000 (p5 + 2 ^ 32 - 1)).findTask 0x10000 (p5 + 2 ^ 32 - 1) 32 = .ok 1 ∧ (sup sl 4095 0x20).xreg 6 < 4096 ∧
    ((sl.log { time := 1, kind := 1 }).thyme[0]?).isSome = true ∧ sl.thyme[0]? = none := by
  decide +kernel

theorem wit_PercolatorParameters :
    (∀ k ∈ [0, 1, 2, 3, 4, 5, 6], ∀ s ∈ [({ sl with harts := [(0, { mode := 3, regs := [(6, k)] })] } : State)], (s.hartAt s.hart).mode = 3 ∧ s.xreg 6 = k) ∧
    (sup sl 0 0).hartAt 0 ≠ { mode := 3 } ∧ (∀ s ∈ [{ sl with cycle := 15259 * 65536 }], s.cycle = s.perc.decayEnd ∧
      (match exec .hotnessDecay s with | .next t => t.perc.decayEnd == 2 * 15259 * 65536 | _ => false) = true) ∧
    -- LOWMARK 3 is written, and in force only after the next eligible access
    (∀ s ∈ [({ sl with harts := [(0, { mode := 3, regs := [(6, 4), (7, 3)] })] } : State)],
      (match exec (.pclcfg 5 6 7) s with
        | .next t => t.perc.policy == s.perc.policy && (t.sampleAccess (.tier .hbm) 0 16).perc.policy == { lowmark := 3 }
        | _ => false) = true) := by
  decide +kernel

/-! ### Events of chains and their work -/

/-- The acting chain stands at an address with a queue. -/
def standing (s : State) (a : Nat) (q : List Queued) : State := s.updChain s.ref fun h => { h with cursor := a, queue := q }
def bad0 : List Nat := [0xA00, 0, 0, 0]

theorem wit_FetchEvents :
    (∀ p ∈ [(0x10800, 0), (0x10880, 1)], ∀ s ∈ [standing { sl with hbm := Memory.putNat sl.hbm 0x10880 8 0x1000 } p.1 []], s.ref.ok = true ∧
      (s.slotAt 0 0).live = true ∧ (s.chain s.ref).fetchAt .lde = some p.1 ∧
      ∀ q ∈ [okOf (s.translate 0 5 p.1 .fetch)], q.place ≠ .launchPage ∧ szOf (s.readBits q.place (q.addr * 8) 64) = p.2 ∧
        ∀ k < 4, s.translate 0 5 (p.1 + 32 * k) .fetch = .ok { q with addr := q.addr + 32 * k } ∧ s.poisoned q.place (q.addr + 32 * k) = false) ∧
    (∀ s ∈ [standing sl 0x50000 []], (s.chain s.ref).fetchAt .lde = some 0x50000 ∧ (s.translate 0 5 0x50000 .fetch).isOk = false) ∧
    (∀ q ∈ [({ addr := 0x400, words := bad0 } : Queued), { addr := 0x400, words := [0, 0, 0, 0] }, { addr := 0x400, words := [], fault := some { cause := .poison, va := 0x400 } }],
      ∀ s ∈ [standing sl 0x400 [q]], (s.chain s.ref).queue = [q] ∧ q.addr = (s.chain s.ref).cursor ∧ s.runnable s.ref = true ∧ (s.chain s.ref).refusal = none ∧
        (s.chain s.ref).inflight = [] ∧ Cause.illegalClass.disp ≠ .park ∧
        ∀ t ∈ [s.updChain s.ref fun h => { h with inflight := [{ addr := 0x300, words := [], instr := .nop {}, phase := .done }] }], t.runnable t.ref = true ∧ (t.chain t.ref).inflight ≠ []) ∧
    decode .lde 0x400 bad0 = .error .illegalClass ∧ decode .lde 0x400 [0, 0, 0, 0] = .ok (.nop {}) ∧
    (∀ s ∈ [sl.updSlot 0 0 fun x => { x with lde := { wait := 65536 } }], ((s.slotAt 0 0).lane .lde).wait = 65536 ∧ ((s.slotAt 0 0).lane .lde).aged = none) ∧
    ((sl.slotAt 0 0).lane .lde).wait < 65536 := by
  decide +kernel

/-- A write of one element to a sector. -/
def acc1 (p : Place) (u : Nat) : Access := { place := p, unit := u, va := 0x10800, ops := [{ bit := u * 256, w := 32, kind := .write 9 }] }
def fork1 (l : List Access) : Fork := { task := 1, pasid := 5, ref := engRef 0 0 .lde, block := 0x400, kind := .mem l [] }
def hbmAt (a : Nat) : Access := acc1 (.tier .hbm) (a / 32)

theorem wit_CompletionEvents :
    (∀ p ∈ [(Phase.done, Instr.nop {}, false), (.waiting, .fence {} 0, false), (.waiting, .fence {} 0, true), (.waiting, .migrs {} 0 1 0 0, false), (.run, .nop {}, false)],
      ∀ s ∈ [{ running sl p.2.1 0 p.1 with forks := if p.2.2 then [fork1 [hbmAt 0x10800]] else [] }], s.ref.ok = true ∧
        ((s.chain s.ref).inflight[0]?).map (·.phase) = some p.1 ∧ (s.chain s.ref).stop ≠ .halted ∧ s.memForks s.ref = p.2.2 ∧ s.env = {} ∧
        s.signalsLate s.ref p.2.1 = false ∧ ∀ f ∈ (s.chain s.ref).inflight, s.completionWaits s.ref 0 f = false) ∧
    -- a SUBC whose subscription has ended or not, an FLTI whose record is held or not
    (∀ x ∈ [none, some (stream (ldB th4 {} (rq0 3)))], ∀ b ∈ [({ d := rq0 0 } : LBlk)], ∀ s ∈ [running (ringed sl { ring0 with sub := x }) (.subc b) 0 .waiting],
      s.signalsLate s.ref (.subc b) = false ∧ ((s.ctx s.ref).ring b.d.base).map (·.sub) = some x) ∧
    (∀ l ∈ [[], [(0, ({ disp := .note, task := 0x10000, pasid := 5 } : FaultRec))]], ∀ s ∈ [(running sl (.flti {} 0x283 7) 0 .waiting).setDie 0 { held := l }],
      s.holdsNote s.ref = !l.isEmpty ∧ s.signalsLate s.ref (.flti {} 0x283 7) = false) ∧
    -- a block behind the write of an earlier fork; one whose signal comes after the cycle's tests
    (∀ s ∈ [{ (withDone sl { doneNop with homes := [hbmAt 0x10800], serial := 1 }) with forks := [fork1 [hbmAt 0x10800]] }], ∀ f ∈ (s.chain s.ref).inflight, s.completionWaits s.ref 0 f = true) ∧
    ((withDone sl doneNop).updSlot 0 0 fun x => x.tests 0 [2]).signalsLate sl.ref doneNop.instr = true ∧
    (∀ p ∈ [false, true], ∀ s ∈ [{ running ss (.pubc {}) 0 .waiting with forks := if p then [{ fork1 [hbmAt 0x10800] with ref := ss.ref, pull := some 0 }] else [] }],
      s.pullOver s.ref 0 = !p ∧ s.signalsLate s.ref (.pubc {}) = false) ∧
    (∀ p ∈ [(hbmAt 0x10800, true, 0), (acc1 .clusterPool 4, true, 0), (acc1 .clusterPool (granuleBytes / 8), false, 0), (acc1 .launchPage 4, false, 0), (hbmAt 0x10800, true, 1)],
      ∀ s ∈ [{ sl with forks := if p.2.2 = 1 then [fork1 [p.1], fork1 [p.1]] else [fork1 [p.1]] }], (s.forks[p.2.2]?) = some (fork1 [p.1]) ∧ s.env = {} ∧
        s.behind p.2.2 p.1 = decide (p.2.2 = 1) ∧
        decide ((p.1.place ≠ .clusterPool ∧ p.1.place ≠ .diePool) ∨ s.granuleOwner p.1.place (p.1.unit * 8) = 5) = (p.2.1 || p.1.place == .launchPage) ∧
        (p.1.place = .launchPage ∨ (s.performAccess p.1).2.2 = none)) := by
  decide +kernel

theorem wit_ChainEvents :
    (∀ v ∈ [({ status := 6, block := 0x400, recVa := 0x20000 } : SpawnRefusal)], ∀ s ∈ [(standing sl 0x400 [{ addr := 0x400, words := [0, 0, 0, 0] }]).updChain sl.ref fun h => { h with refusal := some v }],
      s.ref.ok = true ∧ (s.chain s.ref).refusal = some v ∧ s.runnable s.ref = true ∧ (s.chain s.ref).head.isSome = true) ∧
    (∀ g ∈ [({ bank := 1, off := 2, block := 0x400, ctr := 0, rest := 3 } : Guard)],
      ∀ s ∈ [(standing sl 0x420 [{ addr := 0x420, words := [1, 0, 0, 0] }]).updChain sl.ref fun h => { h with guard := some g }],
      (s.chain s.ref).guard = some g ∧ decode .lde 0x420 [1, 0, 0, 0] = .ok (.endChain {}) ∧ (s.chain s.ref).guardDue (.endChain {}) = true ∧ s.runnable s.ref = true) ∧
    (∀ b ∈ [({ fmt := 1, a := rq0 3, b := vd 2, d := vd 3 } : LBlk)], ∀ g ∈ [{ ring0 with tokens := 1 }], ∀ s ∈ [withCtx (ringed sv g) fun c => c.setSem 20 0],
      (s.ctx s.ref).skips (.vadd b) = true ∧ s.reachesIssue s.ref (.vadd b) = true ∧
      (∀ t ∈ [running s (.vadd b) 0 .ring], ((t.chain t.ref).inflight[0]?).map (·.phase) = some .ring ∧ rqRings (.vadd b) = [0] ∧ (t.ctx t.ref).ring 0 = some g ∧
        g.prod ≤ g.tokens ∧ (t.ctx t.ref).sem g.fsem = 0 ∧ t.signalsLate t.ref (.vadd b) = false ∧
        ∀ f ∈ (t.chain t.ref).inflight, t.completionWaits t.ref 0 f = false)) ∧
    (∀ b ∈ [({ fmt := 1, a := rq0 3, b := vd 2, d := vd 3 } : LBlk)], ∀ s ∈ [running (ringed sv ring0) (.vadd b) 0 .ring], s.runnable s.ref = true ∧
      (∀ n ∈ rqRings (.vadd b), ∀ x ∈ ((s.ctx s.ref).ring n).toList, 1 ≤ (s.ctx s.ref).sem x.fsem) ∧ ((s.ctx s.ref).ring 0).isSome = true ∧
      (s.ctx s.ref).fullCounts [0] = [(20, 1)] ∧ (s.ctx s.ref).satisfies (s.takenBefore s.ref) [(20, 1)] [(20, 1)] = true ∧
      -- the LDE's head block takes the one count first
      ∀ t ∈ [s.updSlot 0 0 fun x => { x with ctx := x.ctx.setChain .lde { present := true, queue := [{ addr := 0, words := encode (.nop { wsem := 20, wcnt := 1 }) }] } }],
        (t.ctx t.ref).satisfies (t.takenBefore t.ref) [(20, 1)] [(20, 1)] = false) := by
  decide +kernel

/-- The small machine with a task record at 0x10900. -/
def posted (s : State) : State := { s with hbm := ((upto 16).zip words).foldl (fun m (k, v) => Memory.putNat m (0x10900 + 8 * k) 8 v) s.hbm }

theorem wit_SpawnEvents :
    (∀ f ∈ [({ fork1 [] with kind := .spawn 0x50000 false } : Fork)], ∀ s ∈ [{ sl with forks := [f] }],
      ∀ st ∈ [(({ s with forks := [] } : State).post (some 0) 5 0x50000 false false).2], st ≠ 0 ∧
        ∀ c ∈ ((({ s with forks := [] } : State).post (some 0) 5 0x50000 false false).1.ctxOf 1).toList, (c.chain .lde).refusal = none) ∧
    ((posted sl).post (some 0) 5 0x10900 false false).2 = 0 ∧ ((posted sl).post (some 0) 5 0x10900 false false).1.liveTask 5 0x10900 = some 2 := by
  decide +kernel

theorem wit_CarafeEvents :
    (∀ x ∈ [stream (ldB th4 {} (rq0 3))], ∀ s ∈ [ringed sl { ring0 with sub := some x }], s.streamRuns s.ref .read th4 20 x = true ∧ s.env = {} ∧ unitsOk 0 0 = true ∧ x.state = .opened ∧
      (s.tile 0).whole = true ∧ s.ref = engRef 0 0 .lde ∧
      ∀ o ∈ ((s.ctx s.ref).takeEmpty 0 { ring0 with sub := some x } x).toList, o.2.2 = 0 ∧ (s.ctx s.ref).region 2 ≠ none ∧
        (streamTile (s.streamTook s.ref x 21 o.1) s.ref o.2.1 th4).isOk = true) ∧
    (∀ x ∈ [{ stream (ldB th4 {} (rq0 3)) with handle := { okOf (readHandle sl sl.ref (ldB th4 {} (rq0 3)) th4) with base := 0x50000 } }],
      ∀ s ∈ [ringed sl { ring0 with sub := some x }], ∀ o ∈ ((s.ctx s.ref).takeEmpty 0 { ring0 with sub := some x } x).toList,
        s.streamRuns s.ref .read th4 20 x = true ∧ (streamTile (s.streamTook s.ref x 21 o.1) s.ref o.2.1 th4).isOk = false) ∧
    (∀ x ∈ [stream (ldB th4 {} (rq0 3))], ∀ s ∈ [withCtx (ringed sl { ring0 with sub := some x }) fun c => c.setSem 21 0], x.took = none ∧ (s.ctx s.ref).sem 21 = 0) ∧
    (∀ x ∈ [stream (ldB (rq0 3) {} th4)], ∀ g ∈ [{ ring0 with pull := some x }], ∀ s ∈ [ringed ss g], (s.ctx s.ref).ringEnded g = false ∧ s.streamRuns s.ref .write th4 21 x = true ∧ s.ref = engRef 0 0 .ste ∧
      ∀ o ∈ ((s.ctx s.ref).takeFull 0 g x).toList, o.2.2 = 0 ∧ (∀ t ∈ [s.streamTook s.ref x 20 o.1], ∀ l ∈ [okOf (drainWrites t s.ref o.2.1 [0, 0, 0, 0])],
        drainWrites t s.ref o.2.1 [0, 0, 0, 0] = .ok l ∧ (((t.addFork s.ref x.block s.steps l (some 0)).ctx s.ref).addSem 21 1).isSome = true)) ∧
    (∀ x ∈ [{ stream (ldB (rq0 3) {} th4) with handle := { okOf (readHandle sl sl.ref (ldB th4 {} (rq0 3)) th4) with base := 0x50000 } }],
      ∀ g ∈ [{ ring0 with pull := some x }], ∀ s ∈ [ringed ss g], s.streamRuns s.ref .write th4 21 x = true ∧ ∀ o ∈ ((s.ctx s.ref).takeFull 0 g x).toList,
        (drainWrites (s.streamTook s.ref x 20 o.1) s.ref o.2.1 [0, 0, 0, 0]).isOk = false) ∧
    (∀ x ∈ [stream (ldB (rq0 3) {} th4)], ∀ g ∈ [{ ring0 with pull := some x, tokens := 1 }], ∀ s ∈ [withCtx (ringed ss g) fun c => c.setSem 20 0],
      (s.ctx s.ref).ringEnded g = true ∧ s.streamRuns s.ref .write th4 21 x = true ∧ x.took = none) ∧
    (sl.walk 5 0x10000).isOk = true ∧ (sl.walk 5 0x50000).isOk = false ∧
    (∀ s ∈ [{ sl with forks := [{ fork1 [] with kind := .mem [] [hbmAt 0x10800] }] }], (s.tile 0).accesses < 2048 ∧ s.waitingFork 0 = some 0) := by
  decide +kernel

/-! ### The Percolator -/

/-- The small machine's page 2 has been sampled; some frames. -/
def hotKey : Nat := okOf ((sl.walk 5 0x20000).map fun w => sl.hotKeyOf w)
def sampled (s : State) (n : Nat) : State := s.updPerc fun p => { p with hot := [(hotKey, n)], due := [hotKey] }
def pages (n : Nat) (s : State) : State :=
  s.updPerc fun p => { p with hbm := { next := 0x100000, left := n }, lpddr := { next := 0x900000, left := n }, policy := { lowmark := 2 } }

/-- The page at va has been sampled n times before. -/
def heated (s : State) (va n : Nat) : State := s.updPerc fun p => { p with hot := [(okOf ((sl.walk 5 va).map fun w => sl.hotKeyOf w), n)] }

theorem sampled_rising (n : Nat) : (sampled sl n).perc.hot.rising := ⟨Nat.zero_le _, trivial⟩
theorem demo_rising : sl.slots.rising ∧ sl.dies.rising ∧ (sl.die 0).recs.rising :=
  ⟨⟨Nat.zero_le _, trivial⟩, ⟨Nat.zero_le _, Nat.le_refl _, Nat.le_refl _, Nat.le_refl _, trivial⟩, trivial⟩

theorem fifo_rising (k : Nat) (l : List (List Nat)) : (Map.set [] ([] : Map (List (List Nat))) k l).rising :=
  Map.rising_set [] (show Map.rising ([] : Map (List (List Nat))) from trivial) k l

/-- The PASDEL of PASID 5 has started. -/
def torn (s : State) : State := s.setQueue 0 { s.queue 0 with started := [{ index := 0, dws := [8 + 2 * 2 ^ 24, 5], wait := false }] }

theorem wit_HotnessEvents :
    (∀ n ∈ [0, 254, 255], (sampled sl n).perc.due.count hotKey = 1) ∧
    (∀ s ∈ [({ sl with cycle := 15259 * 65536 } : State)], s.cycle = s.perc.decayEnd ∧ s.perc.due = []) ∧ (∀ n ∈ [(sl.perc.decayEnd + 2 ^ 64 - sl.cycle) % 2 ^ 64], 0 < n ∧ n < 2 ^ 63) ∧ (torn sl).tearing 5 = true ∧
    (∀ p ∈ [(0x20000, 191, false), (0x20000, 192, true), (0x10000, 8, true), (0x10000, 9, false)], ∀ s ∈ [pages 4 (heated sl p.1 p.2.1)], ∀ y ∈ [s.perc.policy],
      ∀ w ∈ [okOf (s.walk 5 p.1)], s.walk 5 p.1 = .ok w ∧ y.auto = 1 ∧
      s.tearing 5 = false ∧ w.size = 16 ∧ w.isPeer = false ∧ bitAt w.leaf 58 = false ∧ bitAt w.leaf 57 = false ∧ s.motionOf 5 (p.1 / 2 ^ 16 * 2 ^ 16) = none ∧ s.perc.queue = [] ∧
      (p.1 = 0x20000 → w.tierOf = .lpddr ∧ y.promo ≠ 0 ∧ bits w.leaf 54 3 ≤ 1 ∧ decide (y.promo ≤ s.hotOf w) = p.2.2) ∧
      (p.1 = 0x10000 → w.tierOf = .hbm ∧ s.perc.freeHbm < y.lowmark * 2 ^ 30 ∧ decide (s.hotOf w ≤ y.demo) = p.2.2)) := by
  decide +kernel

/-- A queued request for page 1 or page 3, and page 1 in motion. -/
def asking (va : Nat) (t : Tier) : MigReq := { die := 0, pasid := 5, va := va, tier := t, by_ := none }
def queued (s : State) (q : MigReq) : State := s.updPerc fun p => { p with queue := [q] }

theorem wit_MigrationEvents :
    (∀ q ∈ [asking 0x10000 .lpddr, asking 0x10000 .hbm, asking 0x30000 .lpddr], ∀ s ∈ [queued (pages 4 sl) q], ∀ w ∈ [okOf (s.walk q.pasid q.va)],
      s.perc.queue[0]? = some q ∧ (s.die q.die).heldBackground < 64 ∧ s.tearing q.pasid = false ∧ s.walk q.pasid q.va = .ok w ∧ w.size = 16 ∧ w.tierOf = .hbm ∧ w.isPeer = false ∧
      s.motionOf q.pasid q.va = none ∧ bitAt w.leaf 58 = decide (q.va = 0x30000) ∧ s.homeFull w.tierOf w.frame = false ∧ ((s.perc.pool q.tier).take).isSome = true) ∧
    (∀ x ∈ [0, 2 ^ 31 - 1], ∀ m ∈ [{ motion1 with map := x }], ∀ s ∈ [moving sl m], s.perc.motions[0]? = some m ∧ m.state = .moving ∧ m.map < 2 ^ 32 - 1 ∧
      (∀ j < 32, bitAt m.map j = decide (x ≠ 0 ∧ j < 31)) ∧ (∀ c ∈ [0, 31], s.chunkPoisoned m c = false)) ∧
    (∀ s ∈ [{ moving sl motion1 with poison := [(poisonKey (.tier .hbm) (0x10000 / 32 + 63), true)] }], s.chunkPoisoned motion1 0 = true ∧ s.abortStrikes motion1 2 = true) ∧
    (∀ m ∈ [{ motion1 with map := 2 ^ 32 - 1 }, { motion1 with state := .committing }, { motion1 with state := .aborted }], ∀ s ∈ [moving sl m],
      s.perc.motions[0]? = some m ∧ leafHolds (s.leafOf m) m.srcTier m.src = true ∧ s.abortStrikes m 1 = true ∧ s.leafPoisoned m = false ∧
      -- its leaf entry is in a poisoned sector
      ({ s with poison := [(poisonKey (.tier .hbm) (0x3008 / 32), true)] } : State).leafPoisoned m = true) ∧
    (∀ m ∈ [{ motion1 with map := 2 ^ 32 - 1, src := 0x50000 }], leafHolds ((moving sl m).leafOf m) m.srcTier m.src = false) := by
  decide +kernel

theorem wit_CopiedChunk : (sl.tierMem motion1.dstTier).wf = true ∧ motion1.srcTier ≠ motion1.dstTier := by
  decide +kernel

/-! ### Schedulers -/

/-- A ready task with parameters, relocation words and a set-up image in page 1. -/
def prepared (s : State) : State :=
  { s with hbm := [(0x10C00, 1), (0x10C08, 3 + 9 * 2 ^ 16), (0x10C48, 0x10000), (0x10C80, 17), (0x10C88, 18)].foldl (fun m (a, v) => Memory.putNat m a 8 v) s.hbm }.setTask 2
    { pasid := 5, va := 0x20000, words := (((words.set 4 (2 * 2 ^ 52)).set 9 0x10C00).set 10 0x10C80).set 11 0x10C40, state := .ready }

theorem wit_TaskEvents :
    (∀ st ∈ [TState.ready, .saved], ∀ s ∈ [second sl st], s.nextDispatch.map (·.1) = some 2 ∧ (s.task 2).state = st) ∧ sl.nextDispatch = none ∧
    -- parameters, relocation words and a set-up image of one semaphore; 256 bytes of tile pool in the frame
    (∀ t ∈ [(prepared sl).task 2], (prepared sl).nextDispatch.map (·.1) = some 2 ∧ t.state = .ready ∧ (prepared sl).readTable t.pasid t.param t.paramLen = .ok [17, 18] ∧
      (prepared sl).readTable t.pasid t.reloc 8 = .ok [0, 0x10000, 0, 0, 0, 0, 0, 0] ∧ ((prepared sl).applyImage t.pasid t.seminit {}).isOk = true) ∧
    (∀ s ∈ [(second sl .saved).updTask 2 fun t => { t with words := words.set 4 1 }], ((s.frameUnits (s.task 2) {}).isOk = true)) ∧
    (∀ x ∈ [{ (sl.slotAt 0 0) with yielding := true }, { (sl.slotAt 0 0) with parking := true }], ∀ s ∈ [(fenced sl).updSlot 0 0 fun y => { x with ctx := y.ctx }],
      s.saveWaits 0 0 = true ∧ (s.slotAt 0 0).task = some 1) ∧
    (∀ x ∈ [({ (sl.slotAt 0 0) with yielding := true } : Slot), { (sl.slotAt 0 0) with parking := true }, { (sl.slotAt 0 0) with inPlace := true, parking := true }],
      ∀ s ∈ [sl.updSlot 0 0 fun _ => x], unitsOk 0 0 = true ∧ s.slotAt 0 0 = x ∧ x.cancelled = false) ∧
    (∀ s ∈ [withCtx sl fun c => c.updChains fun _ h => { h with retired := true }], s.slotOf 1 = some (0, 0) ∧ s.mayComplete 1 0 0 = true ∧
      (s.slotAt 0 0).ctx.refusedBy = none) ∧
    (∀ v ∈ [({ status := 6, block := 0x400, recVa := 0x20000 } : SpawnRefusal)],
      ∀ s ∈ [withCtx sl fun c => c.updChains fun _ h => { h with retired := true, refusal := some v }], s.mayComplete 1 0 0 = true ∧
      (s.slotAt 0 0).ctx.refusedBy = some (.lde, v)) ∧
    (∀ s ∈ [({ sl with forks := [fork1 []] } : State)], s.slotOf 1 = some (0, 0) ∧ s.forks.any (·.task == 1) = true) := by
  decide +kernel

-- A save of the bare machine, given up or stopped by a PARK fault.
theorem wit_TaskEvents_saves : ∀ p ∈ [(true, false), (false, true)], ∀ s ∈ [(bare sl).updSlot 0 0 fun x => { x with yielding := p.1, parking := p.2 }],
    ∀ t ∈ [s.quiesce 0 0], (s.slotAt 0 0).task = some 1 ∧ t.calm (engRef 0 0 .lde) = true ∧ s.saveWaits 0 0 = false ∧ (t.pasid (t.task 1).pasid).runs = true ∧ (t.slotAt 0 0).inPlace = false ∧
      (t.writeChunks (t.task 1).pasid (t.task 1).frame (frameChunks t (t.task 1) ((t.slotAt 0 0).ctx.holdStreams .held))).isOk = true := by
  decide +kernel

theorem wit_HaltEvents :
    (∀ s ∈ [withCtx sl fun c => { c with budget := some 0, wdc := 2 ^ 32 }], (s.jobOf 0 0).runs = true ∧ (s.slotAt 0 0).live = true ∧ (s.slotAt 0 0).ctx.spent = true ∧
      (s.slotAt 0 0).task.isSome = true ∧ (s.slotAt 0 0).wdActive ≤ (s.slotAt 0 0).ctx.wdc ∧ (sl.slotAt 0 0).ctx.wdc < (sl.slotAt 0 0).wdActive ∧
      (sl.slotAt 0 0).ctx.budget = none ∧ (sl.slotAt 0 0).inPlace = false ∧ (sl.slotAt 0 0).cancelled = false) ∧
    (∀ s ∈ [sl.setPasid 5 { sl.pasid 5 with halting := true }], (s.pasid 5).halting = true) ∧ (sl.pasid 5).halting = false ∧
    (∀ s ∈ [sl.setPasid 5 { sl.pasid 5 with halted := true, haltBy := 0x101 }], s.ref.ok = true ∧ (s.chain s.ref).present = true ∧ (s.chain s.ref).stop ≠ .halted ∧
      (s.slotAt 0 0).task.isSome = true ∧ (s.slotAt 0 0).cancelled = false ∧ (s.jobOf 0 0).halted = true ∧ (s.chain s.ref).inflight = [] ∧
      ∀ p ∈ [(Instr.fence {} 0, Phase.waiting, 3), (.nop {}, .done, 0), (.vadd {}, .run, 4)], ∀ t ∈ [running s p.1 0 p.2.1],
        ∀ f ∈ (t.chain t.ref).inflight, classOf f.instr = p.2.2 ∧ t.holdsSave t.ref f = false) ∧
    (∀ s ∈ [sl.updSlot 0 0 fun x => { x with cancelled := true }], (s.chain s.ref).stop ≠ .halted ∧ (s.slotAt 0 0).cancelled = true ∧ (s.jobOf 0 0).halted = false) ∧
    (∀ s ∈ [(withCtx sl fun c => c.updChains fun _ h => { h with stop := .halted }).updSlot 0 0 fun x => { x with cancelled := true }],
      (s.slotAt 0 0).ctx.allStopped = true ∧ s.forks = []) ∧
    (∀ u ∈ [({ held := [(3, { cause := 0x101, time := 9 }), (4, { cause := 0x102, time := 2 })] } : FaultUnit)], ∀ s ∈ [sl.setDie 3 u, sl.setDie 3 { u with tail := 4096 }],
      (s.die 3).full = decide ((s.die 3).tail = 4096) ∧ ∀ x ∈ (oldestHeld (s.die 3).held 0).toList, x.1 = 1 ∧ x.2.1 = 4) := by
  decide +kernel

theorem wit_FaultTaking : (sl.slotAt 0 0).task ≠ none ∧ sl.lpddr.wf = true ∧
    -- the buffer empty, full but for one place, and with a last record of this cycle, of a later tile, a later engine, this very one
    ∀ p ∈ [(sl, false), (sl.setDie 0 { head := 1, tail := 4096 }, false), (sl.setDie 0 { tail := 4, last := (sl.cycle, 9, 0) }, true),
        (sl.setDie 0 { tail := 4, last := (sl.cycle, 0, 1) }, true), (sl.setDie 0 { tail := 4, last := (sl.cycle, 0, 0) }, false)],
      ∀ s ∈ [p.1], ∀ u ∈ [s.die (dieOf 0)], s.ref = engRef 0 0 .lde ∧ u.head + 4096 > u.tail ∧ u.held = [] ∧
        decide (u.last.1 = s.cycle ∧ (s.ref.tile < u.last.2.1 ∨ (s.ref.tile = u.last.2.1 ∧ s.ref.eng.num < u.last.2.2))) = p.2 := by
  decide +kernel

/-! ### The module -/

theorem wit_ModuleEvents :
    (0 : Nat) < tierSectors .hbm ∧ tierSectors .cxl - 1 < tierSectors .cxl ∧ (sl.task 1).pasid = 5 ∧ (sl.task 1).state.live = true ∧ (sl.pasid 5).runs = true ∧
    (∀ w ∈ [1, 2, 4, 8, 32], w ∈ [1, 2, 4, 8, 32] ∧ 0x10800 / 32 < tierSectors .hbm ∧ 0x10800 % w = 0) ∧ (15 : Nat) < 16 ∧
    (∀ k ∈ [poisonKey (.tier .hbm) 0], Map.get 0 sl.mgmt.scrubbed k ≠ sl.scrubNow ∧ sl.poisoned (.tier .hbm) (0 * 32) = false ∧
      ∀ s ∈ [{ sl with mgmt := { sl.mgmt with scrubbed := [(k, 1)] } }], Map.get 0 s.mgmt.scrubbed k = s.scrubNow) ∧
    (∀ p ∈ [(2, 4), (11, 8), (12, 8), (13, 8), (14, 4), (18, 4), (24, 4)], (peerOp p.1).map (·.bytes) = some p.2) ∧ peerOp 25 = none ∧
    (∀ s ∈ [{ sl with mgmt := { sl.mgmt with ready := true } }], s.mgmt.ready = true) ∧ ({ sl with mgmt := { sl.mgmt with ready := false } } : State).mgmt.ready = false ∧
    (∀ n ∈ [0, 15, 16], ∀ p ∈ [(0, false), (2, false), (15, true)],
      ∀ s ∈ [{ sl with mgmt := { sl.mgmt with ready := true, mailboxes := Map.set [] [] (2 * p.1 + ofBool p.2) (List.replicate n [1, 2, 3, 4, 5, 6, 7, 8]) } }],
        s.mgmt.ready = true ∧ (Map.get [] s.mgmt.mailboxes (2 * p.1 + ofBool p.2)).length = n ∧ toCore3 p.1 p.2 = decide (p.1 = 2)) ∧
    sl.mgmt.firmware.isSome = true ∧ ({ sl with mgmt := { sl.mgmt with firmware := none } } : State).mgmt.firmware = none := by
  decide +kernel

/-- Queue 0 and a queue 7 of PASID 5 with a ring of eight packets in page 1; a packet in hand. -/
def withQueue (s : State) (q : Nat) (dws : List Nat) (head : Nat) : State :=
  { s with queues := [(q, { present := true, live := true, ring := 0x10000, pasid := if q = 0 then 0 else 5, log := 3, head := head, tail := head + 1, fetched := [(head, dws)] })],
           runLists := [(0, [q])] }

theorem wit_LineEvents : ∀ s ∈ [withQueue sl 7 [] 5], (s.queue 7).present = true ∧ (s.queue 7).live = true ∧ (7 : Nat) < 4096 ∧ (s.queue 8).live = false ∧
    (s.queue 7).head + 2 ^ (s.queue 7).log = 13 ∧ (s.queue 7).tail = 6 ∧ s.mgmt.ready = true ∧
    ({ s with mgmt := { s.mgmt with ready := false } } : State).mgmt.ready = false := by
  decide +kernel

/-- A packet of a type: its DW0 to DW2 and its completion object; SEQT is one above its index. -/
def pkt (a b c obj head : Nat) : List Nat := [a, b, c, 0, 0, 0, obj, head + 1]

/-- Lists at page 1: none at 0x10A00, one of a record at 0x10A40, and a graph of one node at 0x10B00. -/
def lists (s : State) : State :=
  { s with hbm := [(0x10A40, 1), (0x10A48, 0x10900), (0x10B00, 1), (0x10B40, 1), (0x10B48, 0x10A40)].foldl (fun m (a, v) => Memory.putNat m a 8 v) s.hbm }

theorem wit_PacketEvents :
    (∀ p ∈ [pkt 1 0x10A00 9 0x10C00 5, pkt 1 0x10A40 9 0x10C00 5, pkt 1 0x10804 9 0x10C00 5, pkt 2 0x10B00 9 0x10C00 5, pkt (3 + 2 ^ 24 + 2 ^ 32) 0x10800 9 0x10C00 5,
        pkt (4 + 2 ^ 16) 0x10C00 9 0 5, pkt 5 0x10C00 9 0 5],
      ∀ s ∈ [withQueue (lists sl) 7 p 5], (7 : Nat) < 4096 ∧ s.nextQueue = some 7 ∧ s.startable 7 = some p ∧ packetOk 7 p = true) ∧
    (∀ s ∈ [withQueue (lists sl) 7 [] 5], s.recordList 5 0x10A00 = some [] ∧ s.recordList 5 0x10A40 = some [0x10900] ∧ s.recordList 5 0x10804 = none ∧
      (s.graphList 5 0x10B00).isSome = true ∧ (s.readVa 5 0x10C00 8).isSome = true ∧ (s.writeVa 5 0x10C00 8 9).isSome = true ∧ (s.launch 1).usable = true) ∧
    (∀ t ∈ [(withQueue (lists sl) 7 [] 5).setModel 1 { loaded := true, version := 1, tasks := [0x10900] }], (t.model 1).loaded = true ∧ (t.readDws 5 0x10800 8).isSome = true ∧
      (([0x10900] : List Nat).foldl (fun o va => o.bind fun s => s.relocate 5 [0, 0, 0, 0, 0, 0, 0, 0] va) (some t)).isSome = true ∧ (t.model 2).loaded = false) ∧
    (∀ v ∈ [8, 9], ∀ s ∈ [(withQueue { sl with hbm := Memory.putNat sl.hbm 0x10C00 8 v } 7 [] 5)], ∀ t ∈ [s.setQueue 7 { s.queue 7 with started := [{ index := 4, dws := pkt 5 0x10C00 9 0 4, wait := true }] }],
      ((t.queue 7).started.find? (·.wait)).isSome = true ∧ t.readVa (t.queue 7).pasid 0x10C00 8 = some v) ∧
    (∀ s ∈ [{ withQueue (lists sl) 7 (pkt 4 0x40000 9 0 5) 5 with hbm := Memory.putNat sl.hbm 0x3020 8 (leaf 0 0x40000 - 2 ^ 52) }], s.startable 7 = some (pkt 4 0x40000 9 0 5) ∧
      s.readVa 5 0x40000 8 = some 0 ∧ s.writeVa 5 0x40000 8 9 = none) ∧
    (∀ s ∈ [withQueue (lists sl) 7 (pkt 4 0x50000 9 0 5) 5], s.startable 7 = some (pkt 4 0x50000 9 0 5) ∧ s.readVa 5 0x50000 8 = none) ∧
    (∀ p ∈ [pkt (1 + 2 ^ 10) 0x10A00 9 0x10C00 5], ∀ s ∈ [withQueue sl 7 p 5], s.nextQueue = some 7 ∧ s.startable 7 = some p ∧ packetOk 7 p = false ∧ packetType p = 1) := by
  decide +kernel

/-- The administrative queue with one command in hand: its command, DW1 to DW5. -/
def command (s : State) (cmd a b c d e : Nat) : State := withQueue s 0 [8 + cmd * 2 ^ 24, a, b, c, d, e, 0, 6] 5

/-- DW0 to DW7 of a queue image at host address 0x1000: queue 7 of PASID 5, in run list 3, with 2^4 packets. -/
def image (s : State) : State :=
  { s with host := [(0x1000, 2 ^ 62), (0x1008, 0x20000), (0x1010, 4 + 3 * 2 ^ 8 + 7 * 2 ^ 16 + 5 * 2 ^ 32), (0x2000, 0x4C4E4D31 + 2 ^ 32 * 9), (0x2008, 3 + 2 ^ 32),
    -- an object of one record, one relocation and one symbol
    (0x2010, 2), (0x2018, 0x80), (0x2020, 0x80), (0x2028, 7), (0x2030, 0x100), (0x2038, 24), (0x2040, 8), (0x2048, 0x118), (0x2050, 16),
    (0x2100, 0x80), (0x2108, 1), (0x2110, 5), (0x2118, 7), (0x2120, 0x80)].foldl (fun m (a, v) => Memory.putNat m a 8 v) [] }

theorem wit_AdminEvents :
    (∀ p ∈ [(1, [6, 2 ^ 60, 0x20000, 1, 0]), (2, [5, 0, 0, 0, 0]), (3, [0x1000, 0, 0, 0, 0]), (4, [7, 0, 0, 0, 0]), (5, [5, 0x20000, 1, 0, 0]), (6, [1, 3, 0, 4, 5]),
        (7, [1, 0x2000, 9, 0, 0]), (8, [1, 0, 0, 0, 0]), (9, [0, 2 ^ 48, 0, 0, 0]), (10, [0x2000, 0, 0, 0, 0]), (11, [0x2000, 0x3000, 0, 0, 0]), (12, [0, 0, 0, 0, 0])],
      ∀ s ∈ [command (image sl) p.1 (p.2.getD 0 0) (p.2.getD 1 0) (p.2.getD 2 0) (p.2.getD 3 0) (p.2.getD 4 0)], ∀ w ∈ [(8 + p.1 * 2 ^ 24) :: (p.2 ++ [0, 6])],
      s.nextQueue = some 0 ∧ s.startable 0 = some w ∧ packetOk 0 w = true ∧ isCommand p.1 w = true ∧ (s.queue 0).started = []) ∧
    (∀ t ∈ [command (image sl) 3 0x1000 0 0 0 0], ∀ w ∈ [(t.readDws 0 0x1000 32).getD []],
      (t.readDws 0 0x1000 32).isSome = true ∧ queueImageOk (fun k => w.getD k 0) = true ∧ (queueOf fun k => w.getD k 0).1.pasid = 5 ∧
      (queueOf fun k => w.getD k 0).2 = 7 ∧ (t.queue 7).present = false ∧ (t.queue 7).started = [] ∧ (t.pasid 6).valid = false ∧ (t.pasid 5).valid = true ∧
      rootOk (2 ^ 60) = true ∧ tableOk 0x20000 1 = true ∧ t.blockInUse [0, 0x1000] = false ∧ (t.setQueue 7 { removed := 1 }).blockInUse [0, 0x1000] = true ∧ t.modelBusy (t.model 1) = false ∧
      (t.readVa 0 0x2000 8).isSome = true ∧ (t.writeVa 0 0x3000 8 0).isSome = true ∧ (t.readDws 0 0x2000 4).isSome = true ∧ (t.writeDws 0 0x3000 (List.replicate 317 1)).isSome = true ∧
      ∀ k < 16, Map.get false t.granulesOut (granuleKey .clusterPool (k * granuleBytes)) = false) ∧
    (∀ t ∈ [command (image sl) 7 1 0x2000 9 0 0], ∀ l ∈ [[({ kind := 2, off := 0x80, size := 0x80 } : Section), { kind := 7, off := 0x100, size := 24 }, { kind := 8, off := 0x118, size := 16 }]],
      t.readVa 0 0x2000 8 = some (0x4C4E4D31 + 2 ^ 32 * 9) ∧ t.readVa 0 (0x2000 + 8) 8 = some (3 + 2 ^ 32 * 1) ∧ t.objectSections 0x2000 3 = some l ∧
      (∀ x ∈ l, x.ok = true) ∧ (l.map fun x => x.off + x.size).foldl max 0 = 0x128 ∧ (t.readDws 0 0x2000 37).isSome = true ∧
      ∀ img ∈ [(t.readDws 0 0x2000 37).getD []], (relocateAll (t.loadBase 0x128) (secondOnes ((l.filter (·.kind == 8)).flatMap (·.dws img)))
        ((l.filter (·.kind == 7)).flatMap (·.dws img)) img).isSome = true) ∧
    (∀ s ∈ [sl.setQueue 7 { present := true, live := false }], (s.queue 7).present = true ∧ (s.queue 7).live = false) ∧
    -- QDEL of a live queue with a packet that has not started, and of one whose slots are not valid
    (∀ f ∈ [[], [(5, pkt 1 0x10A00 9 0x10C00 5)]], ∀ s ∈ [(command (image sl) 4 7 0 0 0 0).setQueue 7
        { present := true, live := true, ring := 0x10000, pasid := 5, log := 3, head := 5, tail := 6, fetched := f }], ∀ w ∈ [[8 + 4 * 2 ^ 24, 7, 0, 0, 0, 0, 0, 6]],
      s.nextQueue = some 0 ∧ s.startable 0 = some w ∧ packetOk 0 w = true ∧ isCommand 4 w = true ∧ (s.queue 0).started = [] ∧
      ∀ t ∈ [s.started 0 w], (t.queue 7).present = true ∧ (t.queue 7).live = true ∧ (t.queue 7).head < (t.queue 7).tail) ∧
    -- a PASDEL and a WRESET under way, and at their ends
    (∀ p ∈ [(2, 5), (12, 0)], ∀ x ∈ [({ index := 4, dws := [8 + p.1 * 2 ^ 24, p.2] } : Started)], ∀ s ∈ [sl.setQueue 0 { sl.queue 0 with started := [x] }],
      (s.queue 0).started.filter (fun x => isCommand p.1 x.dws) = [x] ∧ s.liveOf 5 ≠ [] ∧ (s.tasks.any fun x => x.2.state.live) = true ∧
      ∀ t ∈ [{ s with tasks := [], slots := [] }], (t.queue 0).started.filter (fun x => isCommand p.1 x.dws) = [x] ∧ t.liveOf 5 = [] ∧ t.quiet 5 = true ∧
        (t.tasks.any fun x => x.2.state.live) = false ∧ t.idle = true) ∧
    (∀ w ∈ [[8 + 6 * 2 ^ 24, 0, 31, 0, 1, 5], [8 + 6 * 2 ^ 24, 1, 3, 0, 4, 0]], (grantRange w).isSome = true) ∧ (sl.setModel 1 { loaded := true }).modelBusy { loaded := true } = false := by
  decide +kernel

/-! ### Conversions and accesses -/

theorem wit_IntegerConversion :
    (∀ p ∈ [(1, 4), (1, 5), (1, 6), (1, 7), (1, 8)], ∀ b ∈ [({ fmt := p.1, dfmt := p.2, a := vd 1, d := vd 3 } : LBlk)], Fit sv (.fcvti b) ∧
      sv.Reads (.fcvti b) b.a b.fmt (b.counters 0) [(0x40000000, 3), (0x3F800000, 1)] []) ∧
    (∀ p ∈ [(4, 6, 4), (4, 10, 4), (8, 4, 7), (7, 5, 8), (10, 4, 10)], ∀ b ∈ [({ fmt := p.1, dfmt := p.2.1, a := vd p.2.2, d := vd 3 } : LBlk)], Fit sv (.icvt b) ∧
      sv.Reads (.icvt b) b.a b.fmt (b.counters 0) (got sv (.icvt b) b.a b.fmt).1 []) ∧
    (∀ b ∈ [({ fmt := 1, dfmt := 4, a := vd 1, d := vd 3 } : LBlk)], sv.Delivers (.fcvti b) b b.dfmt 4 [(2, 3), (1, 1)] [] (outReg 3 4 [(2, 3), (1, 1)])) := by
  simp only [Fit, State.Reads, State.TagsOk, State.Delivers, Issuing, State.views]
  decide +kernel

/-- An access of one element to the sector of 0x10800 in HBM. -/
def placed (k : HomeKind) (w : Nat) : Access := { place := .tier .hbm, unit := 0x10800 / 32, va := 0x10800, ops := [{ bit := 0x10800 * 8, w := w, kind := k }] }
def firmHbm (x : Option Nat) : Bool := x.isSome

theorem wit_PlacedAccess :
    (∀ a ∈ [placed (.write 0x1FF) 8, placed (.rmw .smin 9 0 (some 0x100)) 32, placed (.rmw .cas 9 11 none) 32], (sl.performAccess a).2.2 = none ∧ sl.perc.motions = [] ∧
      (sl.tierMem .hbm).wf = true ∧ Map.get false sl.poison (poisonKey a.place a.unit) = false) ∧
    (∀ s ∈ [{ sl with poison := [(poisonKey (.tier .hbm) (0x10800 / 32), true)] }], ∀ a ∈ [placed (.write 9) 32],
      Map.get false s.poison (poisonKey a.place a.unit) = true ∧ coversUnit (a.unit * 32 * 8) 32 a.ops = false ∧ (s.performAccess a).2.2 ≠ none) := by
  decide +kernel

/-! ### Encodings: the spec's worked ones, and ill-formed terms -/

/-- A block's doublewords from those that are not zero. -/
def dws (n : Nat) (l : List (Nat × Nat)) : List Nat := (upto n).map fun k => ((l.find? (·.1 == k)).map (·.2)).getD 0

/-- R17 to R30: VADD.F32 v3, v1, v2 with its waits, its signal and its slots, plain and with A as v1.rot(4,3). -/
theorem test_decode_vadd : ∀ p ∈ [(0x10006, 0), (0x13416, 0x341)],
    decode .vxe 0 (dws 16 [(0, 0x1000131400), (1, 0x40500000404), (4, p.1), (8, 0x20006), (12, 0x30006)]) =
    .ok (.vadd { c := { sbset := 3, sbwait := 1, wsem := 4, wcnt := 1, ssem := 5, scnt := 1 }, fmt := 1, a := { vd 1 with mod := p.2 }, b := vd 2, d := vd 3 }) := by
  decide +kernel

/-- END after(1,3), and the same header with CLASS 0xB. -/
theorem test_decode_end : decode .ste 0x20 (dws 4 [(0, 0x500001)]) = .ok (.endChain { sbwait := 5 }) ∧
    decode .ste 0x20 (dws 4 [(0, 0x500B01)]) = .error .illegalClass ∧ decode .ste 0x20 (dws 16 [(0, 0x501001)]) = .error .misalignedBlock := by
  decide +kernel

/-- R102: a PATCHI of one byte. R178: a remote SEMS after slot 1. R181: a REGD. R285: a MIGRS to HBM4. -/
theorem test_decode_sforms :
    decode .lde 0 (dws 4 [(0, 6), (2, 0x1036), (3, 1)]) = .ok (.patchi {} 0 0x1036 1) ∧
    decode .ste 0 (dws 4 [(0, 0x100302), (2, 0xC250009), (3, 1)]) = .ok (.sems { sbwait := 1 } 1 2 37 9 1) ∧
    decode .mxe 0 (dws 4 [(0, 0x303), (2, 0x08070C0600006102), (3, 0x10000001000)]) = .ok (.regd {} 1 0 7 1 1 6 6 1 2 0x100 0x1000) ∧
    decode .ste 0 (dws 4 [(0, 0x10901), (2, 0x200000400000)]) = .ok (.migrs { sbset := 1 } 0 1 0x400000 0) := by
  decide +kernel

/-- R127: LDT of a handle's tile into a padded window. R154: an atomic of dp with a returned value. -/
theorem test_decode_memory :
    decode .lde 0 (dws 16 [(0, 0x2000011100), (12, 0x10000001), (15, 0x1000000030003), (4, 0x30005), (5, 0x300000004), (7, 0x30003)]) =
      .ok (.ldt { c := { sbset := 1 }, fmt := 2, a := { space := 5, base := 3, st0 := 4, st1 := 3, seg := 3, ext2 := 3 },
                  d := { space := 1, base := 0x1000, seg := 3, ext2 := 3, aux := 1 } }) ∧
    decode .ste 0 (dws 16 [(0, 0x4000011206), (4, 0x1000B), (8, 0x2000001), (12, 0x1000003)]) =
      .ok (.atadd { c := { sbset := 1 }, fmt := 4, a := im 1, b := { space := 1, base := 0x200 }, d := { space := 3, base := 0x100 } }) := by
  decide +kernel

/-- R199: a zeroing mask v7 on VADD.F32. R226: VRSUM.F32 v6, v5. R80: the worked conversion of FP32 to BF16. -/
theorem test_decode_vectors :
    decode .vxe 0 (dws 16 [(0, 0x1F001000001400), (4, 0x10006), (8, 0x20006), (12, 0x30006)]) =
      .ok (.vadd { fmt := 1, msk := 1, zm := 1, mreg := 7, a := vd 1, b := vd 2, d := vd 3 }) ∧
    decode .vxe 0 (dws 16 [(0, 0x11000011510), (4, 0x50006), (12, 0x60006)]) =
      .ok (.vrsum { c := { sbset := 1 }, fmt := 1, dfmt := 1, a := vd 5, d := vd 6 }) ∧
    decode .vxe 0 (dws 16 [(0, 0x21000121600), (4, 0x20006), (12, 0x40006)]) =
      .ok (.fcvt { c := { sbset := 2, sbwait := 1 }, fmt := 1, dfmt := 2, a := vd 2, d := vd 4 }) := by
  decide +kernel

/-- R240: the worked MMA with KLEN 4. R255: a WINL. R262: a VTWD with NLOG 3. -/
theorem test_decode_matrix :
    decode .mxe 0 (dws 16 [(0, 0x12000121700), (1, 0x4030402), (2, 0x20000000000000), (4, 0x10000001), (7, 0xC0000000F002F), (8, 0x400008), (11, 0xC0000000F002F),
        (12, 7), (15, 0x10000000F000F)]) =
      .ok (.mma { c := { sbset := 2, sbwait := 1, wsem := 2, wcnt := 1, w2sem := 3, w2cnt := 1 }, fmt := 2, dfmt := 1, cx := 4,
                  a := { space := 1, base := 0x1000, seg := 47, ext2 := 15, aux := 12 }, b := { space := 8, base := 0x40, seg := 47, ext2 := 15, aux := 12 },
                  d := { space := 7, seg := 15, ext2 := 15, aux := 1 } }) ∧
    decode .lde 0 (dws 16 [(0, 0x2000011800), (4, 0x10000001), (8, 0x11000001), (12, 0x20000001), (15, 0x3000000030008)]) =
      .ok (.winl { c := { sbset := 1 }, fmt := 2, a := { space := 1, base := 0x1000 }, b := { space := 1, base := 0x1100 },
                   d := { space := 1, base := 0x2000, seg := 8, ext2 := 3, aux := 3 } }) ∧
    decode .vxe 0 (dws 16 [(0, 0x1000001803), (2, 0x18000000000000), (4, 0x10006), (8, 0x1000B), (12, 0x20006)]) =
      .ok (.vtwd { fmt := 1, cx := 3, a := vd 1, b := im 1, d := vd 2 }) := by
  decide +kernel

/-- R49: TKPOST x10, x11, x0 and its word with funct3 7. R318: TKSTAT x5, x10, x11. R322: HINV x0, x12, x13. -/
theorem test_decode_xforms : decodeX 0x5850B = .tkpost 10 11 0 ∧ decodeX 0x5F50B = .illegalInstruction 0x5F50B ∧ decodeX 0x4B5028B = .tkstat 5 10 11 ∧
    decodeX 0x6D6400B = .hinv 0 12 13 := by
  decide +kernel

/-- Ill-formed terms: a field that does not fit, then one for each check of R21 on a term. -/
theorem test_wellFormed_refuses :
    wellFormed .lde 0 (.nop { ssem := 1024 }) = false ∧
    fetchCheck .vxe 0x20 (.vadd (elemBlk 1 0 1 2 3 true)) = some .misalignedBlock ∧
    fetchCheck .vxe 0 (.vadd { elemBlk 1 0 1 2 3 true with opx := 1 }) = some .illegalOpcode ∧
    fetchCheck .lde 0 (.vadd (elemBlk 1 0 1 2 3 true)) = some .wrongEngine ∧
    fetchCheck .vxe 0 (.vadd { elemBlk 1 0 1 2 3 true with next := 32 }) = some .reservedField ∧
    fetchCheck .vxe 0 (.vadd { elemBlk 1 0 1 2 3 true with a := { space := 13 } }) = some .reservedField ∧
    fetchCheck .vxe 0 (.vadd (elemBlk 4 0 1 2 3 true)) = some .badFormat ∧
    fetchCheck .vxe 0 (.vadd { elemBlk 1 0 1 2 3 true with rm := 5 }) = some .badFormat ∧
    fetchCheck .vxe 0 (.vadd { elemBlk 1 0 1 2 3 true with a := gmw 0 }) = some .spaceNotPermitted ∧
    fetchCheck .lde 0 (.ldg (ldB (gmw 2) {} (tpw 0))) = some .misalignedWindow ∧
    fetchCheck .lde 0 (.nop { ssem := 300, scnt := 1 }) = some .semInvalid ∧
    fetchCheck .lde 0x1000 (.brc {} 1 0x1000 0 0) = some .backwardBrc := by
  decide +kernel

/-- Well-formed blocks of every class, for the round trip. -/
theorem wit_BlockRoundTrip : ∀ p ∈ [(Engine.vxe, Instr.vadd (elemBlk 1 0 1 2 3 true)), (.lde, .ldg (ldB (gmw 0x800) {} (tpw 0x40))), (.ste, .stg (ldB (tpw 0) {} (gmw 0x800))),
    (.lde, .semi {} 255 65535), (.mxe, .nop {}), (.ste, .migr {} 2 7 (2 ^ 45 - 1) 65535)], p.2.isBlock = true ∧ wellFormed p.1 128 p.2 = true := by
  decide +kernel

/-! ### Steps -/

/-- A turn of an agent comes next. -/
def turned (s : State) (t : Turn) : State := { s with agenda := [{ turn := t }] }

/-- A state whose next turn is that of the acting engine. -/
def engineNext (s : State) : State := turned s (.engine s.ref)
/-- The acting chain with a block of four doublewords at its head. -/
def headed (ws : List Nat) : State := standing sl 0 [{ addr := 0, words := ws }]

theorem wit_StepTurns :
    -- an issue granted, one in a cycle in which the engine has issued, one whose signal comes too late, a breakpoint
    (∀ p ∈ [(headed [0, 0, 0, 0], ({} : Ctl), 0), ((headed [0, 0, 0, 0]).setTile 0 { sl.tile 0 with ptr := [0, 3, 3, 3], last := [1, 0, 0, 0] }, {}, 1),
        ((headed (encode (.nop { ssem := 1, scnt := 1 }))).updSlot 0 0 fun x => x.tests 0 [1], { ssem := 1, scnt := 1 }, 2),
        (headed (encode (.nop { brk := 1 })), { brk := 1 }, 3)],
      ∀ s ∈ [engineNext p.1], s.nextTurn = { turn := .engine sl.ref } ∧ s.mgmt.powered = true ∧ s.dueIn 0 = none ∧ sl.ref.ok = true ∧
      (∀ t ∈ [({ s.begin { turn := .engine sl.ref } s.agenda.tail with ref := sl.ref } : State).watchHead sl.ref], (t.runsOn sl.ref)[0]? = none ∧
        (t.chain sl.ref).queue.map (·.addr) = [0] ∧ (∀ q ∈ (t.chain sl.ref).queue, q.fault = none ∧ decode .lde 0 q.words = .ok (.nop p.2.1)) ∧
        (t.chain sl.ref).cursor = 0 ∧ (t.chain sl.ref).refusal = none ∧ (t.chain sl.ref).guardDue (.nop p.2.1) = false ∧ (t.ctx sl.ref).skips (.nop p.2.1) = false ∧
        decide (t.gate sl.ref (.nop p.2.1) = .brk) = decide (p.2.2 = 3) ∧ (p.2.2 = 3 ∨ t.mayGrant sl.ref = decide (p.2.2 ≠ 1)) ∧ t.yieldsTo sl.ref (.nop p.2.1) = false ∧
        t.addsLate sl.ref (.nop p.2.1) = decide (p.2.2 = 2))) ∧
    (∀ s ∈ [engineNext sl, engineNext (running sl (.nop {}) 0)], ∀ t ∈ [({ s.begin s.nextTurn s.agenda.tail with ref := sl.ref } : State).watchHead sl.ref],
      s.dueIn s.nextTurn.dt = none ∧ (t.chain sl.ref).queue = [] ∧ (((t.runsOn sl.ref)[s.nextTurn.env.pass]?).map (·.instr)) = ((s.chain s.ref).inflight[0]?).map (·.instr)) ∧
    -- the home reports the value of the word that the head block watches
    (∀ i ∈ [Instr.join {} 2 1 0x800 11], ∀ s ∈ [engineNext (headed (encode i))], ∀ t ∈ [({ s.begin s.nextTurn s.agenda.tail with ref := sl.ref } : State)],
      (t.chain sl.ref).report = none ∧ ((t.watchHead sl.ref).chain sl.ref).report = some (i, 11 + 22 * 2 ^ 32) ∧ (t.watchHead sl.ref).mayGrant sl.ref = true) ∧
    (∀ x ∈ [0x5850B, 0x13], ∀ s ∈ [turned { sl with supmem := Memory.putNat [] 0 4 x } (.supervisor 31)], (s.nextTurn).turn = .supervisor 31 ∧ s.dueIn s.nextTurn.dt = none ∧
      ∀ t ∈ [({ s.begin s.nextTurn s.agenda.tail with hart := 31 } : State)], decide (t.supmem.nat (t.hartAt 31).pc 4 % 128 = 0x0B) = decide (x = 0x5850B)) ∧
    -- the end of a period, and a watchdog at its limit, within the time to the next turn
    (∀ p ∈ [(15259 * 65536, sl), (15259 * 65536 + 9, sl), (2 ^ 20, sl.updSlot 0 0 fun x => { x with wdActive := 7 })],
      ∀ s ∈ [{ p.2 with agenda := [{ dt := p.1, turn := .event .hotnessSample }] }], (s.dueIn s.nextTurn.dt).isSome = true) ∧
    (turned sl (.event .hotnessSample)).dueIn 0 = none ∧
    (lParts .hotnessDecay).isNone = true ∧ (sParts .hotnessDecay).isNone = true ∧ (xParts .hotnessDecay).isNone = true ∧
    ({ sl with mgmt := { sl.mgmt with powered := false } } : State).mgmt.powered = false := by
  decide +kernel

/-- The machine steps from reset: a turn of the event HOTNESS_DECAY before its period has ended. -/
theorem wit_StepInvariant : (match step (turned State.reset (.event .hotnessDecay)) with | .next t => t.steps == 1 | _ => false) = true := by
  decide +kernel

theorem wit_DecodeSound : (decode .vxe 0x80 (encode (.vadd (elemBlk 1 0 1 2 3 true)))).isOk = true ∧ (decode .ste 0x20 [0x500001, 0, 0, 0]).isOk = true := by
  decide +kernel

theorem wit_XEncoding : (∀ p ∈ [(0, 0, 0, 0, 0), (31, 7, 31, 31, 127), (31, 6, 31, 0, 0), (1, 6, 1, 0, 1)],
    ∀ w ∈ [0x0B + 2 ^ 7 * p.1 + 2 ^ 12 * p.2.1 + 2 ^ 15 * p.2.2.1 + 2 ^ 20 * p.2.2.2.1 + 2 ^ 25 * p.2.2.2.2], p.1 < 32 ∧ p.2.1 < 8 ∧ p.2.2.1 < 32 ∧ p.2.2.2.1 < 32 ∧
      p.2.2.2.2 < 128 ∧ (decodeX w = .illegalInstruction w ↔ (7 ≤ p.2.1 ∨ (p.2.2.2.2 = 1 ∧ p.2.2.1 ≠ 0)))) ∧
    ((6, 1, false, false) ∈ Sys2Proof.Machine.xTable.map fun x => (x.1, x.2.1, x.2.2.2.1, x.2.2.2.2)) ∧
    (6, 0, true, false) ∈ Sys2Proof.Machine.xTable.map fun x => (x.1, x.2.1, x.2.2.2.1, x.2.2.2.2) := by
  decide +kernel

/-- A word placed as the next to be fetched runs as the first of the machine: END retires its chain, CYCRD its word. -/
theorem test_fetchWord :
    (match step (State.reset.withFetchWord 256 1) with | .next t => (t.chain (engRef 0 0 .lde)).retired | _ => false) = true ∧
    (match step (State.reset.withFetchWord 32 (0x0B + 2 ^ 7 * 5 + 2 ^ 12 * 6 + 2 ^ 25)) with | .next t => (t.hartAt 0).pc == 4 | _ => false) = true := by
  decide +kernel
end Sys2Proof.Machine.Demo
end

section
/-! PROOFS. Events of the module's storage, ports, power, resets and firmware: what each step answers, and from it the statement
of O46. -/

namespace Sys2Proof.Machine

/-! ### Storage (R338, R339) -/

/-- Of two events logged one after the other the later stands first, and the buffer keeps the latest 4,096. -/
theorem State.thyme_log_log (s : State) (a b : ThymeEvent) : ((s.log a).log b).thyme = (b :: a :: s.thyme).take 4096 := by
  simp [State.log, List.take_take]

theorem Management.outOf_frame (m : Management) (k : Nat) : m.outOf k = { m with outOfSvc := (m.outOf k).outOfSvc } := by
  unfold Management.outOf
  split <;> rfl

theorem State.keepsMemory_log (s : State) (e : ThymeEvent) : s.KeepsMemory (s.log e) :=
  ⟨fun m _ => by cases m <;> rfl, fun _ => rfl, fun _ => rfl, fun _ => rfl⟩

theorem State.keepsMemory_poisonSector (s : State) (t : Tier) (n : Nat) : s.KeepsMemory (s.poisonSector t n) :=
  ⟨fun m _ => by cases m <;> rfl, fun _ => rfl, fun _ => rfl, fun _ => rfl⟩

theorem State.poison_poisonSector (s : State) (t : Tier) (n : Nat) :
    Map.get false (s.poisonSector t n).poison (poisonKey (.tier t) n) = true :=
  Map.get_set_ne false (by decide) s.poison

theorem State.thyme_poisonSector (s : State) (t : Tier) (n : Nat) :
    (s.poisonSector t n).thyme = ({ time := s.cycle, kind := 0x11, addr := n * 32, data := storageKind (.tier t) } ::
      { time := s.cycle, kind := 0x12, addr := n * 32 } :: s.thyme).take 4096 :=
  State.thyme_log_log s { time := s.cycle, kind := 0x12, addr := n * 32 }
    { time := s.cycle, kind := 0x11, addr := n * 32, data := storageKind (.tier t) }

/-- A poisoned sector's frame is reported to management core 3; of the rest of the complex only the count of storage out of
service may differ. -/
theorem State.mgmt_poisonSector (s : State) (t : Tier) (n : Nat) :
    (s.poisonSector t n).mgmt = { s.mgmt with
      outOfSvc := (s.mgmt.outOf 1).outOfSvc, frames := s.mgmt.frames ++ [(t.num, n * 32 / pageBytes)], core3Irqs := s.mgmt.core3Irqs + 1 } := by
  show { s.mgmt.outOf 1 with
      frames := (s.mgmt.outOf 1).frames ++ [(t.num, n * 32 / pageBytes)], core3Irqs := (s.mgmt.outOf 1).core3Irqs + 1 } = _
  rw [Management.outOf_frame]

/-- A retry ends in one of two ways: a transient event, or poison with its two events and its report. -/
theorem State.sectorFails_cases {s : State} {t : Tier} {n : Nat} (h : s.poisoned (.tier t) (n * 32) = false) (lasting : Bool) :
    s.sectorFails t n lasting = s.log { time := s.cycle, kind := 0x10, addr := n * 32, data := storageKind (.tier t) } ∨
    s.sectorFails t n lasting = s.poisonSector t n := by
  unfold State.sectorFails
  cases lasting <;> simp [h]

/-- The record that a sector has been read in a scrub period (R339). -/
def State.markScrubbed (s : State) (key period : Nat) : State :=
  s.updMgmt fun m => { m with scrubbed := Map.set 0 m.scrubbed key period }

theorem State.KeepsMemory.markScrubbed {s u : State} (h : s.KeepsMemory u) (key period : Nat) : s.KeepsMemory (u.markScrubbed key period) := h

theorem exec_scrub_of_scrubbed {s : State} {t : Tier} {n : Nat} (hn : n < tierSectors t)
    (h : Map.get 0 s.mgmt.scrubbed (poisonKey (.tier t) n) = s.scrubNow) (c : Bool) : exec (.scrub t n c) s = .next s := by
  show execScrub t n c s = _
  simp only [execScrub, if_neg (Nat.not_le.mpr hn), if_pos h]

theorem exec_scrub_of_not_scrubbed {s : State} {t : Tier} {n : Nat} (hn : n < tierSectors t)
    (h : Map.get 0 s.mgmt.scrubbed (poisonKey (.tier t) n) ≠ s.scrubNow) (c : Bool) :
    exec (.scrub t n c) s = .next ((s.scrubFinds t n c).markScrubbed (poisonKey (.tier t) n) s.scrubNow) := by
  show execScrub t n c s = _
  simp only [execScrub, if_neg (Nat.not_le.mpr hn), if_neg h]
  rfl

/-- A retried sector: its two outcomes, once the scrub has marked it. -/
theorem exec_scrub_retried {s : State} {t : Tier} {n : Nat} (hn : n < tierSectors t)
    (h : Map.get 0 s.mgmt.scrubbed (poisonKey (.tier t) n) ≠ s.scrubNow) (hp : s.poisoned (.tier t) (n * 32) = false) :
    ∃ u, exec (.scrub t n false) s = .next u ∧ s.KeepsMemory u ∧
      u.mgmt.scrubbed = Map.set 0 s.mgmt.scrubbed (poisonKey (.tier t) n) s.scrubNow ∧
      ((u.poison = s.poison ∧
          u.thyme = ({ time := s.cycle, kind := 0x10, addr := n * 32, data := storageKind (.tier t) } :: s.thyme).take 4096) ∨
       (Map.get false u.poison (poisonKey (.tier t) n) = true ∧
          u.thyme = ({ time := s.cycle, kind := 0x11, addr := n * 32, data := storageKind (.tier t) } ::
            { time := s.cycle, kind := 0x12, addr := n * 32 } :: s.thyme).take 4096 ∧
          u.mgmt.frames = s.mgmt.frames ++ [(t.num, n * 32 / pageBytes)] ∧ u.mgmt.core3Irqs = s.mgmt.core3Irqs + 1)) := by
  refine ⟨_, exec_scrub_of_not_scrubbed hn h false, ?_⟩
  rw [show s.scrubFinds t n false = s.sectorFails t n (!s.freeBit 0) from rfl]
  rcases State.sectorFails_cases hp (!s.freeBit 0) with e | e <;> rw [e]
  · exact ⟨(s.keepsMemory_log _).markScrubbed _ _, rfl, .inl ⟨rfl, rfl⟩⟩
  · have hm := s.mgmt_poisonSector t n
    refine ⟨(s.keepsMemory_poisonSector t n).markScrubbed _ _, ?_, .inr ⟨s.poison_poisonSector t n, s.thyme_poisonSector t n, ?_, ?_⟩⟩ <;>
      simp only [State.markScrubbed, State.updMgmt, hm]

/-! ### Ports (R356) -/

theorem exec_linkFailure_of_runs {s : State} {pasid task : Nat} (hp : (s.task task).pasid = pasid) (hl : (s.task task).state.live = true)
    (hr : (s.pasid pasid).runs = true) (noPath : Bool) (va : Nat) :
    exec (.linkFailure pasid task noPath va) s = .next (s.fabricFault task (if noPath then .peerUnreachable else .link) va) :=
  if_pos ⟨hp, hl, hr⟩

theorem peerKind_write (width v : Nat) : peerKind 1 width v = some (.write (v % 2 ^ (8 * width))) := rfl

theorem peerKind_of_peerOp {op width : Nat} {f : Rmw} (h : peerOp op = some f) (hw : f.bytes = width) (v : Nat) :
    peerKind op width v = some (.rmw f (v % 2 ^ (8 * width)) (bits v 32 32) none) := by
  have h1 : op ≠ 1 := by rintro rfl; cases h
  simp only [peerKind, if_neg h1, h, if_pos hw]

/-- A read, a number of no step, or a step of another width. -/
theorem peerKind_eq_none {op width : Nat} (h1 : op ≠ 1) (h : ∀ f, peerOp op = some f → f.bytes ≠ width) (v : Nat) :
    peerKind op width v = none := by
  simp only [peerKind, if_neg h1]
  cases hf : peerOp op with
  | none => rfl
  | some f => exact if_neg (h f hf)

/-- An aligned access of a width of R356 passes the check. -/
theorem peerAccess_passes {addr width : Nat} (hw : width ∈ [1, 2, 4, 8, 32]) (hd : addr % width = 0) :
    (!([1, 2, 4, 8, 32].contains width) || addr % width != 0) = false := by
  rw [List.contains_iff_mem.mpr hw, hd]
  rfl

section
variable {s : State} {t : Tier} {addr op width v : Nat} (ha : addr / 32 < tierSectors t) (hw : width ∈ [1, 2, 4, 8, 32])
  (hd : addr % width = 0)
include ha hw hd

theorem exec_peerWindowAccess_of_none (h : peerKind op width v = none) : exec (.peerWindowAccess t addr op width v) s = .next s := by
  show execPeerWindowAccess t addr op width v s = _
  simp only [execPeerWindowAccess, if_neg (Nat.not_le.mpr ha), peerAccess_passes hw hd, Bool.false_eq_true, if_false, h]

theorem exec_peerWindowAccess_of_some {kind : HomeKind} (h : peerKind op width v = some kind) :
    exec (.peerWindowAccess t addr op width v) s = .next (s.performAccess
      { place := .tier t, unit := addr / 32, ops := [{ bit := addr * 8, w := 8 * width, kind := kind }] }).1 := by
  show execPeerWindowAccess t addr op width v s = _
  simp only [execPeerWindowAccess, if_neg (Nat.not_le.mpr ha), peerAccess_passes hw hd, Bool.false_eq_true, if_false, h]

end

/-! ### Mailboxes (R355) -/

/-- Core 3 sets nothing but the scrub period, with which the record of scrubbed sectors starts anew. -/
theorem State.core3Acts_frame (s : State) : s.core3Acts =
    { s with mgmt := { s.mgmt with scrubPeriod := s.core3Acts.mgmt.scrubPeriod, scrubbed := s.core3Acts.mgmt.scrubbed } } := by
  unfold State.core3Acts
  split <;> rfl

theorem State.testFirmware_frame (s : State) : s.testFirmware = { s with tiles := s.testFirmware.tiles } := by
  unfold State.testFirmware
  split <;> rfl

/-- The message of 64 bytes that firmware may send: eight open doublewords. -/
def State.openMessage (s : State) : List Nat := (upto 8).map fun j => s.free (j + 1)

theorem State.length_openMessage (s : State) : s.openMessage.length = 8 := by simp [State.openMessage, upto]

/-- What a FIFO holds after its step: a message more while there is room, or its oldest taken. -/
def State.fifoAfter (s : State) (l : List (List Nat)) : List (List Nat) :=
  if s.freeBit 0 = true ∧ l.length < 16 then l ++ [s.openMessage] else l.drop 1

theorem State.fifoAfter_of_full (s : State) {l : List (List Nat)} (h : 16 ≤ l.length) : s.fifoAfter l = l.drop 1 :=
  if_neg fun hs => Nat.not_lt.mpr h hs.2

theorem State.length_fifoAfter_le (s : State) {l : List (List Nat)} (h : l.length ≤ 16) : (s.fifoAfter l).length ≤ 16 := by
  unfold State.fifoAfter
  split
  next hs => simpa using hs.2
  next => simp only [List.length_drop]; omega

/-- A message changes its FIFO; beside it only the tiles, by test firmware, and the scrub period with its record, by core 3. -/
theorem exec_mailboxMessage_of_ready {s : State} {pair : Nat} (hp : pair < 16) (hr : s.mgmt.ready = true) (reply : Bool) :
    ∃ tiles period scrubbed, (toCore3 pair reply = false → period = s.mgmt.scrubPeriod) ∧
      exec (.mailboxMessage pair reply) s = .next { s with tiles := tiles, mgmt := { s.mgmt with
        scrubPeriod := period, scrubbed := scrubbed,
        mailboxes := Map.set [] s.mgmt.mailboxes (2 * pair + ofBool reply)
          (s.fifoAfter (Map.get [] s.mgmt.mailboxes (2 * pair + ofBool reply))) } } := by
  set l := Map.get [] s.mgmt.mailboxes (2 * pair + ofBool reply) with hl
  have hexec : exec (.mailboxMessage pair reply) s =
      .next ((if toCore3 pair reply && !(s.freeBit 0 && decide (l.length < 16)) && !l.isEmpty then s.core3Acts else s).testFirmware.updMgmt
        fun m => { m with mailboxes := Map.set [] m.mailboxes (2 * pair + ofBool reply) (s.fifoAfter l) }) := by
    show execMailboxMessage pair reply s = _
    simp only [execMailboxMessage, if_neg (Nat.not_le.mpr hp), hr, Bool.not_true, Bool.false_eq_true, if_false, ← hl, State.fifoAfter,
      Bool.and_eq_true, decide_eq_true_eq, State.openMessage]
  rw [hexec]
  split
  next hc =>
    refine ⟨s.core3Acts.testFirmware.tiles, s.core3Acts.mgmt.scrubPeriod, s.core3Acts.mgmt.scrubbed, fun h => by simp [h] at hc, ?_⟩
    rw [State.testFirmware_frame, State.core3Acts_frame]
    rfl
  next =>
    refine ⟨s.testFirmware.tiles, s.mgmt.scrubPeriod, s.mgmt.scrubbed, fun _ => rfl, ?_⟩
    rw [State.testFirmware_frame]
    rfl

theorem exec_mailboxMessage_of_not_ready {s : State} {pair : Nat} (hp : pair < 16) (hr : s.mgmt.ready = false) (reply : Bool) :
    exec (.mailboxMessage pair reply) s = .next s := by
  show execMailboxMessage pair reply s = _
  simp [execMailboxMessage, Nat.not_le.mpr hp, hr]

/-! ### Power (R359) -/

theorem exec_powerMeasurement_of_not_ready {s : State} (hr : s.mgmt.ready = false) : exec .powerMeasurement s = .next s := by
  show execPowerMeasurement s = _
  simp [execPowerMeasurement, hr]

theorem exec_powerMeasurement_of_ready {s : State} (hr : s.mgmt.ready = true) :
    ∃ draw throttle, draw ≤ s.mgmt.powerLimit ∧ 1 ≤ throttle ∧ throttle ≤ 16 ∧
      exec .powerMeasurement s = .next { s with mgmt := { s.mgmt with draw := draw, throttle := throttle } } := by
  refine ⟨s.free 0 % (s.mgmt.powerLimit + 1), 1 + s.free 1 % 16, Nat.le_of_lt_succ (Nat.mod_lt _ (Nat.succ_pos _)), by omega, by omega, ?_⟩
  show execPowerMeasurement s = _
  simp [execPowerMeasurement, hr, State.updMgmt]

/-! ### Firmware (R357) -/

theorem exec_recoveryImage_of_firmware {s : State} (h : s.mgmt.firmware.isSome = true) : exec .recoveryImage s = .next s :=
  congrArg _ (if_pos h)

theorem exec_recoveryImage_of_none {s : State} (h : s.mgmt.firmware = none) :
    exec .recoveryImage s = .next (s.updMgmt fun m => m.boot s.someImage) := by
  show execRecoveryImage s = _
  simp [execRecoveryImage, h]

theorem Management.boot_of_accepts {m : Management} {x : Image} (h : m.accepts x = true) :
    m.boot x = { m with image := x, firmware := some x.version, ready := true } := if_pos h

end Sys2Proof.Machine

open Sys2Proof Sys2Proof.Machine

/-- Settles O46, clause by clause: each event's step answers what its lemma above says. That nothing is done where no firmware
runs is the model's reading of R357 (log 13). -/
theorem moduleEvents : Obligations.ModuleEvents := by
  intro s m sector pasid task va addr op width v pair location kind reply
  refine ⟨?scrub, ?link, ?peer, ?mailbox, ?idle, ?power, rfl, ⟨_, rfl, rfl, rfl⟩, rfl, rfl, exec_recoveryImage_of_firmware, ?image⟩
  case scrub =>
    rintro k rfl hn
    refine ⟨fun h => ⟨?_, exec_scrub_retried hn h⟩, exec_scrub_of_scrubbed hn⟩
    exact exec_scrub_of_not_scrubbed hn h true
  case link =>
    exact fun hp hl hr => ⟨exec_linkFailure_of_runs hp hl hr false va, exec_linkFailure_of_runs hp hl hr true va⟩
  case peer =>
    intro ha hw hd
    refine ⟨?read, ?write, ?step, ?other⟩
    case read =>
      rintro rfl
      exact exec_peerWindowAccess_of_none ha hw hd (peerKind_eq_none (by decide) (fun _ h => by cases h) v)
    case write =>
      rintro rfl
      exact exec_peerWindowAccess_of_some ha hw hd (peerKind_write width v)
    case step => exact fun f hf hb => exec_peerWindowAccess_of_some ha hw hd (peerKind_of_peerOp hf hb v)
    case other => exact fun h1 hf => exec_peerWindowAccess_of_none ha hw hd (peerKind_eq_none (by omega) hf v)
  case mailbox =>
    rintro k l hp hr rfl rfl
    obtain ⟨tiles, period, scrubbed, hperiod, hexec⟩ := exec_mailboxMessage_of_ready hp hr reply
    refine ⟨_, s.openMessage, hexec, s.length_openMessage, rfl, fun hfull => ?full, fun hle hrise => ?depth, hperiod, rfl⟩
    case full => exact congrArg (Map.set [] s.mgmt.mailboxes _) (s.fifoAfter_of_full hfull)
    case depth =>
      show (Map.get [] (Map.set [] s.mgmt.mailboxes _ _) _).length ≤ 16
      rw [Map.get_set_self [] _ hrise]
      exact s.length_fifoAfter_le hle
  case idle => exact fun hr hp => ⟨exec_mailboxMessage_of_not_ready hp hr reply, exec_powerMeasurement_of_not_ready hr⟩
  case power =>
    intro hr
    obtain ⟨draw, throttle, hdraw, h1, h16, hexec⟩ := exec_powerMeasurement_of_ready hr
    exact ⟨_, hexec, rfl, hdraw, h1, h16⟩
  case image =>
    intro h
    refine ⟨_, exec_recoveryImage_of_none h, rfl, fun ha => ?_⟩
    rw [State.updMgmt, Management.boot_of_accepts ha]
    exact ⟨rfl, rfl⟩
end

section
/-! PROOFS. The codec: a block that fits and passes the checks of fetch is decoded from its words again (O53), what the decoder
accepts is such a block (O54), and words written out from the encoding tables (O56). -/

namespace Sys2Proof.Laws.Parts

open Sys2Proof

/-- The codec's tables agree at every instruction. -/
theorem statement (i : Instr) : Statement i :=
  Instr.casesOn i nop endChain link brc brcd patch patchi patchv yieldSlot spawn svc trap brkp flti ldt ldg ldgr ldwb ldf ldx ldxl ldw
    ldq sub subc ldacq stt stg stgr stx stxl strd atadd atsmin atsmax atumin atumax atand ator atxor atxch atcas atfadd strel pub pubc
    semi semq semw sems regd ringd eos bari bara barw fence post join vadd vsub vmul vdiv vfma vfms vfnma vsqrt vrndi vmin vmax vabs
    vneg vcpys vexpx vmant vexpins vfexp2 vrcp vrsq vlog2f vmov vbcst viota vrun vlen viadd visub vimul vimad vimulh vimulhu vimin
    vimax vumin vumax vand vor vxor vnot vshl vshr vsra vclz vpop vld vst vldr vstr vcmp vicmp vsel vmand vmor vmxor vmnot vmcnt vmfst
    vrsum vrisum vrmax vrmin vrarg vrcnt vscan vcomp vexpd vgath vrco vrcot vtopk vhist vdot fcvt fcvti icvtf icvt lgenc lgdec qnt dqnt
    pk4 upk4 fclass mma mmas mmd mmc acz acr acw acmv drn winl wpool vbfly vtwd vcmul migr migrs mpin munpin madv mabrt mhot mqry
    tkpost tkcncl tkstat tkrsm tkpark lnnew lncnt lncncl grcnt grcncl jbcnt jbcncl semrd semwr semsig barini bararv barwt fqpop fbrd
    stoprd ctxsv ctxrs tlbinv hinv stepctl wdset budset caprd cycrd thyrd pclcfg blockFetch encodingFault blockComplete forkJoin
    spawnAccept spawnRefusalRaise guardFaultRaise ringSlotTake ringEndSkip subTileDelivery pubSlotDrain pageWalk accessEntryFreed
    promotion demotion migrationAccept chunkCopy commit migrationRelease migrationAbort abortComplete contextSave taskPark taskComplete
    budgetExhausted watchdog slotAged haltLine engineStop slotRelease heldRecordWrite scrub linkFailure fatalError launchLine
    launchPageOtherWrite ringSlotReread mailboxMessage launchPacket graphPacket modelPacket signalPacket waitPacket waitPacketComplete
    peerWindowAccess partialLaunchLine illegalInstruction hotnessSample hotnessDecay taskDispatch taskRestore temperatureTrip
    powerMeasurement coldReset warmReset recoveryImage pasnew pasdel qnew qdel hset grant mload munld dumpreg fwupd attest wreset

end Sys2Proof.Laws.Parts

namespace Sys2Proof

open Laws

/-! ### The fields of the words of a block (R23, R26, R28 to R30) -/

theorem Ctl.decodeCtl_encode {c : Ctl} (h : c.fits = true) (cls op sz opx : Nat) (b : LBlk) :
    decodeCtl (encodeDw0 cls op sz opx c b) (encodeDw1 c) = c := by
  simp only [Ctl.fits, Bool.and_eq_true, decide_eq_true_eq] at h
  simp (disch := omega) [decodeCtl, encodeDw0, encodeDw1, Nat.mod_eq_of_lt]

theorem Desc.decodeDesc_words {x : Desc} (h : x.fits = true) :
    decodeDesc (wordOf [(4, x.space), (12, x.mod), (48, x.base)]) (wordOf [(32, x.st0), (32, x.st1)])
      (wordOf [(32, x.st2), (32, x.st3)]) (wordOf [(16, x.seg), (16, x.ext2), (16, x.pad), (16, x.aux)]) = x := by
  simp only [Desc.fits, Bool.and_eq_true, decide_eq_true_eq] at h
  simp (disch := omega) [decodeDesc, Nat.mod_eq_of_lt]

/-- The words that encode an L-form block. -/
def lWords (cls op : Nat) (b : LBlk) : List Nat :=
  [encodeDw0 cls op 1 b.opx b.c b, encodeDw1 b.c, wordOf [(48, b.next), (1, b.lk), (2, b.rlvl), (13, b.cx)],
    wordOf [(16, b.b0), (16, b.b1), (16, b.b2), (16, b.b3)]] ++ encodeDesc b.a ++ encodeDesc b.b ++ encodeDesc b.d

theorem encode_of_lParts {i : Instr} {cls op : Nat} {b : LBlk} (h : lParts i = some (cls, op, b)) : encode i = lWords cls op b := by
  simp only [encode, h, lWords]

theorem encode_of_sParts {i : Instr} {cls op opx p q : Nat} {c : Ctl} (hl : lParts i = none)
    (h : sParts i = some (cls, op, opx, c, p, q)) : encode i = [encodeDw0 cls op 0 opx c default, encodeDw1 c, p, q] := by
  simp only [encode, hl, h]

theorem LBlk.fits_parts {b : LBlk} (h : b.fits = true) : b.c.fits = true ∧ b.a.fits = true ∧ b.b.fits = true ∧ b.d.fits = true := by
  simp only [LBlk.fits, Bool.and_eq_true] at h
  obtain ⟨⟨⟨hw, ha⟩, hb⟩, hd⟩ := h
  simp only [and_assoc] at hw
  exact ⟨hw.1, ha, hb, hd⟩

theorem decodeLBlk_lWords {b : LBlk} (h : b.fits = true) (cls op : Nat) : decodeLBlk (lWords cls op b) = b := by
  obtain ⟨hc, ha, hb, hd⟩ := LBlk.fits_parts h
  simp only [decodeLBlk, lWords, encodeDesc, dwAt, List.cons_append, List.nil_append, List.getD_cons_zero, List.getD_cons_succ,
    Ctl.decodeCtl_encode hc, Desc.decodeDesc_words ha, Desc.decodeDesc_words hb, Desc.decodeDesc_words hd]
  simp only [LBlk.fits, Bool.and_eq_true, decide_eq_true_eq] at h
  simp (disch := omega) [encodeDw0, Nat.mod_eq_of_lt]

/-! ### The checks of the decoder (R21, R22) -/

theorem firstFailing_eq_none {l : List (Bool × Cause)} : firstFailing l = none ↔ ∀ p ∈ l, p.1 = true := by
  induction l with
  | nil => simp [firstFailing]
  | cons p l ih =>
    obtain ⟨ok, c⟩ := p
    cases ok <;> simp [firstFailing, ih]

/-- Decoding accepts exactly the block that the fields name, where it encodes to the words again and passes the checks of fetch. -/
theorem decode_eq_ok {e : Engine} {addr : Nat} {ws : List Nat} {i : Instr} :
    decode e addr ws = .ok i ↔ rawDecode addr ws = .ok i ∧ encode i = ws ∧ fetchCheck e addr i = none := by
  have hok (j : Instr) : firstFailing (headChecks e addr j ++ (decide (encode j = ws), .reservedField) :: fieldChecks addr j) = none ↔
      encode j = ws ∧ fetchCheck e addr j = none := by
    simp only [fetchCheck, firstFailing_eq_none, List.mem_append, List.mem_cons, or_imp, forall_and, forall_eq, decide_eq_true_eq]
    tauto
  unfold decode
  cases hr : rawDecode addr ws with
  | error c => simp
  | ok j =>
    dsimp only
    cases hf : firstFailing (headChecks e addr j ++ (decide (encode j = ws), .reservedField) :: fieldChecks addr j) with
    | none =>
      have := (hok j).mp hf
      simp only [Except.ok.injEq]
      exact ⟨fun h => h ▸ ⟨rfl, this⟩, fun h => h.1⟩
    | some c =>
      simp only [reduceCtorEq, Except.ok.injEq, false_iff]
      rintro ⟨rfl, h⟩
      rw [(hok j).mpr h] at hf
      cases hf

/-! ### The block that the fields name (R17, R20) -/

section
variable {ws : List Nat} {addr : Nat} {i : Instr}

theorem rawDecode_of_lCtor {k : LBlk → Instr} (hsz : szOf (dwAt ws 0) = 1) (ha : addr % 128 = 0) (hc : bits (dwAt ws 0) 8 4 < 10)
    (hk : lCtor (bits (dwAt ws 0) 8 4) (bits (dwAt ws 0) 0 8) = some k) : rawDecode addr ws = .ok (k (decodeLBlk ws)) := by
  simp only [rawDecode, hsz, ha, ne_eq, not_true_eq_false, and_false, if_false, Nat.not_le.mpr hc, if_true, hk]

theorem rawDecode_of_sCtor (hsz : szOf (dwAt ws 0) = 0) (hc : bits (dwAt ws 0) 8 4 < 10)
    (hk : sCtor (bits (dwAt ws 0) 8 4) (bits (dwAt ws 0) 0 8) (bits (dwAt ws 0) 56 8) (decodeCtl (dwAt ws 0) (dwAt ws 1)) (dwAt ws 2)
      (dwAt ws 3) = some i)
    (hx : bits (dwAt ws 0) 56 8 < sOpxs (bits (dwAt ws 0) 8 4) (bits (dwAt ws 0) 0 8)) : rawDecode addr ws = .ok i := by
  simp only [rawDecode, hsz, Nat.zero_ne_one, false_and, if_false, Nat.not_le.mpr hc, hk, hx, if_true]

/-- What the fields name is an L-form of the opcode map, or an S-form of it. -/
theorem rawDecode_cases (h : rawDecode addr ws = .ok i) :
    (szOf (dwAt ws 0) = 1 ∧ ∃ k, lCtor (bits (dwAt ws 0) 8 4) (bits (dwAt ws 0) 0 8) = some k ∧ i = k (decodeLBlk ws)) ∨
    sCtor (bits (dwAt ws 0) 8 4) (bits (dwAt ws 0) 0 8) (bits (dwAt ws 0) 56 8) (decodeCtl (dwAt ws 0) (dwAt ws 1)) (dwAt ws 2)
      (dwAt ws 3) = some i := by
  simp only [rawDecode] at h
  split at h
  next => cases h
  next =>
    split at h
    next => cases h
    next =>
      split at h
      next hsz =>
        split at h
        next k hk =>
          cases h
          exact .inl ⟨hsz, k, hk, rfl⟩
        next => cases h
      next =>
        split at h
        next j hj =>
          split at h
          next => exact .inr (hj.trans (congrArg some (Except.ok.inj h)))
          next => cases h
        next => cases h

end

/-! ### Encoding and decoding again -/

theorem isBlock_cases {i : Instr} (h : i.isBlock = true) : (∃ cls op b, lParts i = some (cls, op, b)) ∨
    ∃ cls op opx c p q, lParts i = none ∧ sParts i = some (cls, op, opx, c, p, q) := by
  cases hl : lParts i with
  | some p => exact .inl ⟨p.1, p.2.1, p.2.2, rfl⟩
  | none =>
    simp only [Instr.isBlock, hl, Option.isSome_none, Bool.false_or, Option.isSome_iff_exists] at h
    obtain ⟨p, hp⟩ := h
    exact .inr ⟨p.1, p.2.1, p.2.2.1, p.2.2.2.1, p.2.2.2.2.1, p.2.2.2.2.2, rfl, hp⟩

theorem bits_encodeDw0 {cls op opx : Nat} (hcls : cls < 10) (hop : op < 256) (sz : Nat) (c : Ctl) (b : LBlk) :
    bits (encodeDw0 cls op sz opx c b) 0 8 = op ∧ bits (encodeDw0 cls op sz opx c b) 8 4 = cls ∧
    szOf (encodeDw0 cls op sz opx c b) = sz % 2 ∧ bits (encodeDw0 cls op sz opx c b) 56 8 = opx % 2 ^ 8 := by
  simp (disch := omega) [encodeDw0, szOf, Nat.mod_eq_of_lt]

theorem fits_of_lParts {i : Instr} {cls op : Nat} {b : LBlk} (h : lParts i = some (cls, op, b)) (hf : i.fits = true) : b.fits = true := by
  unfold lParts at h
  split at h <;> cases h <;> exact hf

theorem ctl_fits_of_sParts {i : Instr} {cls op opx p q : Nat} {c : Ctl} (h : sParts i = some (cls, op, opx, c, p, q))
    (hf : i.fits = true) : c.fits = true := by
  unfold sParts at h
  split at h <;> simp only [Option.some.injEq, Prod.mk.injEq, reduceCtorEq] at h <;> obtain ⟨-, -, -, rfl, -⟩ := h <;>
    simp only [Instr.fits, Bool.and_eq_true] at hf <;> simp only [hf]

/-- The variant of an S-form has eight bits. -/
theorem opx_lt_sOpxs {cls op opx : Nat} (hx : opx < sOpxs cls op) : opx < 2 ^ 8 := by
  have : sOpxs cls op ≤ 5 := by
    unfold sOpxs
    split <;> decide
  omega

/-- An L-form that passes the checks of fetch stands on 128 bytes. -/
theorem aligned_of_fetchCheck {e : Engine} {addr cls op : Nat} {i : Instr} {b : LBlk} (hl : lParts i = some (cls, op, b))
    (hc : fetchCheck e addr i = none) : addr % 128 = 0 := by
  rw [fetchCheck, firstFailing_eq_none] at hc
  unfold headChecks at hc
  simp only [hl] at hc
  split at hc <;> simp only [List.cons_append, List.forall_mem_cons] at hc
  · exact of_decide_eq_true hc.1
  · exact absurd hc.1 (by decide)

/-- The variant of an S-form that passes the checks of fetch is one of its variants. -/
theorem opx_of_fetchCheck {e : Engine} {addr cls op opx p q : Nat} {c : Ctl} {i : Instr} (hl : lParts i = none)
    (h : sParts i = some (cls, op, opx, c, p, q)) (hc : fetchCheck e addr i = none) : opx < sOpxs cls op := by
  rw [fetchCheck, firstFailing_eq_none] at hc
  unfold headChecks at hc
  simp only [hl, h, List.cons_append, List.forall_mem_cons] at hc
  exact of_decide_eq_true hc.1

theorem rawDecode_encode_lform {e : Engine} {addr cls op : Nat} {i : Instr} {b : LBlk} (hl : lParts i = some (cls, op, b))
    (hf : i.fits = true) (hc : fetchCheck e addr i = none) : rawDecode addr (encode i) = .ok i := by
  obtain ⟨hcls, hop, -, k, hk, rfl⟩ := (Parts.statement i).1 cls op b hl
  obtain ⟨h0, h8, h12, -⟩ := bits_encodeDw0 hcls hop (opx := b.opx) 1 b.c b
  have hr := rawDecode_of_lCtor (ws := lWords cls op b) (k := k) h12 (aligned_of_fetchCheck hl hc) (h8.trans_lt hcls)
    ((congrArg₂ lCtor h8 h0).trans hk)
  rw [encode_of_lParts hl, hr, decodeLBlk_lWords (fits_of_lParts hl hf)]

theorem rawDecode_encode_sform {e : Engine} {addr cls op opx p q : Nat} {c : Ctl} {i : Instr} (hl : lParts i = none)
    (hs : sParts i = some (cls, op, opx, c, p, q)) (hf : i.fits = true) (hc : fetchCheck e addr i = none) :
    rawDecode addr (encode i) = .ok i := by
  obtain ⟨hcls, hop, -, hk⟩ := (Parts.statement i).2.1 cls op opx c p q hs
  have hx := opx_of_fetchCheck hl hs hc
  obtain ⟨h0, h8, h12, h56⟩ := bits_encodeDw0 hcls hop (opx := opx) 0 c default
  rw [encode_of_sParts hl hs]
  have h56' := h56.trans (Nat.mod_eq_of_lt (opx_lt_sOpxs hx))
  refine rawDecode_of_sCtor h12 (h8.trans_lt hcls) ?_ ?_ <;> simp only [dwAt, List.getD_cons_zero, List.getD_cons_succ, h0, h8, h56']
  · rw [Ctl.decodeCtl_encode (ctl_fits_of_sParts hs hf), hk hf]
  · exact hx

/-! ### What the fields name is well-formed (R20) -/

theorem bits_lt_of_le (x lo : Nat) {w n : Nat} (h : 2 ^ w ≤ n) : bits x lo w < n := (bits_lt x lo w).trans_le h

theorem Ctl.fits_decodeCtl (w0 w1 : Nat) : (decodeCtl w0 w1).fits = true := by
  simp (disch := decide) only [Ctl.fits, decodeCtl, bits_lt_of_le, decide_true, Bool.and_self]

theorem Desc.fits_decodeDesc (wa wb wc wd : Nat) : (decodeDesc wa wb wc wd).fits = true := by
  simp (disch := decide) only [Desc.fits, decodeDesc, bits_lt_of_le, decide_true, Bool.and_self]

theorem LBlk.fits_decodeLBlk (ws : List Nat) : (decodeLBlk ws).fits = true := by
  simp (disch := decide) only [LBlk.fits, decodeLBlk, Ctl.fits_decodeCtl, Desc.fits_decodeDesc, bits_lt_of_le, decide_true, Bool.and_self]

theorem fits_of_sCtor {cls op opx p q : Nat} {c : Ctl} {i : Instr} (h : sCtor cls op opx c p q = some i) (hc : c.fits = true)
    (hx : opx < 2 ^ 8) : i.fits = true := by
  unfold sCtor at h
  split at h <;> cases h <;> simp (disch := decide) only [Instr.fits, hc, hx, bits_lt_of_le, decide_true, Bool.and_self]

/-- The constructor of an L-form carries its block. -/
theorem lCtor_of_lParts {i : Instr} {cls op : Nat} {b : LBlk} (h : lParts i = some (cls, op, b)) :
    ∃ k, lCtor cls op = some k ∧ ∀ x, lParts (k x) = some (cls, op, x) ∧ (k x).fits = x.fits := by
  unfold lParts at h
  split at h <;> cases h <;> exact ⟨_, rfl, fun _ => ⟨rfl, rfl⟩⟩

theorem isBlock_of_fetchCheck {e : Engine} {addr : Nat} {i : Instr} (hc : fetchCheck e addr i = none) : i.isBlock = true := by
  rw [fetchCheck, firstFailing_eq_none] at hc
  unfold headChecks at hc
  unfold Instr.isBlock
  split at hc
  next h => simp [h]
  next hl =>
    split at hc
    next h => simp [h]
    next => simp at hc

/-- A form's words say whether it is an L-form (R17). -/
theorem lParts_of_szOf {i : Instr} (hb : i.isBlock = true) (hsz : szOf (dwAt (encode i) 0) = 1) :
    ∃ cls op b, lParts i = some (cls, op, b) := by
  rcases isBlock_cases hb with h | ⟨cls, op, opx, c, p, q, hl, hs⟩
  · exact h
  · obtain ⟨hcls, hop, -⟩ := (Parts.statement i).2.1 cls op opx c p q hs
    rw [encode_of_sParts hl hs] at hsz
    exact absurd ((bits_encodeDw0 hcls hop 0 c default).2.2.1.symm.trans hsz) (by decide)

theorem fits_of_rawDecode {addr : Nat} {i : Instr} (hb : i.isBlock = true) (h : rawDecode addr (encode i) = .ok i) : i.fits = true := by
  rcases rawDecode_cases h with ⟨hsz, k, hk, hi⟩ | hs
  · obtain ⟨cls, op, b, hl⟩ := lParts_of_szOf hb hsz
    obtain ⟨hcls, hop, -⟩ := (Parts.statement i).1 cls op b hl
    obtain ⟨h0, h8, -⟩ := bits_encodeDw0 hcls hop (opx := b.opx) 1 b.c b
    have hw : dwAt (encode i) 0 = encodeDw0 cls op 1 b.opx b.c b := by rw [encode_of_lParts hl]; rfl
    obtain ⟨k', hk', hx⟩ := lCtor_of_lParts hl
    rw [hw, h0, h8, hk', Option.some.injEq] at hk
    rw [hi, ← hk, (hx _).2]
    exact LBlk.fits_decodeLBlk _
  · exact fits_of_sCtor hs (Ctl.fits_decodeCtl _ _) (bits_lt _ _ _)

end Sys2Proof

open Sys2Proof

/-- Settles O53: the fields of the words that encode the block name it again, and the checks it passes are those of the decoder. -/
theorem blockRoundTrip : Obligations.BlockRoundTrip := by
  intro e addr i hb hw
  simp only [wellFormed, hb, Bool.not_true, Bool.false_or, Bool.and_eq_true, beq_iff_eq] at hw
  obtain ⟨hf, hc⟩ := hw
  refine decode_eq_ok.mpr ⟨?_, rfl, hc⟩
  rcases isBlock_cases hb with ⟨cls, op, b, hl⟩ | ⟨cls, op, opx, c, p, q, hl, hs⟩
  · exact rawDecode_encode_lform hl hf hc
  · exact rawDecode_encode_sform hl hs hf hc

/-- Settles O54: the decoder accepts only what encodes to its words again, and the fields of those words fit. -/
theorem decodeSound : Obligations.DecodeSound := by
  intro e addr ws i h
  obtain ⟨hr, rfl, hc⟩ := decode_eq_ok.mp h
  have hb := isBlock_of_fetchCheck hc
  refine ⟨hb, ?_, rfl⟩
  simp only [wellFormed, fits_of_rawDecode hb hr, hc, beq_self_eq_true, Bool.or_true, Bool.and_self]

/-- Settles O56: the decoder reads each word out as its layout in the spec says. -/
theorem decodeWords : Obligations.DecodeWords := by
  unfold Obligations.DecodeWords
  decide +kernel
end

section
/-! PROOFS. X-forms: their words (O55), and the illegal-instruction exception that they take in user mode (O28). -/

namespace Sys2Proof

/-! ### The words of X-forms (R49, R50) -/

/-- The word of an X-form by its fields. -/
def xWord (f3 f7 rd rs1 rs2 : Nat) : Nat := wordOf [(7, 0x0B), (5, rd), (3, f3), (5, rs1), (5, rs2), (7, f7)]

section
variable {f3 f7 rd rs1 rs2 : Nat} (hrd : rd < 32) (h3 : f3 < 8) (h1 : rs1 < 32) (h2 : rs2 < 32) (h7 : f7 < 128)
include hrd h3 h1 h2 h7

theorem xWord_eq : xWord f3 f7 rd rs1 rs2 = 0x0B + 2 ^ 7 * rd + 2 ^ 12 * f3 + 2 ^ 15 * rs1 + 2 ^ 20 * rs2 + 2 ^ 25 * f7 := by
  simp only [xWord, wordOf]
  omega

theorem bits_xWord : bits (xWord f3 f7 rd rs1 rs2) 12 3 = f3 ∧ bits (xWord f3 f7 rd rs1 rs2) 25 7 = f7 ∧
    bits (xWord f3 f7 rd rs1 rs2) 7 5 = rd ∧ bits (xWord f3 f7 rd rs1 rs2) 15 5 = rs1 ∧ bits (xWord f3 f7 rd rs1 rs2) 20 5 = rs2 := by
  simp (disch := omega) [xWord, Nat.mod_eq_of_lt]

/-- A word that no X-form answers to is the illegal instruction. -/
theorem decodeX_of_none (h : xCtor f3 f7 rd rs1 rs2 = none) :
    decodeX (xWord f3 f7 rd rs1 rs2) = .illegalInstruction (xWord f3 f7 rd rs1 rs2) := by
  obtain ⟨e3, e7, ed, e1, e2⟩ := bits_xWord hrd h3 h1 h2 h7
  simp only [decodeX, e3, e7, ed, e1, e2, h]

/-- A word is the X-form it names where the registers r1 and r2 that the form encodes are those of the word. -/
theorem decodeX_of_some {i : Instr} {r1 r2 : Nat} (h : xCtor f3 f7 rd rs1 rs2 = some i) (hp : xParts i = some (f3, f7, rd, r1, r2))
    (hr1 : r1 < 32) (hr2 : r2 < 32) : decodeX (xWord f3 f7 rd rs1 rs2) =
      if r1 = rs1 ∧ r2 = rs2 then i else .illegalInstruction (xWord f3 f7 rd rs1 rs2) := by
  obtain ⟨e3, e7, ed, e1, e2⟩ := bits_xWord hrd h3 h1 h2 h7
  obtain ⟨-, -, -, g1, g2⟩ := bits_xWord hrd h3 hr1 hr2 h7
  have he : encodeX i = some (xWord f3 f7 rd rs1 rs2) ↔ r1 = rs1 ∧ r2 = rs2 := by
    simp only [encodeX, hp, Option.some.injEq]
    refine ⟨fun hw => ?_, fun hw => by rw [hw.1, hw.2]; rfl⟩
    change xWord f3 f7 rd r1 r2 = _ at hw
    rw [hw, e1] at g1
    rw [hw, e2] at g2
    exact ⟨g1.symm, g2.symm⟩
  simp only [decodeX, e3, e7, ed, e1, e2, h, he]

end

/-- A register that a form encodes is the word's, where the form uses it or it is x0. -/
theorem usedReg_eq_iff {u : Bool} {r : Nat} : (if u = true then r else 0) = r ↔ u = true ∨ r = 0 := by
  cases u <;> simp [eq_comm]

open Machine

/-- A row of the table of X-forms says what the codec's own tables say. -/
theorem xParts_of_mem_xTable : ∀ e ∈ xTable, ∀ rd rs1 rs2, xCtor e.1 e.2.1 rd rs1 rs2 = some (e.2.2.1 rd rs1 rs2) ∧
    xParts (e.2.2.1 rd rs1 rs2) = some (e.1, e.2.1, rd, if e.2.2.2.1 then rs1 else 0, if e.2.2.2.2 then rs2 else 0) := by
  simp [xTable, xCtor, xParts]

theorem mem_xTable_of_xCtor {f3 f7 rd rs1 rs2 : Nat} {i : Instr} (h : xCtor f3 f7 rd rs1 rs2 = some i) :
    ∃ k u1 u2, (f3, f7, k, u1, u2) ∈ xTable := by
  unfold xCtor at h
  split at h <;> cases h <;> simp [xTable]

end Sys2Proof

open Sys2Proof Sys2Proof.Machine

/-- Settles O55: a word of fields in range decodes as the opcode map has it, which the table of X-forms lists row by row. -/
theorem xEncoding : Obligations.XEncoding := by
  rintro w f3 f7 rd rs1 rs2 hw hrd h3 h1 h2 h7
  obtain rfl := hw.trans (xWord_eq hrd h3 h1 h2 h7).symm
  refine ⟨fun k u1 u2 hk => ?listed, fun hk => ?unlisted, fun s => rfl⟩
  case listed =>
    obtain ⟨hc, hp⟩ := xParts_of_mem_xTable _ hk rd rs1 rs2
    have hd := decodeX_of_some hrd h3 h1 h2 h7 hc hp (by split <;> omega) (by split <;> omega)
    simp only [usedReg_eq_iff] at hd
    refine ⟨fun hu1 hu2 => ⟨hd.trans (if_pos ⟨hu1, hu2⟩), ?_⟩, fun hu => hd.trans (if_neg ?_)⟩
    · dsimp only at hp
      rw [usedReg_eq_iff.mpr hu1, usedReg_eq_iff.mpr hu2] at hp
      rw [encodeX, hp]
      rfl
    · rintro ⟨hu1, hu2⟩
      rcases hu with ⟨rfl, hr⟩ | ⟨rfl, hr⟩
      · exact hr (hu1.resolve_left (by decide))
      · exact hr (hu2.resolve_left (by decide))
  case unlisted =>
    refine decodeX_of_none hrd h3 h1 h2 h7 (Option.eq_none_iff_forall_ne_some.mpr fun i hi => ?_)
    obtain ⟨k, u1, u2, hm⟩ := mem_xTable_of_xCtor hi
    exact hk k u1 u2 hm

namespace Sys2Proof.Machine

/-! ### X-forms in user mode (R50, R291) -/

section
variable {s : State} (hm : (s.hartAt s.hart).mode = 0)
include hm

theorem State.xrun_user (i : Instr) (rd : Nat) (o : XOut) : s.xrun i rd o = .next (s.trapX ((encodeX i).getD 0)) := if_pos hm

theorem State.xrunTo_user (i : Instr) (rd a : Nat) (o : XOut) : s.xrunTo i rd a o = .next (s.trapX ((encodeX i).getD 0)) := by
  unfold State.xrunTo
  cases o with
  | error c => exact State.xrun_user hm i rd _
  | ok y => exact (if_neg fun h => h.1 hm).trans (State.xrun_user hm i rd _)

theorem exec_barwt_user (rd rs1 rs2 : Nat) :
    exec (.barwt rd rs1 rs2) s = .next (s.trapX ((encodeX (.barwt rd rs1 rs2)).getD 0)) := by
  show execBarwt rd rs1 rs2 s = _
  unfold execBarwt
  split
  · exact State.xrun_user hm _ _ _
  · exact if_pos hm

/-- Every X-form runs by one of the shared ways to run it, or looks at the mode itself. -/
theorem exec_user {i : Instr} {p : Nat × Nat × Nat × Nat × Nat} (hx : xParts i = some p) :
    exec i s = .next (s.trapX ((encodeX i).getD 0)) := by
  cases i <;> cases hx
  case tkpost | ctxsv => exact if_pos hm
  case pclcfg => exact if_pos (.inl (by rw [hm]; decide))
  case tkpark => exact (if_neg fun h => h.1 hm).trans (State.xrun_user hm _ _ _)
  case semsig => exact (if_neg fun h => h.1 hm).trans (State.xrun_user hm _ _ _)
  case barwt => exact exec_barwt_user hm _ _ _
  case fqpop | stoprd | thyrd => exact State.xrunTo_user hm _ _ _ _
  case cycrd rd => exact State.xrun_user hm (.cycrd rd) rd (.ok (s, s.cycle))
  all_goals exact State.xrun_user hm _ _ _

end

theorem xParts_of_encodeX {i : Instr} {w : Nat} (h : encodeX i = some w) : ∃ p, xParts i = some p := by
  unfold encodeX at h
  split at h
  next p hp => exact ⟨_, hp⟩
  next => cases h

end Sys2Proof.Machine

/-- Settles O28: the trap's state is that of Hart.trap, written out, and every X-form reaches it in user mode. -/
theorem userMode : Obligations.UserMode := by
  rintro s t i h w rd rs1 rs2 rfl ht -
  have htrap : s.trapX w = t := ht.symm
  refine ⟨fun hw hm => ?_, fun hi hw hk => ?_, congrArg Host.Outcome.next htrap⟩
  · obtain ⟨p, hp⟩ := xParts_of_encodeX hw
    rw [exec_user hm hp, hw, Option.getD_some, htrap]
  · subst hi
    rw [← htrap, ← Option.getD_some (a := w) (b := 0), ← hw]
    exact if_pos hk
end

section
/-! PROOFS. L-form blocks over their nest: what the iterations of a run end in, and the counters of R29 (O13). -/

namespace Sys2Proof.Machine

/-! ### The forms that run over a nest -/

/-- Executing a form is running its block with the form's own behaviour. -/
theorem exec_nestForm : ∀ e ∈ nestForms, ∀ (b : LBlk) (s : State), exec (e.ins b) s = .next (s.runBlock (e.beh b) (e.ins b)) := by
  simp only [nestForms, memoryNests, vectorNests, sequenceNests, matrixNests, atomForms, floatForms, intForms, maskForms, convertForms,
    reductionForms, List.map_cons, List.map_nil, List.cons_append, List.nil_append, List.forall_mem_cons, List.not_mem_nil, false_imp_iff,
    implies_true, and_true]
  and_intros <;> exact fun _ _ => rfl

/-- A form's place in the opcode map does not rest on the block's fields. -/
theorem lParts_nestForm : ∀ e ∈ nestForms, ∃ cls op, ∀ b, lParts (e.ins b) = some (cls, op, b) := by
  simp only [nestForms, memoryNests, vectorNests, sequenceNests, matrixNests, atomForms, floatForms, intForms, maskForms, convertForms,
    reductionForms, List.map_cons, List.map_nil, List.cons_append, List.nil_append, List.forall_mem_cons, List.not_mem_nil, false_imp_iff,
    implies_true, and_true]
  and_intros <;> exact ⟨_, _, fun _ => rfl⟩

/-- Class and major opcode of an L-form. -/
def lKey (i : Instr) : Option (Nat × Nat) := (lParts i).map fun p => (p.1, p.2.1)

/-- Every L-form but those of streams has the class and major opcode of a form of the list. -/
theorem lKey_nestForm {i : Instr} {p : Nat × Nat × LBlk} (h : lParts i = some p)
    (hs : ∀ b, i ≠ .sub b ∧ i ≠ .subc b ∧ i ≠ .pub b ∧ i ≠ .pubc b) : nestForms.any (fun e => lKey (e.ins {}) == lKey i) = true := by
  cases i <;> cases h
  case sub b => exact absurd rfl (hs b).1
  case subc b => exact absurd rfl (hs b).2.1
  case pub b => exact absurd rfl (hs b).2.2.1
  case pubc b => exact absurd rfl (hs b).2.2.2
  all_goals rfl

theorem exists_nestForm {i : Instr} (h : (lParts i).isSome = true)
    (hs : ∀ b, i ≠ .sub b ∧ i ≠ .subc b ∧ i ≠ .pub b ∧ i ≠ .pubc b) : ∃ e ∈ nestForms, ∃ b, i = e.ins b := by
  obtain ⟨⟨cls, op, b⟩, hp⟩ := Option.isSome_iff_exists.mp h
  obtain ⟨e, he, hk⟩ := List.any_eq_true.mp (lKey_nestForm hp hs)
  obtain ⟨cls', op', hl⟩ := lParts_nestForm e he
  simp only [lKey, hp, hl, Option.map_some, beq_iff_eq, Option.some.injEq, Prod.mk.injEq] at hk
  obtain ⟨rfl, rfl⟩ := hk
  obtain ⟨-, -, -, k, hk, hi⟩ := (Laws.Parts.statement i).1 _ _ b hp
  obtain ⟨-, -, -, k', hk', he'⟩ := (Laws.Parts.statement (e.ins b)).1 _ _ b (hl b)
  refine ⟨e, he, b, hi.symm.trans ?_⟩
  rw [← he', Option.some.inj (hk.symm.trans hk')]

/-! ### The run over a nest -/

@[simp] theorem Run.read_ctr (x : Run) (beh : Behaviour) (r : EngRef) : (x.read beh r).f.ctr = x.f.ctr := rfl

theorem Run.after_ctr (x : Run) (r : EngRef) (o : IterOut) : (x.after r o).f.ctr = x.f.ctr + 1 := by
  unfold Run.after
  dsimp only
  split <;> rfl

section
variable {beh : Behaviour} {r : EngRef} {k m n : Nat} {x0 y : Run} (hy : Nest beh r m x0 y) (hc : y.f.ctr = x0.f.ctr + m)
include hy hc

theorem Nest.ends_done (hf : y.fault = none) :
    NestEnds beh r k m x0 (y.s.endRun r k { y.f with phase := .done } y.fork y.fault) :=
  ⟨m, y, hy, Nat.le_refl m, hc, .inl ⟨rfl, hf, by rw [hf]⟩⟩

theorem Nest.ends_ring (hn : m < n) (hf : y.fault = none) (hr : rqRings y.f.instr ≠ []) (ht : y.f.taken = []) :
    NestEnds beh r k n x0 (y.s.endRun r k { y.f with phase := .ring } y.fork y.fault) :=
  ⟨m, y, hy, hn.le, hc, .inr (.inl ⟨hn, hf, hr, ht, by rw [hf]⟩)⟩

theorem Nest.ends_pause (hn : m < n) (hf : y.fault = none) (hp : 0 < m ∨ y.late r = true) :
    NestEnds beh r k n x0 (y.s.endRun r k { y.f with phase := .run } y.fork y.fault) :=
  ⟨m, y, hy, hn.le, hc, .inr (.inr (.inl ⟨hp, hn, hf, by rw [hf]⟩))⟩

theorem Nest.ends_fault (hn : m ≤ n) (hf : y.fault.isSome = true) : NestEnds beh r k n x0 (y.s.endRun r k y.f y.fork y.fault) := by
  obtain ⟨e, he⟩ := Option.isSome_iff_exists.mp hf
  exact ⟨m, y, hy, hn, hc, .inr (.inr (.inr (.inl ⟨e, he, by rw [he]⟩)))⟩

theorem Nest.ends_read {z : Run} (hn : m < n) (hf : y.fault = none) (hz : y.read beh r = z) (hb : z.fault.isSome = true) :
    NestEnds beh r k n x0 (z.s.endRun r k z.f z.fork z.fault) := by
  obtain ⟨e, he⟩ := Option.isSome_iff_exists.mp hb
  exact ⟨m, y, hy, hn.le, hc, .inr (.inr (.inr (.inr ⟨e, z, hn, hf, hz, .inl ⟨he, by rw [he]⟩⟩)))⟩

theorem Nest.ends_body {z : Run} {e : BlockFault} (hn : m < n) (hf : y.fault = none) (hz : y.read beh r = z) (hr : z.fault = none)
    (he : beh.body (z.seen r) r z.f z.f.ctr = .error e) :
    NestEnds beh r k n x0 (z.s.endRun r k z.f z.fork (some { e with ctr := ctrOf z.f.instr z.f.ctr })) :=
  ⟨m, y, hy, hn.le, hc, .inr (.inr (.inr (.inr ⟨e, z, hn, hf, hz, .inr ⟨hr, he, rfl⟩⟩)))⟩

end

/-- What n further iterations end in, after m of a run: the cases are those of runIters. -/
theorem nestEnds_runIters (beh : Behaviour) (r : EngRef) (k : Nat) {x0 : Run} : ∀ (n m : Nat) (x : Run), Nest beh r m x0 x →
    x.fault = none → x.f.ctr = x0.f.ctr + m → NestEnds beh r k (m + n) x0
      ((runIters beh r n x).s.endRun r k (runIters beh r n x).f (runIters beh r n x).fork (runIters beh r n x).fault)
  | 0, _, _, hx, hf, hc => hx.ends_done hc hf
  | n + 1, m, x, hx, hf, hc => by
    have hn : m < m + (n + 1) := by omega
    rw [runIters]
    split
    next hr =>
      simp only [Bool.and_eq_true, Bool.not_eq_true', List.isEmpty_eq_false_iff, List.isEmpty_iff] at hr
      exact hx.ends_ring hc hn hf hr.1 hr.2
    next hr =>
      have ht : rqRings x.f.instr = [] ∨ x.f.taken ≠ [] := by simpa [or_iff_not_imp_left] using hr
      split
      next hl => exact hx.ends_pause hc hn hf (.inr hl)
      next hl =>
        dsimp only
        split
        next hz => exact hx.ends_read hc hn hf rfl hz
        next hz =>
          have hz' : (x.read beh r).fault = none := by simpa using hz
          split
          next e he => exact hx.ends_body (z := x.read beh r) hc hn hf rfl hz' he
          next o ho =>
            have hy : Nest beh r (m + 1) x0 ((x.read beh r).after r o) := .iter hx hf ht (by simpa using hl) rfl hz' ho
            have hyc : ((x.read beh r).after r o).f.ctr = x0.f.ctr + (m + 1) := by
              rw [Run.after_ctr, Run.read_ctr, hc]
              rfl
            split
            next hb => exact hy.ends_fault hyc hn hb
            next hb =>
              have hb' : ((x.read beh r).after r o).fault = none := by simpa using hb
              split
              next hp => exact hy.ends_pause hyc (by omega) hb' (.inl (Nat.succ_pos m))
              next => exact Nat.succ_add_eq_add_succ m n ▸ nestEnds_runIters beh r k n (m + 1) _ hy hb' hyc

/-- The block at a found index is the one looked for (R251). -/
theorem instr_of_findRun {i : Instr} : ∀ {l : List InFlight} {j k : Nat}, findRun i l j = some k →
    ∃ n f, k = j + n ∧ l[n]? = some f ∧ f.instr = i
  | [], _, _, h => by cases h
  | g :: l, j, k, h => by
    rw [findRun] at h
    split at h
    next hg => exact ⟨0, g, (Option.some.inj h).symm, rfl, hg.2⟩
    next =>
      obtain ⟨n, f, rfl, hf, hi⟩ := instr_of_findRun h
      exact ⟨n + 1, f, by omega, hf, hi⟩

section
variable {s : State} {i : Instr} {beh : Behaviour}

/-- A block that may issue and passes its own check issues and runs from its first iteration (R88). -/
theorem State.runBlock_issues {hd : Option Handle} (h : s.Issues i) (hc : beh.check s s.ref = .ok hd) :
    s.runBlock beh i = (s.startBlock s.ref i hd).continueBlock beh s.ref (s.nextIndex s.ref) := by
  unfold State.runBlock
  simp only [h.fresh, h.gate, h.fine, hc, h.begins hd, Bool.false_eq_true, if_false]

theorem State.runBlock_refused {e : BlockFault} (h : s.Issues i) (hc : beh.check s s.ref = .error e) :
    s.runBlock beh i = s.issueStop s.ref e := by
  unfold State.runBlock
  simp only [h.fresh, h.gate, h.fine, hc]

/-- A block in flight whose chain may run goes on (R29). -/
theorem State.runBlock_runs {k : Nat} {f : InFlight} (hk : findRun i (s.chain s.ref).inflight 0 = some k)
    (hf : (s.chain s.ref).inflight[k]? = some f) (hr : s.runnable s.ref = true) (hm : s.mayIterate s.ref k = true) :
    s.runBlock beh i = s.continueBlock beh s.ref k := by
  unfold State.runBlock
  simp only [hk, hf, Option.any_some, hr, Bool.true_or, hm, Bool.and_self, if_true]

theorem State.Issues.nestEnds {hd : Option Handle} (h : s.Issues i) (hc : beh.check s s.ref = .ok hd) :
    NestEnds beh s.ref (s.nextIndex s.ref) (iterationsOf i) (s.firstRun i hd) (s.runBlock beh i) := by
  obtain ⟨-, -, -, -, hs⟩ := s.startBlock_keeps i hd
  have hp : ((s.startBlock s.ref i hd).slotAt s.ref.tile s.ref.slot).parking = false := by
    rw [hs]
    exact State.parking_of_runnable (State.runnable_of_gate h.gate)
  rw [State.runBlock_issues h hc, State.continueBlock_eq beh hp (s.entry_startBlock i hd)]
  have := nestEnds_runIters beh s.ref (s.nextIndex s.ref) (iterationsOf i) 0 _ (.start (s.firstRun i hd)) rfl rfl
  rwa [Nat.zero_add] at this

theorem State.nestEnds_of_findRun {k : Nat} {f : InFlight} (hk : findRun i (s.chain s.ref).inflight 0 = some k)
    (hf : (s.chain s.ref).inflight[k]? = some f) (hr : s.runnable s.ref = true) (hm : s.mayIterate s.ref k = true) :
    NestEnds beh s.ref k (iterationsOf i - f.ctr) { s := s, v := s.viewOf s.ref k, f := f } (s.runBlock beh i) := by
  obtain ⟨n, g, rfl, hg, rfl⟩ := instr_of_findRun hk
  rw [Nat.zero_add] at hk hf hm ⊢
  obtain rfl : g = f := Option.some.inj (hg.symm.trans hf)
  rw [State.runBlock_runs hk hf hr hm, State.continueBlock_eq beh (State.parking_of_runnable hr) hf]
  have := nestEnds_runIters beh s.ref n (iterationsOf g.instr - g.ctr) 0 _ (.start { s := s, v := s.viewOf s.ref n, f := g }) rfl rfl
  rwa [Nat.zero_add] at this

end

/-! ### Counters of the nest (R29) -/

/-- A round of an inner loop of n in the qth round of the loop around it. -/
theorem round_mod_div {c n : Nat} (q : Nat) (h : c < n) : (c + n * q) % n = c ∧ (c + n * q) / n = q := by
  rw [Nat.add_mul_mod_self_left, Nat.mod_eq_of_lt h, Nat.add_mul_div_left _ _ (by omega), Nat.div_eq_of_lt h, Nat.zero_add]
  exact ⟨rfl, rfl⟩

theorem round_lt {c n q m : Nat} (h : c < n) (hq : q < m) : c + n * q < n * m := by
  have : n * (q + 1) ≤ n * m := Nat.mul_le_mul_left n hq
  rw [Nat.mul_succ] at this
  omega

theorem LBlk.counters_round {b : LBlk} {c0 c1 c2 c3 : Nat} (h0 : c0 ≤ b.b0) (h1 : c1 ≤ b.b1) (h2 : c2 ≤ b.b2) :
    b.counters (c0 + (b.b0 + 1) * (c1 + (b.b1 + 1) * (c2 + (b.b2 + 1) * c3))) = (c0, c1, c2, c3) := by
  obtain ⟨m0, d0⟩ := round_mod_div (c1 + (b.b1 + 1) * (c2 + (b.b2 + 1) * c3)) (Nat.lt_succ_of_le h0)
  obtain ⟨m1, d1⟩ := round_mod_div (c2 + (b.b2 + 1) * c3) (Nat.lt_succ_of_le h1)
  obtain ⟨m2, d2⟩ := round_mod_div c3 (Nat.lt_succ_of_le h2)
  simp only [LBlk.counters, m0, d0, m1, d1, m2, d2]

theorem LBlk.round_lt_iterations {b : LBlk} {c0 c1 c2 c3 : Nat} (h0 : c0 ≤ b.b0) (h1 : c1 ≤ b.b1) (h2 : c2 ≤ b.b2) (h3 : c3 ≤ b.b3) :
    c0 + (b.b0 + 1) * (c1 + (b.b1 + 1) * (c2 + (b.b2 + 1) * c3)) < b.iterations := by
  have := round_lt (Nat.lt_succ_of_le h0) (round_lt (Nat.lt_succ_of_le h1) (round_lt (Nat.lt_succ_of_le h2) (Nat.lt_succ_of_le h3)))
  simpa only [LBlk.iterations, Nat.mul_assoc] using this

/-- The round in which an iteration falls. -/
theorem LBlk.round_counters {b : LBlk} {k : Nat} (h : k < b.iterations) : ∃ c0 c1 c2 c3, c0 ≤ b.b0 ∧ c1 ≤ b.b1 ∧ c2 ≤ b.b2 ∧ c3 ≤ b.b3 ∧
    k = c0 + (b.b0 + 1) * (c1 + (b.b1 + 1) * (c2 + (b.b2 + 1) * c3)) := by
  refine ⟨k % (b.b0 + 1), k / (b.b0 + 1) % (b.b1 + 1), k / (b.b0 + 1) / (b.b1 + 1) % (b.b2 + 1), k / (b.b0 + 1) / (b.b1 + 1) / (b.b2 + 1),
    Nat.le_of_lt_succ (Nat.mod_lt _ (Nat.succ_pos _)), Nat.le_of_lt_succ (Nat.mod_lt _ (Nat.succ_pos _)),
    Nat.le_of_lt_succ (Nat.mod_lt _ (Nat.succ_pos _)), Nat.le_of_lt_succ ?_, ?_⟩
  · rw [Nat.div_div_eq_div_mul, Nat.div_div_eq_div_mul, Nat.div_lt_iff_lt_mul (by positivity), Nat.mul_comm]
    simpa only [LBlk.iterations, Nat.mul_assoc] using h
  · rw [Nat.mod_add_div, Nat.mod_add_div, Nat.mod_add_div]

end Sys2Proof.Machine

open Sys2Proof Sys2Proof.Machine

/-- Settles O13, by induction on the iterations that a run has still to do; the counters are those of nested division. That a
faulting iteration leaves none of its writes and that a later one reads what earlier ones wrote is the model's reading (log 41),
as are the points at which a block pauses (log 2). -/
theorem nestOrder : Obligations.NestOrder := by
  refine ⟨fun i => exists_nestForm, ?runs, ?counters, fun b k => LBlk.round_counters⟩
  case runs =>
    rintro e he b s i beh rfl rfl
    rw [exec_nestForm e he b s]
    exact ⟨fun hd hi hc => ⟨_, rfl, hi.nestEnds hc⟩, fun x hi hc => congrArg _ (State.runBlock_refused hi hc),
      fun k f hk hf hr _ hm => ⟨_, rfl, State.nestEnds_of_findRun hk hf hr hm⟩⟩
  case counters =>
    rintro b c0 c1 c2 c3 k h0 h1 h2 h3 rfl
    exact ⟨LBlk.round_lt_iterations h0 h1 h2 h3, LBlk.counters_round h0 h1 h2⟩
end

section
/-! PROOFS. The cursor: what issuing, completing and a transfer make of the address at which a chain fetches (O15). -/

namespace Sys2Proof.Machine

/-! ### Where a chain fetches (R18, R87) -/

/-- An engine of a slot that holds a task fetches at an address, with a queue of blocks fetched. -/
def Slot.FetchesAt (x : Slot) (e : Engine) (a : Nat) (q : List Queued) : Prop :=
  x.task ≠ none ∧ (x.ctx.chain e).cursor = a ∧ (x.ctx.chain e).queue = q

def State.FetchesAt (s : State) (r : EngRef) (a : Nat) (q : List Queued) : Prop := (s.slotAt r.tile r.slot).FetchesAt r.eng a q

theorem Slot.FetchesAt.ne {x : Slot} {e : Engine} {a : Nat} {q : List Queued} (h : x.FetchesAt e a q) : x ≠ {} :=
  fun he => h.1 (congrArg Slot.task he)

theorem Slot.FetchesAt.setLane {x : Slot} {e : Engine} {a : Nat} {q : List Queued} (h : x.FetchesAt e a q) (e' : Engine) (l : Lane) :
    (x.setLane e' l).FetchesAt e a q := by
  cases e' <;> exact h

section
variable {s t : State} {r : EngRef} {a : Nat} {q : List Queued}

theorem State.FetchesAt.of_slots (h : s.FetchesAt r a q) (ht : t.slots = s.slots) : t.FetchesAt r a q := by
  unfold State.FetchesAt State.slotAt
  rw [ht]
  exact h

theorem State.fetchesAt_updSlot {f : Slot → Slot} (h : (f (s.slotAt r.tile r.slot)).FetchesAt r.eng a q) :
    (s.updSlot r.tile r.slot f).FetchesAt r a q := by
  unfold State.FetchesAt State.updSlot
  rw [State.slotAt_setSlot (.inl h.ne)]
  exact h

theorem State.fetchesAt_setCtx {c : Ctx} (ht : (s.slotAt r.tile r.slot).task ≠ none) (h : (c.chain r.eng).cursor = a ∧ (c.chain r.eng).queue = q) :
    (s.setCtx r c).FetchesAt r a q := State.fetchesAt_updSlot ⟨ht, h⟩

theorem State.fetchesAt_updChain {f : Chain → Chain} (ht : (s.slotAt r.tile r.slot).task ≠ none)
    (h : (f (s.chain r)).cursor = a ∧ (f (s.chain r)).queue = q) : (s.updChain r f).FetchesAt r a q :=
  State.fetchesAt_setCtx ht (by rw [Ctx.chain_setChain]; exact h)

theorem State.chain_updChain {f : Chain → Chain} (ht : (s.slotAt r.tile r.slot).task ≠ none) : (s.updChain r f).chain r = f (s.chain r) := by
  unfold State.updChain State.setChain State.updCtx State.setCtx State.updSlot State.chain State.ctx
  rw [State.slotAt_setSlot]
  · exact Ctx.chain_setChain _ _ _
  · exact .inl fun he => ht (congrArg Slot.task he)

/-! ### What a completion leaves of it -/

theorem State.slots_storeRecord (s : State) (die k : Nat) (f : FaultRec) : (s.storeRecord die k f).slots = s.slots := by
  have hone (s : State) (p : Place) (k : Nat) : (s.cleanSector p k).slots = s.slots := by
    unfold State.cleanSector
    split
    · dsimp only
      split <;> rfl
    · rfl
  have hall (l : List Nat) (p : Place) : ∀ s : State, (l.foldl (fun s k => s.cleanSector p k) s).slots = s.slots := by
    induction l with
    | nil => exact fun _ => rfl
    | cons k l ih => exact fun s => (ih _).trans (hone s p k)
  unfold State.storeRecord State.cleanSectors
  dsimp only
  exact hall _ _ s

theorem State.slots_placeRecord (s : State) (die cluster : Nat) (f : FaultRec) : (s.placeRecord die cluster f).slots = s.slots := by
  unfold State.placeRecord
  dsimp only [State.log]
  rw [State.slots_storeRecord]
  rfl

theorem State.FetchesAt.tick (h : s.FetchesAt r a q) (dt : Nat) : (s.tick dt).FetchesAt r a q := by
  have hx (x : Slot) (hx : x.FetchesAt r.eng a q) : (x.tick dt).FetchesAt r.eng a q := by
    unfold Slot.tick
    split
    · exact hx
    · cases r with | mk _ _ e => cases e <;> exact hx
  have hm : ∀ m : Map Slot, (Map.get {} m (slotKey r.tile r.slot)).FetchesAt r.eng a q →
      (Map.get {} (m.map fun (p : Nat × Slot) => (p.1, p.2.tick dt)) (slotKey r.tile r.slot)).FetchesAt r.eng a q := by
    intro m
    induction m with
    | nil => exact fun h => absurd rfl h.1
    | cons p m ih =>
      simp only [List.map_cons, Map.get]
      split
      · exact hx _
      · exact ih
  unfold State.tick
  split
  · exact h
  · exact hm _ h

theorem State.FetchesAt.emitRecord (h : s.FetchesAt r a q) (die cluster : Nat) (f : FaultRec) : (s.emitRecord die cluster f).FetchesAt r a q := by
  have hs : (s.inTurn die f).FetchesAt r a q := by
    unfold State.inTurn
    split
    · exact h.tick 1
    · exact h
  refine hs.of_slots ?_
  unfold State.emitRecord
  dsimp only
  split
  · rfl
  · rw [State.slots_placeRecord]
    rfl

theorem State.FetchesAt.stopEngine (h : s.FetchesAt r a q) (kind : StopKind) (cause : Nat) (disp : Disp) (orig : Bool) (acc tag skid : Nat) :
    (s.stopEngine r kind cause disp orig acc tag skid).FetchesAt r a q := by
  have h1 (l : Lane) : (s.updSlot r.tile r.slot fun x => x.setLane r.eng l).FetchesAt r a q := State.fetchesAt_updSlot (h.setLane _ _)
  exact State.fetchesAt_updChain (h1 _).1 (h1 _).2

theorem State.FetchesAt.takeHalt (h : s.FetchesAt r a q) (block : Nat) (f : BlockFault) (prec : Bool) :
    (s.takeFault r block f .halt prec).FetchesAt r a q := by
  have hraise {s : State} (h : s.FetchesAt r a q) (p c n : Nat) : (s.raiseHalt p c n).FetchesAt r a q := by
    unfold State.raiseHalt
    dsimp only
    split
    · exact h
    · exact h.of_slots rfl
  unfold State.takeFault
  dsimp only
  refine hraise ?_ _ _ _
  split
  · exact h.emitRecord _ _ _
  · exact (h.emitRecord _ _ _).stopEngine _ _ _ _ _ _ _

theorem State.FetchesAt.stepStop (h : s.FetchesAt r a q) : (s.stepStop r).FetchesAt r a q := by
  unfold State.stepStop
  split
  · exact h.stopEngine _ _ _ _ _ _ _
  · exact h

end

theorem Ctx.chain_addSignals (e : Engine) : ∀ (l : List (Nat × Nat)) (c : Ctx), (c.addSignals l).1.chain e = c.chain e
  | [], _ => rfl
  | (n, k) :: l, c => by
    rw [Ctx.addSignals]
    split
    · exact Ctx.chain_addSignals e l c
    · split
      next c1 h1 =>
        have : c1.chain e = c.chain e := by
          unfold Ctx.addSem at h1
          split at h1 <;> cases h1
          cases e <;> rfl
        exact (Ctx.chain_addSignals e l c1).trans this
      next => exact Ctx.chain_addSignals e l c

/-- A signal that is not made halts (R166, R173). -/
theorem Ctx.disp_addSignals : ∀ (l : List (Nat × Nat)) (c : Ctx) (x : Cause), (c.addSignals l).2 = some x → x.disp = .halt
  | [], _, _, h => by cases h
  | (n, k) :: l, c, x, h => by
    have hor {y : Cause} (hy : y.disp = .halt) (h : some ((c.addSignals l).2.getD y) = some x) : x.disp = .halt := by
      cases h
      cases h2 : (c.addSignals l).2 with
      | none => exact hy
      | some z => exact Ctx.disp_addSignals l c z h2
    rw [Ctx.addSignals] at h
    split at h
    · exact hor rfl h
    · split at h
      · exact Ctx.disp_addSignals l _ x h
      · exact hor rfl h

theorem Ctx.chain_wdc (c : Ctx) (n : Nat) (e : Engine) : ({ c with wdc := n } : Ctx).chain e = c.chain e := by cases e <;> rfl

/-- A block that has left nothing to do completes without moving its chain's cursor; the queue stays where the block patches
nothing (R89). -/
theorem State.FetchesAt.completeBlock {s : State} {r : EngRef} {a k : Nat} {q : List Queued} {f : InFlight} (h : s.FetchesAt r a q)
    (hk : (s.chain r).inflight[k]? = some f) (hh : f.homes = []) (hw : f.writes = []) (hb : f.beaten = []) (hq : keptQueue f q = q) :
    (s.completeBlock r k).FetchesAt r a q := by
  obtain ⟨ht, ha, hq'⟩ := h
  unfold State.completeBlock
  rw [hk]
  simp only [hh, State.performAll, hw, List.append_nil, hb]
  rw [show (s.ctx r).mixed ((s.ctx r).applyAll []) s [] = s.ctx r from rfl]
  generalize hp : Ctx.addSignals _ _ = p
  have hc : p.1.chain r.eng = _ := (congrArg (fun x => x.1.chain r.eng) hp.symm).trans
    ((Ctx.chain_addSignals r.eng _ _).trans ((Ctx.chain_wdc _ _ _).trans (Ctx.chain_setChain _ _ _)))
  have hd (x : Cause) (hx : p.2 = some x) : x.disp = .halt := Ctx.disp_addSignals _ _ x (hp ▸ hx)
  obtain ⟨c, bad⟩ := p
  have hs : (s.setCtx r c).FetchesAt r a q := State.fetchesAt_setCtx ht (by rw [hc]; exact ⟨ha, (congrArg _ hq').trans hq⟩)
  clear hp hc
  have hw : ((s.setCtx r c).updSlot r.tile r.slot fun x => { x with wdActive := x.wdLimit }).FetchesAt r a q := State.fetchesAt_updSlot hs
  have hl (e : ThymeEvent) : State.FetchesAt (if (ctlOf f.instr).trc = 1 then
      ((s.setCtx r c).updSlot r.tile r.slot fun x => { x with wdActive := x.wdLimit }).log e
    else (s.setCtx r c).updSlot r.tile r.slot fun x => { x with wdActive := x.wdLimit }) r a q := by
    split
    · exact hw.of_slots rfl
    · exact hw
  cases bad with
  | some x =>
    dsimp only
    rw [hd x rfl]
    exact (hl _).takeHalt _ _ _
  | none =>
    dsimp only
    split
    · exact (hl _).stepStop
    · exact hl _

/-! ### A block of one step (R88, R99) -/

theorem State.Goes.task_ne {s : State} {i : Instr} (h : s.Goes i) : (s.slotAt s.ref.tile s.ref.slot).task ≠ none := by
  have hr := State.runnable_of_gate h.gate
  simp only [State.runnable, Slot.live, Bool.and_eq_true] at hr
  intro he
  simp [he] at hr

theorem State.fetchesAt_issued {s : State} {i : Instr} (h : s.Goes i) :
    (s.issued i).FetchesAt s.ref (nextAddr (s.chain s.ref).cursor i) (popQueue (s.chain s.ref).queue (s.chain s.ref).cursor) := by
  obtain ⟨-, -, -, -, hs⟩ := s.startBlock_keeps i none
  have hc := s.chain_startBlock i none
  refine ⟨?_, (congrArg Chain.cursor hc).trans rfl, (congrArg Chain.queue hc).trans rfl⟩
  show ((s.startBlock s.ref i none).slotAt s.ref.tile s.ref.slot).task ≠ none
  rw [hs]
  exact h.task_ne

end Sys2Proof.Machine

open Sys2Proof Sys2Proof.Machine

/-- Settles O15: completion moves no cursor, so the cursor stands where issuing, or the jump of LINK, has put it. -/
theorem cursorMoves : Obligations.CursorMoves := by
  intro s c tgt
  refine ⟨fun h => ?nop, fun h => ?link, fun i hd => ?issue⟩
  case nop =>
    refine ⟨_, congrArg Host.Outcome.next (State.runNow_ok h rfl), ?_⟩
    exact ((State.fetchesAt_issued h).completeBlock (s.entry_startBlock _ none) rfl rfl rfl rfl).2.1
  case link =>
    have hi := State.fetchesAt_issued h
    have hj : ((s.issued (.link c tgt)).jump s.ref tgt).FetchesAt s.ref tgt [] := State.fetchesAt_updChain hi.1 ⟨rfl, rfl⟩
    have hk : (((s.issued (.link c tgt)).jump s.ref tgt).chain s.ref).inflight[s.nextIndex s.ref]? = some (s.newEntry (.link c tgt) none) := by
      rw [State.jump, State.chain_updChain hi.1]
      exact s.entry_startBlock (.link c tgt) none
    refine ⟨_, congrArg Host.Outcome.next (State.runNow_ok h rfl), ?_⟩
    exact (hj.completeBlock hk rfl rfl rfl rfl).2
  case issue =>
    rw [s.chain_startBlock i hd]
    show nextAddr _ i = _
    unfold nextAddr nearTarget
    cases lParts i <;> rfl
end

section
/-! PROOFS. Elementwise forms at one iteration, the integer conversions FCVTI and ICVT, and the state in which O51 fails. -/

namespace Sys2Proof.Machine

/-! ### Sequences of one element -/

theorem mergeRuns_eq_nil : ∀ {l : Runs}, l.total = 0 → mergeRuns l = []
  | [], _ => rfl
  | (v, n) :: l, h => by
    rw [total_eq_runLen, runLen_cons] at h
    rw [mergeRuns, if_pos (by omega)]
    exact mergeRuns_eq_nil (by rw [total_eq_runLen]; omega)

theorem mergeRuns_of_total_one : ∀ {l : Runs}, l.total = 1 → mergeRuns l = [(l.at_ 0, 1)]
  | [], h => by cases h
  | (v, n) :: l, h => by
    rw [total_eq_runLen, runLen_cons] at h
    rw [mergeRuns, Runs.at_]
    split
    next hn =>
      subst hn
      rw [if_neg (Nat.lt_irrefl 0)]
      exact mergeRuns_of_total_one (by rw [total_eq_runLen]; omega)
    next hn =>
      obtain rfl : n = 1 := by omega
      rw [mergeRuns_eq_nil (by rw [total_eq_runLen]; omega), if_pos Nat.one_pos]
      rfl

/-- Broadcasting takes the value of the first run: where that run is not empty, a sequence keeps its elements (R197). -/
theorem at_broadcast {a : Runs} (ha : ∀ x ∈ a, 0 < x.2) {p : Nat} (hp : p < a.total) : (broadcast a.total a).at_ p = a.at_ p := by
  unfold broadcast
  split
  next h1 =>
    obtain rfl : p = 0 := by omega
    cases a with
    | nil => cases h1
    | cons x l => simp [Runs.at_, h1, ha x List.mem_cons_self]
  next => rfl

/-! ### Elementwise forms (R197, R198) -/

section
variable {s : State} {i : Instr} {b : LBlk} {tag n : Nat} {useB readD : Bool} {F : Nat → Nat → Nat → Nat} {a z d : Runs} {h1 h2 : Hot}

/-- What an elementwise form computes: F at every position of its broadcast operands. -/
def elemResult (F : Nat → Nat → Nat → Nat) (n : Nat) (a z d : Runs) : Runs :=
  mapRuns (fun ((x, y), o) => F x y o) (alignRuns (alignRuns (broadcast n a) (broadcast n z)) (broadcast n d))

theorem elemResult_at (F : Nat → Nat → Nat → Nat) (ha : a.total = n ∨ a.total = 1) (hz : z.total = n ∨ z.total = 1)
    (hd : d.total = n ∨ d.total = 1) : Runs.total (elemResult F n a z d) = n ∧ ∀ p < n,
      Runs.at_ (elemResult F n a z d) p = F ((broadcast n a).at_ p) ((broadcast n z).at_ p) ((broadcast n d).at_ p) :=
  aligned3 n _ _ _ (total_broadcast ha) (total_broadcast hz) (total_broadcast hd) F

/-- The body of an elementwise form that reads its operands delivers what it computes. -/
theorem elemBody_eq {t : State} {r : EngRef} {f : InFlight} (ha : operandSeq t r f b.a b.fmt (b.counters 0) = .ok (a, h1))
    (hz : if useB then operandSeq t r f b.b b.fmt (b.counters 0) = .ok (z, h2) else z = a ∧ h2 = [])
    (hd : if readD then (t.ctx r).regSeq b.d tag (b.counters 0) = .ok d else d = z)
    (hl : resultLen ([a.total] ++ (if useB then [z.total] else []) ++ (if readD then [d.total] else [])) = some n) :
    elemBody b b.fmt b.fmt tag useB readD F t r f 0 = finishVec t r b tag n (b.counters 0) (elemResult F n a z d) (h1 ++ h2) := by
  have hz' : (if useB then operandSeq t r f b.b b.fmt (b.counters 0) else .ok (a, [])) = .ok (z, h2) := by
    cases useB
    · obtain ⟨rfl, rfl⟩ := hz
      rfl
    · exact hz
  have hd' : (if readD then (t.ctx r).regSeq b.d tag (b.counters 0) else .ok z) = .ok d := by
    cases readD
    · exact congrArg Except.ok hd.symm
    · exact hd
  unfold elemBody
  simp only [ha, hz', hd', hl]
  rfl

/-- An elementwise form of one iteration issues and runs where its result can be delivered (R198). -/
theorem State.runElem_one (h : s.IssuesOnce i) (hv : ∀ x, i ≠ .vrcot x) (ha : s.Reads i b.a b.fmt (b.counters 0) a h1)
    (hz : if useB then s.Reads i b.b b.fmt (b.counters 0) z h2 else z = a ∧ h2 = [])
    (hd : if readD then s.ReadsOld i b tag d else d = z)
    (hl : resultLen ([a.total] ++ (if useB then [z.total] else []) ++ (if readD then [d.total] else [])) = some n) {o : IterOut}
    (ho : s.Delivers i b tag n (elemResult F n a z d) (h1 ++ h2) o) : runElem i b tag useB readD F s = s.ran i none o := by
  obtain ⟨htags, hfin⟩ := ho
  refine State.runVec_one h.1 h.2 htags (fun x hx => absurd hx (hv x)) fun p hp => ?_
  rw [elemBody_eq (ha p hp) ?z ?d hl]
  · exact hfin p hp
  case z => cases useB; exacts [hz, hz p hp]
  case d => cases readD; exacts [hd, hd p hp]

end

/-! ### Integer formats (R67, R79, R81) -/

theorem clampInt_eq {lo hi : Int} (h : lo ≤ hi) (z : Int) : clampInt lo hi z = max lo (min hi z) := by
  unfold clampInt
  split_ifs <;> omega

/-- The ranges of the integer formats and BOOL. -/
def intRanges : List (Nat × Int × Int) :=
  [(4, -2147483648, 2147483647), (5, -32768, 32767), (6, -128, 127), (7, -8, 7), (8, 0, 4294967295), (10, 0, 1)]

theorem intRange_of_mem {f : Nat} {lo hi : Int} (h : (f, lo, hi) ∈ intRanges) : intMin f = lo ∧ intMax f = hi ∧ lo ≤ hi := by
  have hall : ∀ p ∈ intRanges, intMin p.1 = p.2.1 ∧ intMax p.1 = p.2.2 ∧ p.2.1 ≤ p.2.2 := by decide
  exact hall _ h

theorem fvalToInt_eq {f : Nat} {lo hi : Int} (h : (f, lo, hi) ∈ intRanges) (rm : Nat) (x : FVal) :
    fvalToInt f rm x = wrapTo (fmtWidth f) (match x with
      | .nan => 0
      | .inf neg => if neg then lo else hi
      | .fin neg m e => max lo (min hi (roundInt rm neg m e))) := by
  obtain ⟨rfl, rfl, hle⟩ := intRange_of_mem h
  cases x with
  | nan => simp [fvalToInt, wrapTo]
  | inf neg => rfl
  | fin neg m e => exact congrArg (wrapTo _) (clampInt_eq hle _)

theorem intVal_of_mem {f x : Nat} {v : Int} (h : (f, v) ∈ [(4, signed 32 x), (5, signed 16 x), (6, signed 8 x), (7, signed 4 x),
    (8, ((x % 2 ^ 32 : Nat) : Int)), (10, ((x % 2 : Nat) : Int))]) : intVal f x = v := by
  simp only [List.mem_cons, Prod.mk.injEq, List.not_mem_nil, or_false] at h
  rcases h with ⟨rfl, rfl⟩ | ⟨rfl, rfl⟩ | ⟨rfl, rfl⟩ | ⟨rfl, rfl⟩ | ⟨rfl, rfl⟩ | ⟨rfl, rfl⟩ <;> rfl

theorem icvt_eq {f : Nat} {lo hi : Int} (h : (f, lo, hi) ∈ intRanges) (fmt sat x : Nat) :
    icvt fmt f (sat == 1) x = if f = 10 then (if intVal fmt x = 0 then 0 else 1)
      else if sat = 1 then wrapTo (fmtWidth f) (max lo (min hi (intVal fmt x))) else wrapTo (fmtWidth f) (intVal fmt x) := by
  obtain ⟨rfl, rfl, hle⟩ := intRange_of_mem h
  rw [← clampInt_eq hle, ← apply_ite (wrapTo (fmtWidth f))]
  by_cases hv : intVal fmt x = 0 <;> simp [icvt, wrapClamp, ofBool, hv]

/-! ### Conversions (R78 to R82) -/

/-- A conversion of one iteration, an elementwise form of A alone. -/
theorem State.convert_one {s : State} {i : Instr} {b : LBlk} {a : Runs} {h : Hot} (hs : s.IssuesOnce i) (hv : ∀ x, i ≠ .vrcot x)
    (ha : s.Reads i b.a b.fmt (b.counters 0) a h) (hpos : ∀ x ∈ a, 0 < x.2) (tag : Nat) (f : Nat → Nat) :
    ∃ y : Runs, y.total = a.total ∧
      (∀ o, s.Delivers i b tag a.total y h o → runElem i b tag false false (fun x _ _ => f x) s = s.ran i none o) ∧
      ∀ p < a.total, y.at_ p = f (a.at_ p) := by
  obtain ⟨hn, hat⟩ := elemResult_at (fun x _ _ => f x) (.inl (rfl : a.total = _)) (.inl rfl) (.inl rfl)
  refine ⟨_, hn, fun o ho => State.runElem_one (useB := false) (readD := false) hs hv ha ⟨rfl, rfl⟩ rfl rfl (by rwa [List.append_nil]), fun p hp => ?_⟩
  rw [hat p hp, at_broadcast hpos hp]

/-- R79 and R81, wherever no run of the sequence read is empty: the store of R193, which keeps a run's count less 1, holds no empty one. -/
theorem integerConversion_of_pos {b : LBlk} {s : State} {i : Instr} {a : Runs} {h : Hot} {lo hi : Int}
    (hr : (b.dfmt, lo, hi) ∈ intRanges) (hform : i = .fcvti b ∨ i = .icvt b) (hs : s.IssuesOnce i)
    (ha : s.Reads i b.a b.fmt (b.counters 0) a h) (hpos : ∀ x ∈ a, 0 < x.2) :
    ∃ y : Runs, y.total = a.total ∧ (∀ o, s.Delivers i b b.dfmt a.total y h o → exec i s = .next (s.ran i none o)) ∧
      ∀ p < a.total,
        (i = .fcvti b → y.at_ p = wrapTo (fmtWidth b.dfmt) (match (fmtOf b.fmt).value (a.at_ p) with
          | .nan => 0
          | .inf neg => if neg then lo else hi
          | .fin neg m e => max lo (min hi (roundInt b.rm neg m e)))) ∧
        (i = .icvt b → ∀ v, (b.fmt, v) ∈ [(4, signed 32 (a.at_ p)), (5, signed 16 (a.at_ p)), (6, signed 8 (a.at_ p)), (7, signed 4 (a.at_ p)),
            (8, ((a.at_ p % 2 ^ 32 : Nat) : Int)), (10, ((a.at_ p % 2 : Nat) : Int))] →
          y.at_ p = if b.dfmt = 10 then (if v = 0 then 0 else 1)
            else if b.sat = 1 then wrapTo (fmtWidth b.dfmt) (max lo (min hi v)) else wrapTo (fmtWidth b.dfmt) v) := by
  rcases hform with rfl | rfl
  · obtain ⟨y, hy, hrun, hat⟩ := State.convert_one hs (by simp) ha hpos b.dfmt fun x => fvalToInt b.dfmt b.rm ((fmtOf b.fmt).value x)
    exact ⟨y, hy, fun o ho => congrArg _ (hrun o ho), fun p hp => ⟨fun _ => (hat p hp).trans (fvalToInt_eq hr _ _), by simp⟩⟩
  · obtain ⟨y, hy, hrun, hat⟩ := State.convert_one hs (by simp) ha hpos b.dfmt (icvt b.fmt b.dfmt (b.sat == 1))
    refine ⟨y, hy, fun o ho => congrArg _ (hrun o ho), fun p hp => ⟨by simp, fun _ v hv => ?_⟩⟩
    rw [hat p hp, icvt_eq hr, intVal_of_mem hv]

/-! ### A register with an empty run -/

/-- ICVT of INT32 to INT32 from register 1 to register 2. -/
def copyInt : LBlk := { fmt := 4, dfmt := 4, a := { space := spV, base := 1 }, d := { space := spV, base := 2 } }

/-- The reset module with a task on a tile whose register 1 holds 7, after a run of 5 that has no element. -/
def emptyRunState : State :=
  { State.reset with
    ref := engRef 0 0 .vxe
    slots := [(0, { task := some 1, ctx :=
      { vregs := [(1, { runs := [(5, 0), (7, 1)], tag := 4, valid := true })], vxe := { present := true } } })]
    tasks := [(1, { state := .resident, place := some 0 })] }

theorem emptyRunState_issuesOnce : emptyRunState.IssuesOnce (.icvt copyInt) where
  left := {
    fresh := by decide +kernel
    gate := by decide +kernel
    fine := by decide +kernel
    calm := by decide +kernel
    whole := by decide +kernel
    clear := State.clear_of (by decide +kernel) (.inl rfl) (.inl (by decide +kernel))
    timely := State.timely_of rfl }
  right := rfl

theorem emptyRunState_reads :
    emptyRunState.Reads (.icvt copyInt) copyInt.a copyInt.fmt (copyInt.counters 0) [(5, 0), (7, 1)] [] := by
  simp only [State.Reads, State.views]
  decide +kernel

/-- The output that writes one element to register 2. -/
def copied (v : Nat) : IterOut := { tile := [.vreg 2 { runs := [(v, 1)], tag := 4, valid := true }] }

/-- A result of one element, whatever its empty runs, is delivered as that element. -/
theorem emptyRunState_delivers {y : Runs} (hy : y.total = 1) :
    emptyRunState.Delivers (.icvt copyInt) copyInt 4 1 y [] (copied (y.at_ 0)) := by
  refine ⟨?_, fun p _ => ?_⟩
  · unfold State.TagsOk
    decide +kernel
  · have hm (t : State) (r : EngRef) : applyMask t r copyInt 4 1 (copyInt.counters 0) y = .ok [(y.at_ 0, 1)] :=
      congrArg Except.ok (mergeRuns_of_total_one hy)
    unfold finishVec
    rw [hm]
    rfl

/-- The writes that the blocks in flight of the acting chain have still to make. -/
def writesLeft : Host.Outcome State Fault Refusal → List (List TileWrite)
  | .next s => (s.chain s.ref).inflight.map (·.writes)
  | _ => []

theorem writesLeft_copied : writesLeft (.next (emptyRunState.ran (.icvt copyInt) none (copied 7))) = [(copied 7).tile] := by
  decide +kernel

/-- The model converts the 5 of the run without elements. -/
theorem writesLeft_exec : writesLeft (exec (.icvt copyInt) emptyRunState) = [(copied 5).tile] := by
  decide +kernel

end Sys2Proof.Machine

open Sys2Proof Sys2Proof.Machine

/-- Refutes O51, of all states: in the model's State, unlike in the run store of R193, a register may begin with a run of no
elements. An A of one element is then broadcast (R197) with the value of that run, here 5, and not with the element it holds,
here 7. Where no run of A is empty the statement holds: `integerConversion_of_pos`. -/
theorem not_integerConversion : ¬ Obligations.IntegerConversion := by
  unfold Obligations.IntegerConversion
  intro h
  obtain ⟨y, hy, hrun, hat⟩ := h copyInt emptyRunState _ _ _ _ _ List.mem_cons_self (.inr rfl) emptyRunState_issuesOnce emptyRunState_reads
  have h7 : y.at_ 0 = 7 := (hat 0 Nat.one_pos).2 rfl _ List.mem_cons_self
  have hexec := hrun _ (emptyRunState_delivers hy)
  rw [h7] at hexec
  have hw := congrArg writesLeft hexec
  rw [writesLeft_exec, writesLeft_copied] at hw
  exact absurd hw (by decide)
end

section
/-! PROOFS. Frames: what changes of one slot leave alone, said once for the steps of issue and completion (O25, O26). -/

namespace Sys2Proof.Machine

/-! ### Changes within one slot -/

/-- A state differs from another in the slot of an engine, the tiles, the forks, the Percolator and the Thyme buffer at most. -/
def State.WithinSlot (r : EngRef) (s t : State) : Prop :=
  (∃ slots tiles forks perc thyme, t = { s with slots := slots, tiles := tiles, forks := forks, perc := perc, thyme := thyme }) ∧
  s.KeepsOtherSlots t r

section
variable {r : EngRef} {s t u : State}

theorem State.WithinSlot.refl (r : EngRef) (s : State) : s.WithinSlot r s := ⟨⟨_, _, _, _, _, rfl⟩, fun _ _ _ => rfl⟩

theorem State.WithinSlot.trans (h : s.WithinSlot r t) (h' : t.WithinSlot r u) : s.WithinSlot r u := by
  obtain ⟨⟨_, _, _, _, _, rfl⟩, hs⟩ := h
  obtain ⟨⟨_, _, _, _, _, rfl⟩, hs'⟩ := h'
  exact ⟨⟨_, _, _, _, _, rfl⟩, fun tile slot hk => (hs' tile slot hk).trans (hs tile slot hk)⟩

theorem State.WithinSlot.of_slots {tiles : Map Tile} {forks : List Fork} {perc : Percolator} {thyme : List ThymeEvent}
    (h : t = { s with tiles := tiles, forks := forks, perc := perc, thyme := thyme }) : s.WithinSlot r t := by
  subst h
  exact ⟨⟨_, _, _, _, _, rfl⟩, fun _ _ _ => rfl⟩

theorem State.WithinSlot.keepsOtherSlots (h : s.WithinSlot r t) : s.KeepsOtherSlots t r := h.2

theorem State.WithinSlot.keepsMemory (h : s.WithinSlot r t) : s.KeepsMemory t := by
  obtain ⟨⟨_, _, _, _, _, rfl⟩, -⟩ := h
  exact ⟨fun m _ => by cases m <;> rfl, fun _ => rfl, fun _ => rfl, fun _ => rfl⟩

theorem State.WithinSlot.keepsSystem (h : s.WithinSlot r t) : s.KeepsSystem t := by
  obtain ⟨⟨_, _, _, _, _, rfl⟩, -⟩ := h
  exact ⟨rfl, rfl, rfl, rfl, rfl, rfl, rfl, rfl, rfl, rfl, rfl, rfl, rfl, rfl, rfl, rfl, rfl, rfl, rfl, rfl, rfl⟩

theorem State.WithinSlot.steps_eq (h : s.WithinSlot r t) : t.steps = s.steps := by
  obtain ⟨⟨_, _, _, _, _, rfl⟩, -⟩ := h
  rfl

theorem State.withinSlot_updSlot (r : EngRef) (s : State) (f : Slot → Slot) : s.WithinSlot r (s.updSlot r.tile r.slot f) :=
  ⟨⟨_, _, _, _, _, rfl⟩, fun _ _ hk => State.slotAt_setSlot_other hk⟩

theorem State.withinSlot_setCtx (r : EngRef) (s : State) (c : Ctx) : s.WithinSlot r (s.setCtx r c) := State.withinSlot_updSlot r s _

theorem State.withinSlot_updChain (r : EngRef) (s : State) (f : Chain → Chain) : s.WithinSlot r (s.updChain r f) :=
  State.withinSlot_setCtx r s _

theorem State.withinSlot_log (r : EngRef) (s : State) (e : ThymeEvent) : s.WithinSlot r (s.log e) := .of_slots rfl

theorem State.withinSlot_sampleAll (r : EngRef) (s : State) (l : Hot) : s.WithinSlot r (s.sampleAll l) := by
  obtain ⟨p, h⟩ := State.sampleAll_eq l s
  exact .of_slots h

theorem State.withinSlot_addFork (r : EngRef) (s : State) (block serial : Nat) (l : List Access) (pull : Option Nat) :
    s.WithinSlot r (s.addFork r block serial l pull) := by
  unfold State.addFork
  split
  · exact .refl r s
  · exact .of_slots rfl

theorem State.withinSlot_noteHandle (r q : EngRef) (s : State) (x : Desc) : s.WithinSlot r (s.noteHandle q x) := by
  obtain ⟨_, _, h, -⟩ := s.noteHandle_eq q x
  exact .of_slots h

end

/-- Issuing changes nothing beyond its slot (R88). -/
theorem State.withinSlot_startBlock (s : State) (i : Instr) (hd : Option Handle) : s.WithinSlot s.ref (s.startBlock s.ref i hd) := by
  have hnote : s.WithinSlot s.ref (match lParts i with | some (_, _, b) => (s.noteHandle s.ref b.a).noteHandle s.ref b.d | none => s) := by
    split
    · exact (State.withinSlot_noteHandle _ _ _ _).trans (State.withinSlot_noteHandle _ _ _ _)
    · exact .refl _ _
  rw [State.startBlock_eq]
  dsimp only
  split
  · exact (hnote.trans (State.withinSlot_updSlot _ _ _)).trans (State.withinSlot_log _ _ _)
  · exact hnote.trans (State.withinSlot_updSlot _ _ _)

theorem State.task_issued (s : State) (i : Instr) (n : Nat) : (s.issued i).task n = s.task n := by
  obtain ⟨-, -, htasks, -⟩ := (s.withinSlot_startBlock i none).keepsSystem
  exact congrArg (Map.get {} · n) htasks

theorem State.cycle_issued (s : State) (i : Instr) : (s.issued i).cycle = s.cycle := (s.startBlock_keeps i none).2.1

end Sys2Proof.Machine
end

section
/-! PROOFS. Transfers of control (O14), END, YIELD and SPAWN (O16). -/

namespace Sys2Proof.Machine

/-- The condition of BRC as R99 tables it. -/
theorem brcTaken_eq_true (cond : Nat) (ended : Bool) (w imm : Nat) : brcTaken cond ended w imm = true ↔
    (cond = 0 ∨ (cond = 1 ∧ ended = true) ∨ (cond = 2 ∧ ended = false) ∨ (cond = 3 ∧ w = imm) ∨ (cond = 4 ∧ w ≠ imm) ∨
      (cond = 5 ∧ signed 32 w < signed 32 imm) ∨ (cond = 6 ∧ signed 32 imm ≤ signed 32 w) ∨ (cond = 7 ∧ w < imm) ∨
      (cond = 8 ∧ imm ≤ w) ∨ (cond = 9 ∧ w &&& imm ≠ 0) ∨ (10 ≤ cond ∧ w &&& imm = 0)) := by
  match cond with
  | 0 | 1 | 2 | 3 | 4 | 5 | 6 | 7 | 8 => simp [brcTaken]
  | 9 | _ + 10 => simp [brcTaken, andN]

section
variable {s : State} {c : Ctl} {cond tgt imm off : Nat}

theorem execBrc_eq {t : State} (h : s.Goes (.brc c cond tgt imm off))
    (ht : t = if cond = 1 ∨ cond = 2 then (s.issued (.brc c cond tgt imm off)).updChain s.ref fun h => { h with endFlag := false }
      else s.issued (.brc c cond tgt imm off)) :
    execBrc c cond tgt imm off s = .next (s.finish
      (if brcTaken cond (s.chain s.ref).endFlag ((s.sees (.brc c cond tgt imm off)).tpWord off 4) imm then
        t.jump s.ref (nearTarget (s.chain s.ref).cursor tgt) else t)) := by
  refine congrArg _ (State.runNow_ok h ?_)
  dsimp only
  rw [State.ownAddr_issued, ← ht, State.issued, State.chain_startBlock]
  rfl

theorem execBrcd_eq (h : s.Goes (.brcd c tgt off)) :
    execBrcd c tgt off s = .next (s.finish
      (if (s.sees (.brcd c tgt off)).tpWord off 4 = 0 then s.issued (.brcd c tgt off)
      else (s.leaves (s.issued (.brcd c tgt off)) [.tp (8 * off) 32 ((s.sees (.brcd c tgt off)).tpWord off 4 - 1)]).jump s.ref
        (nearTarget (s.chain s.ref).cursor tgt))) := by
  refine congrArg _ (State.runNow_ok h ?_)
  dsimp only
  rw [State.ownAddr_issued, ← apply_ite Except.ok]
  rfl

end
end Sys2Proof.Machine

open Sys2Proof Sys2Proof.Machine

/-- Settles O14: each transfer completes as it issues, and the condition of BRC is the table of R99. -/
theorem transferForms : Obligations.TransferForms := by
  intro c tgt imm off cond s
  refine ⟨fun h => congrArg _ (State.runNow_ok h rfl), fun h => congrArg _ (State.runNow_ok h rfl), ?brc, ?brcd⟩
  case brc =>
    rintro i w t taken rfl h rfl rfl ht
    rw [← brcTaken_eq_true]
    exact ⟨fun hc => (execBrc_eq h ht).trans (by rw [if_pos hc]), fun hc => (execBrc_eq h ht).trans (by rw [if_neg hc])⟩
  case brcd =>
    rintro i n rfl h rfl
    exact ⟨fun hn => (execBrcd_eq h).trans (by rw [if_pos hn]), fun hn => (execBrcd_eq h).trans (by rw [if_neg hn])⟩

/-- Settles O16: each is the effect that its form has in the state in which it has issued. -/
theorem taskControlForms : Obligations.TaskControlForms := by
  intro c rb roff inh s
  refine ⟨?endChain, ?yieldSlot, ?spawn⟩
  case endChain =>
    rintro i rfl h
    refine congrArg _ (State.runNow_ok h ?_)
    dsimp only
    rw [State.ownAddr_issued]
  case yieldSlot =>
    rintro i n rfl rfl h
    generalize hn : (s.issued (.yieldSlot c)).taskOf s.ref = n
    have heff : execYieldSlot c s = .next (s.finish ((if s.cycle < (s.task n).deadline then
        (s.issued (.yieldSlot c)).updCtx s.ref fun c => { c with budget := (s.task n).fullBudget }
      else s.issued (.yieldSlot c)).offerSlot s.ref)) := by
      refine congrArg _ (State.runNow_ok h ?_)
      dsimp only
      rw [hn, State.task_issued, State.cycle_issued]
    exact ⟨fun hd => heff.trans (by rw [if_pos hd]), fun hd => heff.trans (by rw [if_neg (Nat.not_lt.mpr hd)])⟩
  case spawn =>
    rintro i t n va rfl rfl rfl rfl h
    constructor
    · intro hv
      exact congrArg _ (State.runNow_error h (if_pos hv))
    · intro hv
      refine congrArg _ (State.runNow_ok h ?_)
      dsimp only
      rw [if_neg (not_not.mpr hv), State.ownAddr_issued]
end

section
/-! PROOFS. What issuing and completing a block leave alone (O25, O26). -/

namespace Sys2Proof.Machine

/-! ### Counts -/

theorem Ctx.sem_setSem_of_ne (c : Ctx) (n m : Nat) {v : Nat} (h : v ≠ 0) : (c.setSem n v).sem m = if m = n then v else c.sem m := by
  unfold Ctx.sem Ctx.setSem
  split
  next e => rw [e]; exact Map.get_set_ne 0 h _
  next e => exact Map.get_set_other 0 e v _

/-- An addition that fits adds, where it adds anything (R166). -/
theorem Ctx.sem_of_addSem {c c1 : Ctx} {n k : Nat} (hk : k ≠ 0) (h : c.addSem n k = some c1) (m : Nat) :
    c1.sem m = c.sem m + (if m = n then k else 0) ∧ c1.sem n ≤ 65535 := by
  unfold Ctx.addSem at h
  split at h
  · cases h
  next hle =>
    obtain rfl := Option.some.inj h
    rw [Ctx.sem_setSem_of_ne c n m (by omega), Ctx.sem_setSem_of_ne c n n (by omega), if_pos rfl]
    refine ⟨?_, by omega⟩
    split
    next e => rw [e]
    next => rfl

theorem Ctx.addSem_setChain (c : Ctx) (e : Engine) (h : Chain) (n k : Nat) :
    (c.setChain e h).addSem n k = (c.addSem n k).map (·.setChain e h) := by
  unfold Ctx.addSem
  rw [show (c.setChain e h).sem n = c.sem n by cases e <;> rfl]
  split
  · rfl
  · cases e <;> rfl

/-- Giving ring slots back moves no chain, and none is read for it. -/
theorem Ctx.releaseSlots_setChain (e : Engine) (h : Chain) : ∀ (l : List RingRight) (c : Ctx),
    (c.setChain e h).releaseSlots l = ((c.releaseSlots l).1.setChain e h, (c.releaseSlots l).2)
  | [], _ => rfl
  | x :: l, c => by
    rw [Ctx.releaseSlots, Ctx.releaseSlots, Ctx.ring_setChain]
    cases c.ring x.ring with
    | none => exact Ctx.releaseSlots_setChain e h l c
    | some g =>
      dsimp only
      rw [Ctx.addSem_setChain]
      cases c.addSem g.esem 1 with
      | none => simp [Ctx.releaseSlots_setChain e h l c]
      | some c1 => exact Ctx.releaseSlots_setChain e h l c1

theorem Ctx.ring_of_addSem {c c1 : Ctx} {n k : Nat} (h : c.addSem n k = some c1) : c1.ring = c.ring := by
  unfold Ctx.addSem at h
  split at h <;> cases h
  rfl

/-- Ring slots that are given back without a fault add one count each to their empty semaphores (R172). -/
theorem Ctx.sem_of_releaseSlots : ∀ (l : List RingRight) {c c1 : Ctx}, c.releaseSlots l = (c1, none) → ∀ n,
    c1.sem n = c.sem n + (l.filterMap fun x => (c.ring x.ring).map (·.esem)).count n
  | [], c, c1, h, n => by cases h; rfl
  | x :: l, c, c1, h, n => by
    rw [Ctx.releaseSlots] at h
    cases hr : c.ring x.ring with
    | none =>
      rw [hr] at h
      rw [Ctx.sem_of_releaseSlots l h n, List.filterMap_cons_none (by rw [hr]; rfl)]
    | some g =>
      rw [hr] at h
      dsimp only at h
      cases ha : c.addSem g.esem 1 with
      | none => rw [ha] at h; cases h
      | some c2 =>
        rw [ha] at h
        rw [Ctx.sem_of_releaseSlots l h n, (Ctx.sem_of_addSem Nat.one_ne_zero ha n).1, Ctx.ring_of_addSem ha,
          List.filterMap_cons_some (by rw [hr]; rfl), List.count_cons]
        simp only [beq_iff_eq, eq_comm (a := n)]
        omega

/-! ### A block of one iteration that issues and runs -/

theorem setNth_length_append {α : Type} (x y : α) : ∀ l : List α, setNth (l ++ [x]) l.length y = l ++ [y]
  | [] => rfl
  | _ :: l => congrArg _ (setNth_length_append x y l)

/-! Reading the slot of a task after it has changed. -/

section
variable {s : State} {r : EngRef} (h : (s.slotAt r.tile r.slot).task ≠ none)
include h

theorem State.slotAt_setCtx_of_task (c : Ctx) : (s.setCtx r c).slotAt r.tile r.slot = { s.slotAt r.tile r.slot with ctx := c } :=
  State.slotAt_setSlot (.inl fun e => h (congrArg Slot.task e))

theorem State.slotAt_updChain_of_task (f : Chain → Chain) : (s.updChain r f).slotAt r.tile r.slot =
    { s.slotAt r.tile r.slot with ctx := (s.ctx r).setChain r.eng (f (s.chain r)) } := State.slotAt_setCtx_of_task h _

theorem State.slotAt_setEntry_setCtx_of_task (c : Ctx) (k : Nat) (f : InFlight) : ((s.setCtx r c).setEntry r k f).slotAt r.tile r.slot =
    { s.slotAt r.tile r.slot with
      ctx := c.setChain r.eng { c.chain r.eng with inflight := setNth (c.chain r.eng).inflight k f } } := by
  have hs := State.slotAt_setCtx_of_task h c
  have ht : ((s.setCtx r c).slotAt r.tile r.slot).task ≠ none := by
    rw [hs]
    exact h
  unfold State.setEntry
  rw [State.slotAt_updChain_of_task ht, State.chain, State.ctx, hs]

end

/-- A guard fault of an iteration is recorded, unless an earlier one is (R170). -/
def State.noteGuard (s : State) (r : EngRef) : Option Guard → State
  | some g => s.updChain r fun h => { h with guard := h.guard <|> some g }
  | none => s

theorem State.withinSlot_noteGuard (s : State) (r : EngRef) (g : Option Guard) : s.WithinSlot r (s.noteGuard r g) := by
  cases g with
  | none => exact .refl r s
  | some g => exact State.withinSlot_updChain r s fun h => { h with guard := h.guard <|> some g }

/-- The last iteration that reads its ring slots gives them back (R172). -/
theorem Run.after_of_endsSlots {x : Run} (h : endsSlots x.f.instr x.f.ctr = true) (r : EngRef) (o : IterOut) :
    x.after r o =
      let t := (x.s.sampleAll o.hot).noteGuard r o.guard
      let p := (t.ctx r).releaseSlots x.f.taken
      { s := t.setCtx r p.1
        v := x.v.applyAll o.tile
        f := { x.f with writes := x.f.writes ++ o.tile, homes := x.f.homes ++ x.s.fenced r o.homes, cut := x.f.writes.length,
                        ctr := x.f.ctr + 1, lastAt := x.s.steps, taken := [] }
        fork := x.fork ++ o.fork
        fault := p.2.map fun e => { cause := e } } := by
  unfold Run.after
  dsimp only
  rw [if_pos h]
  rfl

theorem State.fenced_startBlock (s : State) (i : Instr) (hd : Option Handle) (l : List Access) :
    (s.startBlock s.ref i hd).fenced s.ref l = s.fenced s.ref l := by
  unfold State.fenced
  rw [s.chain_startBlock]
  rfl

@[simp] theorem Ctx.setChain_chain (c : Ctx) (e : Engine) : c.setChain e (c.chain e) = c := by cases e <;> rfl
@[simp] theorem Ctx.setChain_setChain (c : Ctx) (e : Engine) (h h' : Chain) : (c.setChain e h).setChain e h' = c.setChain e h' := by
  cases e <;> rfl

theorem State.slotAt_noteGuard {s : State} {r : EngRef} (h : (s.slotAt r.tile r.slot).task ≠ none) (g : Option Guard) :
    (s.noteGuard r g).slotAt r.tile r.slot =
      { s.slotAt r.tile r.slot with ctx := (s.ctx r).setChain r.eng { s.chain r with guard := (s.chain r).guard <|> g } } := by
  cases g with
  | none =>
    have hg : ((s.chain r).guard <|> none) = (s.chain r).guard := by cases (s.chain r).guard <;> rfl
    rw [hg]
    show _ = { s.slotAt r.tile r.slot with ctx := (s.ctx r).setChain r.eng ((s.ctx r).chain r.eng) }
    rw [Ctx.setChain_chain]
    rfl
  | some g => exact State.slotAt_updChain_of_task h _

@[simp] theorem State.forks_noteGuard (s : State) (r : EngRef) (g : Option Guard) : (s.noteGuard r g).forks = s.forks := by cases g <;> rfl

@[simp] theorem State.forks_sampleAll (s : State) (l : Hot) : (s.sampleAll l).forks = s.forks := by
  obtain ⟨_, h⟩ := State.sampleAll_eq l s
  rw [h]

@[simp] theorem State.slots_sampleAll (s : State) (l : Hot) : (s.sampleAll l).slots = s.slots := by
  obtain ⟨_, h⟩ := State.sampleAll_eq l s
  rw [h]

@[simp] theorem State.slotAt_sampleAll (s : State) (l : Hot) (t k : Nat) : (s.sampleAll l).slotAt t k = s.slotAt t k := by
  unfold State.slotAt
  rw [State.slots_sampleAll]

@[simp] theorem State.slotAt_addFork (s : State) (r : EngRef) (block serial : Nat) (l : List Access) (pull : Option Nat) (t k : Nat) :
    (s.addFork r block serial l pull).slotAt t k = s.slotAt t k := by
  unfold State.addFork
  split <;> rfl

section
variable {s : State} {i : Instr} {hd : Option Handle} {o : IterOut} {c c1 : Ctx} {l : List RingRight}

/-- The entry of a block that has run its one iteration. -/
def State.ranEntry (s : State) (i : Instr) (hd : Option Handle) (o : IterOut) : InFlight :=
  { s.newEntry i hd with writes := o.tile, homes := s.fenced s.ref o.homes, ctr := 1, phase := .done, taken := [], lastAt := s.steps }

/-- The chain of a block that has issued and met the guard fault of its iteration. -/
def State.guardedChain (s : State) (i : Instr) (hd : Option Handle) (o : IterOut) : Chain :=
  { s.issuedChain i hd with guard := (s.chain s.ref).guard <|> o.guard }

/-- The state after the iteration, before the ring slots are given back. -/
def State.iterated (s : State) (i : Instr) (hd : Option Handle) (o : IterOut) : State :=
  ((s.startBlock s.ref i hd).sampleAll o.hot).noteGuard s.ref o.guard

theorem State.withinSlot_iterated : s.WithinSlot s.ref (s.iterated i hd o) :=
  ((s.withinSlot_startBlock i hd).trans (State.withinSlot_sampleAll _ _ _)).trans (State.withinSlot_noteGuard _ _ _)

theorem State.slotAt_iterated (hi : s.Issues i)
    (hc : (c, l) = ((s.ctx s.ref).takeWaits (Ctl.waits (ctlOf i))).takeSlots (rqRings i)) :
    (s.iterated i hd o).slotAt s.ref.tile s.ref.slot =
      ({ s.slotAt s.ref.tile s.ref.slot with
        ctx := c.setChain s.ref.eng (s.guardedChain i hd o) } : Slot).tests s.cycle
          (((s.ctx s.ref).testsOf i).map (·.1)) := by
  obtain ⟨-, -, -, -, hs⟩ := s.startBlock_keeps i hd
  rw [State.iterated, State.slotAt_noteGuard, State.chain, State.ctx, State.slotAt_sampleAll, hs]
  · unfold State.issuedCtx
    rw [← hc]
    simp only [Slot.tests_frame, Ctx.setChain_setChain, Ctx.chain_setChain]
    rfl
  · rw [State.slotAt_sampleAll, hs]
    exact hi.goes.task_ne

theorem State.ran_eq (hi : s.Issues i) (h1 : iterationsOf i = 1)
    (hc : (c, l) = ((s.ctx s.ref).takeWaits (Ctl.waits (ctlOf i))).takeSlots (rqRings i)) (hr : c.releaseSlots l = (c1, none)) :
    s.ran i hd o = (((s.iterated i hd o).setCtx s.ref
      (c1.setChain s.ref.eng (s.guardedChain i hd o))).setEntry s.ref (s.nextIndex s.ref)
        (s.ranEntry i hd o)).addFork s.ref (s.chain s.ref).cursor s.steps o.fork := by
  have hends : endsSlots i 0 = true := by simp [endsSlots, h1]
  have hrel : ((s.iterated i hd o).ctx s.ref).releaseSlots (s.newEntry i hd).taken =
      (c1.setChain s.ref.eng (s.guardedChain i hd o), none) := by
    have ht : (s.newEntry i hd).taken = l := congrArg Prod.snd hc.symm
    rw [State.ctx, State.slotAt_iterated hi hc, ht]
    exact (Ctx.releaseSlots_setChain _ _ _ _).trans (by rw [hr])
  have hafter := Run.after_of_endsSlots (x := s.firstRun i hd) hends s.ref o
  have hp : ((((s.firstRun i hd).s.sampleAll o.hot).noteGuard s.ref o.guard).ctx s.ref).releaseSlots (s.firstRun i hd).f.taken = _ := hrel
  dsimp only at hafter
  rw [hp] at hafter
  have hentry : { ((s.firstRun i hd).after s.ref o).f with phase := .done } = s.ranEntry i hd o := by
    have hsteps : (s.firstRun i hd).s.steps = s.steps := (s.withinSlot_startBlock i hd).steps_eq
    have hfence : (s.firstRun i hd).s.fenced s.ref o.homes = s.fenced s.ref o.homes := s.fenced_startBlock i hd o.homes
    rw [hafter, hsteps, hfence]
    rfl
  unfold State.ran
  dsimp only
  rw [hentry, hafter]
  rfl

/-- The chain of a block that has run its one iteration. -/
def State.ranChain (s : State) (i : Instr) (hd : Option Handle) (o : IterOut) : Chain :=
  { s.guardedChain i hd o with inflight := (s.chain s.ref).inflight ++ [s.ranEntry i hd o] }

theorem State.slotAt_ran (hi : s.Issues i) (h1 : iterationsOf i = 1)
    (hc : (c, l) = ((s.ctx s.ref).takeWaits (Ctl.waits (ctlOf i))).takeSlots (rqRings i)) (hr : c.releaseSlots l = (c1, none)) :
    (s.ran i hd o).slotAt s.ref.tile s.ref.slot =
      ({ s.slotAt s.ref.tile s.ref.slot with ctx := c1.setChain s.ref.eng (s.ranChain i hd o) } : Slot).tests s.cycle
        (((s.ctx s.ref).testsOf i).map (·.1)) := by
  have hs := State.slotAt_iterated (hd := hd) (o := o) hi hc
  have ht : ((s.iterated i hd o).slotAt s.ref.tile s.ref.slot).task ≠ none := by
    rw [hs]
    exact hi.goes.task_ne
  rw [State.ran_eq hi h1 hc hr, State.slotAt_addFork, State.slotAt_setEntry_setCtx_of_task ht, hs, Ctx.setChain_setChain, Ctx.chain_setChain,
    show setNth (s.guardedChain i hd o).inflight (s.nextIndex s.ref) (s.ranEntry i hd o) = _ from setNth_length_append _ _ _]
  rfl

theorem State.withinSlot_ran (hi : s.Issues i) (h1 : iterationsOf i = 1)
    (hc : (c, l) = ((s.ctx s.ref).takeWaits (Ctl.waits (ctlOf i))).takeSlots (rqRings i)) (hr : c.releaseSlots l = (c1, none)) :
    s.WithinSlot s.ref (s.ran i hd o) := by
  rw [State.ran_eq hi h1 hc hr]
  exact ((State.withinSlot_iterated.trans (State.withinSlot_setCtx _ _ _)).trans (State.withinSlot_updChain _ _ _)).trans
    (State.withinSlot_addFork _ _ _ _ _ _)

theorem State.forks_ran (hi : s.Issues i) (h1 : iterationsOf i = 1)
    (hc : (c, l) = ((s.ctx s.ref).takeWaits (Ctl.waits (ctlOf i))).takeSlots (rqRings i)) (hr : c.releaseSlots l = (c1, none))
    (ho : o.fork = []) : (s.ran i hd o).forks = s.forks := by
  obtain ⟨-, -, hforks, -⟩ := s.startBlock_keeps i hd
  rw [State.ran_eq hi h1 hc hr, ho]
  show (s.iterated i hd o).forks = s.forks
  rw [State.iterated, State.forks_noteGuard, State.forks_sampleAll, hforks]

end

/-! ### Completion of a block without home work -/

/-- A slot that differs in its registers, cells and shares alone: what writes do. -/
def Ctx.SameControl (c c' : Ctx) : Prop :=
  c' = { c with tp := c'.tp, wb := c'.wb, acc := c'.acc, vregs := c'.vregs, dirty := c'.dirty }

theorem Ctx.SameControl.refl (c : Ctx) : c.SameControl c := rfl

theorem Ctx.SameControl.trans {a b c : Ctx} (h : a.SameControl b) (h' : b.SameControl c) : a.SameControl c := by
  unfold Ctx.SameControl at *
  rw [h']
  dsimp only
  rw [h]

theorem Ctx.SameControl.chain {c c' : Ctx} (h : c.SameControl c') (e : Engine) : c'.chain e = c.chain e := by
  rw [h]
  cases e <;> rfl

theorem Ctx.SameControl.step {c c' : Ctx} (h : c.SameControl c') : c'.step = c.step := by rw [h]

theorem Ctx.sameControl_apply (c : Ctx) (w : TileWrite) : c.SameControl (c.apply w) := by cases w <;> rfl

theorem foldl_sameControl {β : Type} (f : Ctx → β → Ctx) (hf : ∀ (c : Ctx) x, c.SameControl (f c x)) :
    ∀ (l : List β) (c : Ctx), c.SameControl (l.foldl f c)
  | [], c => .refl c
  | x :: l, c => (hf c x).trans (foldl_sameControl f hf l (f c x))

theorem Ctx.sameControl_applyAll (c : Ctx) (ws : List TileWrite) : c.SameControl (c.applyAll ws) :=
  foldl_sameControl _ Ctx.sameControl_apply ws c

theorem Ctx.sameControl_mixed (c0 c1 : Ctx) (s : State) (lost : List TileWrite) : c1.SameControl (c0.mixed c1 s lost) := by
  refine foldl_sameControl _ (fun c x => ?_) _ c1
  dsimp only
  split
  · exact c.sameControl_apply _
  · exact .refl c

theorem Ctx.sameMedia_addSignals : ∀ (l : List (Nat × Nat)) (c : Ctx), c.SameMedia (c.addSignals l).1
  | [], c => .refl c
  | (n, k) :: l, c => by
    rw [Ctx.addSignals]
    split
    · exact Ctx.sameMedia_addSignals l c
    · split
      next c1 h1 =>
        refine Ctx.SameMedia.trans ?_ (Ctx.sameMedia_addSignals l c1)
        unfold Ctx.addSem at h1
        split at h1 <;> cases h1
        exact c.sameMedia_setSem _ _
      next => exact Ctx.sameMedia_addSignals l c

/-- A block that signals gives each semaphore at least one count. -/
theorem Ctl.count_ne_zero {c : Ctl} {x : Nat × Nat} (h : x ∈ Ctl.signals c) : x.2 ≠ 0 := by
  unfold Ctl.signals at h
  split at h
  next h3 =>
    obtain rfl := List.mem_singleton.mp h
    dsimp only
    omega
  next =>
    rcases List.mem_append.mp h with h | h
    all_goals
      split at h
      next h0 =>
        obtain rfl := List.mem_singleton.mp h
        exact h0
      next => cases h

theorem totalOf_cons (n k m : Nat) (l : List (Nat × Nat)) : totalOf ((n, k) :: l) m = (if m = n then k else 0) + totalOf l m := by
  unfold totalOf
  by_cases h : n = m
  · subst h
    simp
  · simp [h, Ne.symm h]

/-- Signals that all fit add their counts (R166). -/
theorem Ctx.sem_of_addSignals : ∀ (l : List (Nat × Nat)) {c c1 : Ctx}, (∀ x ∈ l, x.2 ≠ 0) → c.addSignals l = (c1, none) →
    ∀ n, c1.sem n = c.sem n + totalOf l n ∧ (totalOf l n ≠ 0 → c1.sem n ≤ 65535)
  | [], c, c1, _, h, n => by
    cases h
    exact ⟨rfl, fun h0 => absurd rfl h0⟩
  | (m, k) :: l, c, c1, hl, h, n => by
    rw [Ctx.addSignals] at h
    split at h
    · cases h
    · cases ha : c.addSem m k with
      | none =>
        rw [ha] at h
        cases h
      | some c2 =>
        rw [ha] at h
        obtain ⟨hk, hl⟩ := List.forall_mem_cons.mp hl
        obtain ⟨hsum, hle⟩ := Ctx.sem_of_addSignals l hl h n
        obtain ⟨hadd, hfit⟩ := Ctx.sem_of_addSem hk ha n
        rw [totalOf_cons]
        dsimp only at hk hadd
        refine ⟨by omega, fun h0 => ?_⟩
        by_cases ht : totalOf l n = 0
        · have hn : n = m := by
            by_contra hn
            exact h0 (by rw [if_neg hn, ht])
          subst hn
          omega
        · exact hle ht

section
variable {s : State} {r : EngRef} {k : Nat} {f : InFlight} {c c1 : Ctx}

/-- The slot of a block that has completed, before its signals (R89). -/
def State.completedCtx (s : State) (r : EngRef) (k : Nat) (f : InFlight) : Ctx :=
  { ((s.ctx r).mixed ((s.ctx r).applyAll f.writes) s f.beaten).setChain r.eng { s.chain r with
      inflight := ((s.chain r).inflight.eraseIdx k).map (f.overwritten (s.ctx r)), queue := keptQueue f (s.chain r).queue,
      lastBlk := f.addr, lastCtr := ctrOf f.instr (f.ctr - 1), stepBusy := (s.chain r).stepBusy && !f.stepped,
      since := if ordersCompletion f.instr then s.steps else (s.chain r).since,
      fence := match f.instr with | .fence _ sc => some (max sc ((s.chain r).fence.getD 0)) | _ => (s.chain r).fence } with wdc := 0 }

/-- A slot takes new contents as a block of it completes, and its watchdog limit is used from then on (R310). -/
def State.setCompleted (s : State) (r : EngRef) (c : Ctx) : State :=
  (s.setCtx r c).updSlot r.tile r.slot fun x => { x with wdActive := x.wdLimit }

theorem State.ctx_setCompleted (ht : (s.slotAt r.tile r.slot).task ≠ none) (c : Ctx) : (s.setCompleted r c).ctx r = c := by
  have hs := State.slotAt_setCtx_of_task ht c
  unfold State.setCompleted State.updSlot State.ctx
  rw [State.slotAt_setSlot, hs]
  rw [hs]
  exact .inl fun he => ht (congrArg Slot.task he)

theorem State.withinSlot_setCompleted (s : State) (r : EngRef) (c : Ctx) : s.WithinSlot r (s.setCompleted r c) :=
  (State.withinSlot_setCtx _ _ _).trans (State.withinSlot_updSlot _ _ _)

theorem State.stepStop_of_step {t : State} (h : (t.ctx r).step = false) : t.stepStop r = t := by
  unfold State.stepStop
  rw [h]
  rfl

theorem State.step_completedCtx (s : State) (r : EngRef) (k : Nat) (f : InFlight) : (s.completedCtx r k f).step = (s.ctx r).step :=
  (Ctx.setChain_frame _ _ _).2.2.2.2.2.2.2.2.2.2.1.trans
    ((Ctx.sameControl_applyAll _ _).trans (Ctx.sameControl_mixed _ _ _ _)).step

/-- A block without home work whose signals all fit completes in one update of its slot, where its engine is not stepped; TRC
adds an event. -/
theorem State.completeBlock_eq (hk : (s.chain r).inflight[k]? = some f) (hh : f.homes = []) (ht : (s.slotAt r.tile r.slot).task ≠ none)
    (hstep : (s.ctx r).step = false) (hc : (s.completedCtx r k f).addSignals (Ctl.signals (ctlOf f.instr)) = (c1, none)) :
    s.completeBlock r k = if (ctlOf f.instr).trc = 1 then
        (s.setCompleted r c1).log { time := s.cycle, pasid := (s.task (s.taskOf r)).pasid, tile := r.tile, slot := r.slot, eng := r.eng.num,
                                    kind := 2, addr := f.addr, data := ctrOf f.instr (f.ctr - 1) }
      else s.setCompleted r c1 := by
  have hm : (s.ctx r).SameControl ((s.ctx r).mixed ((s.ctx r).applyAll f.writes) s f.beaten) :=
    (Ctx.sameControl_applyAll _ _).trans (Ctx.sameControl_mixed _ _ _ _)
  have hc1 : c1.step = false := by
    have h1 := Ctx.sameMedia_addSignals (Ctl.signals (ctlOf f.instr)) (s.completedCtx r k f)
    rw [hc] at h1
    rw [show c1 = _ from h1]
    exact (s.step_completedCtx r k f).trans hstep
  have hstop : ((s.setCompleted r c1).ctx r).step = false := by rw [State.ctx_setCompleted ht, hc1]
  unfold State.completeBlock
  rw [hk]
  simp only [hh, State.performAll, List.append_nil]
  rw [hm.chain]
  generalize hp : Ctx.addSignals _ _ = p
  obtain rfl : p = (c1, none) := hp.symm.trans hc
  dsimp only
  exact (congrArg (ite _ · _) (State.stepStop_of_step (by split <;> exact hstop))).trans (ite_self _)

end

end Sys2Proof.Machine

open Sys2Proof Sys2Proof.Machine

/-- Settles O25: what is left of the block's slot is written out, and all else is outside the slot. -/
theorem issuedBlock : Obligations.IssuedBlock := by
  refine ⟨?runs, ?issues⟩
  case runs =>
    rintro s i hd o t c c1 l hi h1 rfl hc hr
    have hs := State.slotAt_ran (hd := hd) (o := o) hi h1 hc hr
    have hw : s.WithinSlot s.ref (s.ran i hd o) := State.withinSlot_ran hi h1 hc hr
    have hctx : (s.ran i hd o).ctx s.ref = c1.setChain s.ref.eng (s.ranChain i hd o) := congrArg Slot.ctx hs
    refine ⟨hctx, Ctx.sem_of_releaseSlots l hr, ?_, State.forks_ran hi h1 hc hr, hw.keepsOtherSlots, hw.keepsMemory, hw.keepsSystem⟩
    rw [hctx]
    exact hs
  case issues =>
    rintro s i hd t rfl
    have hw := s.withinSlot_startBlock i hd
    have hm : (s.ctx s.ref).SameMedia (((s.ctx s.ref).takeWaits (Ctl.waits (ctlOf i))).takeSlots (rqRings i)).1 :=
      (Ctx.sameMedia_takeWaits _ _).trans (Ctx.sameMedia_takeSlots _ _)
    obtain ⟨-, -, hforks, -⟩ := s.startBlock_keeps i hd
    have hchain (e : Engine) (he : e ≠ s.ref.eng) : (s.issuedCtx i hd).chain e = (s.ctx s.ref).chain e :=
      (Ctx.chain_setChain_other _ _ he).trans (hm.chain e)
    rw [s.ctx_startBlock i hd]
    refine ⟨rfl, ?_, ?_, ?_, ?_, ?_, ?_, ?_, hchain, hforks, hw.keepsOtherSlots, hw.keepsMemory, hw.keepsSystem⟩ <;>
    · simp only [State.issuedCtx, Ctx.setChain_frame]
      rw [hm]

/-- Settles O26: the completion is one update of the slot, with contents that are written out; every signal that is made fits. -/
theorem completedBlock : Obligations.CompletedBlock := by
  rintro s r k f c c1 t hk hh ht hstep rfl hc rfl
  have hsem := Ctx.sem_of_addSignals _ (fun _ => Ctl.count_ne_zero) hc
  have hset := State.ctx_setCompleted ht c1
  have hw : s.WithinSlot r (s.completeBlock r k) := by
    rw [State.completeBlock_eq hk hh ht hstep hc]
    split
    · exact (s.withinSlot_setCompleted r c1).trans (State.withinSlot_log _ _ _)
    · exact s.withinSlot_setCompleted r c1
  refine ⟨?_, fun n => (hsem n).1, fun n => (hsem n).2, hw.keepsOtherSlots, hw.keepsMemory, hw.keepsSystem⟩
  rw [State.completeBlock_eq hk hh ht hstep hc]
  split <;> exact hset
end

section
/-! PROOFS. Patches (O17). -/

namespace Sys2Proof.Machine

/-! ### The access of a patch (R102) -/

section
variable {s : State} {r : EngRef} {k : AccessKind} {a n : Nat} (h : a % pageBytes + n ≤ pageBytes)
include h

theorem elemPieces_of_le : elemPieces s r k (8 * n) (8 * (a : Int)) =
    (s.translate r.tile (s.task (s.taskOf r)).pasid a k).map fun p => [{ phys := p, bit := p.addr * 8, w := 8 * n, va := a }] := by
  have hp : pieces (8 * (a : Int)) (8 * n) = [(8 * (a : Int), 8 * n)] := by
    unfold pieces
    rw [if_pos]
    unfold pageBytes at *
    omega
  unfold elemPieces
  rw [hp, mapE, pieceAt, if_neg (by omega), show (8 * (a : Int)).toNat / 8 = a by omega, show (8 * (a : Int)).toNat % 8 = 0 by omega]
  dsimp only
  cases s.translate r.tile (s.task (s.taskOf r)).pasid a k <;> rfl

/-- One element of bytes within a page faults where its translation does. -/
theorem translateElems_error {e : Cause} (ht : s.translate r.tile (s.task (s.taskOf r)).pasid a k = .error e) :
    translateElems s r k false (8 * n) [8 * (a : Int)] = .error { cause := e, fva := wrapTo 64 a, remain := 1, acc := k.walkAcc e } := by
  unfold translateElems
  rw [elemPieces_of_le h, ht]
  dsimp only [Except.map]
  rw [show 8 * (a : Int) / 8 = a by omega]
  rfl

/-- Written to memory it is one piece. -/
theorem translateElems_write {p : Phys} (ht : s.translate r.tile (s.task (s.taskOf r)).pasid a .write = .ok p) (hp : p.place ≠ .launchPage) :
    translateElems s r .write false (8 * n) [8 * (a : Int)] = .ok [[{ phys := p, bit := p.addr * 8, w := 8 * n, va := a }]] := by
  have hf : pieceFault s .write false [{ phys := p, bit := p.addr * 8, w := 8 * n, va := a }] = none := by
    simp [pieceFault, hp]
  unfold translateElems
  rw [elemPieces_of_le h, ht]
  dsimp only [Except.map]
  rw [hf]
  rfl

end

theorem mod_two_pow_mod_le (a k : Nat) : a % 2 ^ k % 32 ≤ a % 32 := by
  rcases Nat.le_total k 5 with hk | hk
  · have hd : 2 ^ k ∣ 32 := pow_dvd_pow 2 hk
    calc a % 2 ^ k % 32 ≤ a % 2 ^ k := Nat.mod_le _ _
      _ = a % 32 % 2 ^ k := (Nat.mod_mod_of_dvd a hd).symm
      _ ≤ a % 32 := Nat.mod_le _ _
  · exact (Nat.mod_mod_of_dvd a (pow_dvd_pow 2 hk)).le

theorem placeOf_addr (bar0 leaf size va : Nat) :
    (placeOf bar0 leaf size va).1 = .launchPage ∨ (placeOf bar0 leaf size va).2 = bits leaf 16 32 * 65536 + va % 2 ^ size := by
  unfold placeOf
  split
  · exact .inr rfl
  · exact .inr rfl
  · right
    split <;> rfl
  · dsimp only
    split
    · exact .inl rfl
    · exact .inr rfl

/-- A translation leaves an address at most as far into its sector as it was, whatever the size of the page. -/
theorem State.addr_mod_of_translate {s : State} {tile pasid va : Nat} {k : AccessKind} {p : Phys} (h : s.translate tile pasid va k = .ok p)
    (hp : p.place ≠ .launchPage) : p.addr % 32 ≤ va % 32 := by
  unfold State.translate State.translateVia at h
  split at h
  · cases h
  next leaf size _ =>
    split at h
    · cases h
    · split at h
      · cases h
      · cases h
        have ha := mod_two_pow_mod_le va size
        have ha' : (placeOf s.mgmt.bar0 leaf size va).2 = _ := (placeOf_addr s.mgmt.bar0 leaf size va).resolve_left hp
        show (placeOf s.mgmt.bar0 leaf size va).2 % 32 ≤ va % 32
        omega

/-- Writes of one piece that stays in its sector are one access. -/
theorem groupAccesses_one {p : Phys} {T n v : Nat} (h : p.addr % 32 + n ≤ 32) (hu : unitBytes p.place = 32) :
    groupAccesses 0 (pieceWrites [{ phys := p, bit := p.addr * 8, w := 8 * n, va := T }] v) = [patchWrite p T n v] := by
  have hone (x : Elem) (hx : x.place = p.place) (hb : x.op.bit = p.addr * 8) (hw : x.op.w = 8 * n) : x.parts = [x] := by
    unfold Elem.parts
    dsimp only
    split
    · rw [if_pos (by rw [hx, hb, hw, hu]; omega)]
    · rfl
  unfold groupAccesses pieceWrites pieceWrites
  rw [List.flatMap_cons, hone _ rfl rfl rfl]
  simp [patchWrite, Piece.hot, hu]

/-- Sampling an access leaves every motion as it is. -/
theorem State.sampleAccess_eq (s : State) (p : Place) (a size : Nat) :
    ∃ q, s.sampleAccess p a size = { s with perc := q } ∧ q.motions = s.perc.motions := by
  unfold State.sampleAccess
  split
  · dsimp only
    split <;> exact ⟨_, rfl, rfl⟩
  · exact ⟨_, rfl, rfl⟩

/-- An access to a unit that is not poisoned does not fault (R164). -/
theorem State.performAccess_of_clean {s : State} {a : Access} (h : Map.get false s.poison (s.unitKey a) = false) :
    (s.performAccess a).2.2 = none := by
  have hs : ∀ q : Percolator, q.motions = s.perc.motions → ({ s with perc := q } : State).unitKey a = s.unitKey a := by
    intro q hq
    unfold State.unitKey State.homeUnit State.serveAt State.motionAt
    rw [hq]
  unfold State.performAccess
  cases a.hot with
  | none =>
    dsimp only
    rw [if_neg (by rw [h]; decide)]
  | some size =>
    obtain ⟨q, he, hq⟩ := s.sampleAccess_eq a.place (a.unit * unitBytes a.place) size
    dsimp only
    rw [he, hs q hq, if_neg (by rw [show ({ s with perc := q } : State).poison = s.poison from rfl, h]; decide)]

theorem State.performAll_singleton {s : State} {a : Access} (h : Map.get false s.poison (s.unitKey a) = false) :
    s.performAll [a] = ((s.performAccess a).1, (s.performAccess a).2.1, none) := by
  unfold State.performAll State.performAll
  rw [show s.performAccess a = ((s.performAccess a).1, (s.performAccess a).2.1, none) from
    Prod.ext rfl (Prod.ext rfl (State.performAccess_of_clean h))]
  simp

/-! ### What a patch does (R95, R102, R155)

`nearTarget` multiplies by 2^48, which the kernel would do in unary where it evaluates a patch's translation. The two definitions that
hold it are therefore unfolded as functions, before they are applied. -/

/-- What the translation of a patch's bytes makes of them. -/
def patchOf (v : Nat) (x : Except BlockFault (List (List Piece))) : Except BlockFault (List Access) :=
  x.map fun pss => groupAccesses 0 ((pss.flatMap id).flatMap fun p => pieceWrites [p] v)

/-- What a patch does with its accesses. -/
def State.patchWith (s : State) (r : EngRef) (k : Nat) (l : List Access) : Except BlockFault State :=
  if l.any fun a => a.place == .peer then .ok ((s.addFork r (s.ownAddr r k) s.steps l).completeBlock r k)
  else if l.any (s.ownHolds r s.steps) then .ok (s.updEntry r k fun f => { f with homes := l })
  else
    match s.performAll l with
    | (_, _, some e) => .error e
    | (s1, _, none) => .ok (s1.completeBlock r k)

section
variable {s : State} {r : EngRef} {k tgt n v T : Nat} {p : Phys}

theorem State.patchAccess_eq (hT : nearTarget (s.ownAddr r k) tgt = T) :
    s.patchAccess r k tgt n v = patchOf v (translateElems s r .write false (8 * n) [8 * (T : Int)]) := by
  have hf : @State.patchAccess = @State.patchAccess := rfl
  conv at hf => rhs; delta State.patchAccess
  rw [hf]
  beta_reduce
  rw [hT]
  generalize translateElems s r .write false (8 * n) [8 * (T : Int)] = x
  cases x <;> rfl

theorem State.patchBytes_eq {x : Except BlockFault (List Access)} (hx : s.patchAccess r k tgt n v = x) :
    s.patchBytes r k tgt n v = x.bind (s.patchWith r k) := by
  have hf : @State.patchBytes = @State.patchBytes := rfl
  conv at hf => rhs; delta State.patchBytes
  rw [hf]
  beta_reduce
  rw [hx]
  cases x <;> rfl

theorem State.patchWith_peer (hp : p.place = .peer) :
    s.patchWith r k [patchWrite p T n v] = .ok ((s.addFork r (s.ownAddr r k) s.steps [patchWrite p T n v]).completeBlock r k) :=
  if_pos (by simp [patchWrite, hp])

section
variable {m : Tier} (hp : p.place = .tier m)
include hp

theorem State.patchWith_held (ho : s.ownHolds r s.steps (patchWrite p T n v) = true) :
    s.patchWith r k [patchWrite p T n v] = .ok (s.updEntry r k fun f => { f with homes := [patchWrite p T n v] }) :=
  (if_neg (by simp [patchWrite, hp])).trans (if_pos (by simp [ho]))

theorem State.patchWith_clean (ho : s.ownHolds r s.steps (patchWrite p T n v) = false)
    (hc : Map.get false s.poison (s.unitKey (patchWrite p T n v)) = false) :
    s.patchWith r k [patchWrite p T n v] = .ok ((s.performAccess (patchWrite p T n v)).1.completeBlock r k) := by
  unfold State.patchWith
  rw [if_neg (by simp [patchWrite, hp]), if_neg (by simp [ho]), State.performAll_singleton hc]

end

variable (hT : nearTarget (s.ownAddr r k) tgt = T) (hn : T % 32 + n ≤ 32)
include hT hn

theorem State.patchBytes_error {e : Cause} (ht : s.translate r.tile (s.task (s.taskOf r)).pasid T .write = .error e) :
    s.patchBytes r k tgt n v = .error { cause := e, fva := wrapTo 64 T, remain := 1, acc := AccessKind.write.walkAcc e } := by
  have ha := State.patchAccess_eq (n := n) (v := v) hT
  rw [translateElems_error (by unfold pageBytes; omega) ht] at ha
  exact State.patchBytes_eq ha

theorem State.patchBytes_ok (ht : s.translate r.tile (s.task (s.taskOf r)).pasid T .write = .ok p) (hu : unitBytes p.place = 32)
    (hl : p.place ≠ .launchPage) : s.patchBytes r k tgt n v = s.patchWith r k [patchWrite p T n v] := by
  have hsector := State.addr_mod_of_translate ht hl
  have ha := State.patchAccess_eq (n := n) (v := v) hT
  rw [translateElems_write (by unfold pageBytes; omega) ht hl] at ha
  refine (State.patchBytes_eq ha).trans ?_
  show s.patchWith r k _ = _
  beta_reduce
  rw [List.flatMap_singleton, id, List.flatMap_singleton, groupAccesses_one (by omega) hu]

end

/-! ### Patches as they issue -/

/-- A form whose effect is to patch n bytes of v at a target. -/
def State.Patches (s : State) (i : Instr) (tgt n v : Nat) : Prop :=
  ∃ eff, exec i s = .next (s.runStep eff i) ∧
    eff (s.issued i) s.ref (s.nextIndex s.ref) = (s.issued i).patchBytes s.ref (s.nextIndex s.ref) tgt n v

theorem State.Patches.exec_eq {s t : State} {i : Instr} {tgt n v : Nat} (h : s.Patches i tgt n v) (hg : s.Goes i)
    (ht : (s.issued i).patchBytes s.ref (s.nextIndex s.ref) tgt n v = .ok t) : exec i s = .next t := by
  obtain ⟨eff, he, heff⟩ := h
  rw [he, State.runStep_ok hg (heff.trans ht)]

theorem State.Patches.exec_error {s : State} {i : Instr} {tgt n v : Nat} {e : BlockFault} (h : s.Patches i tgt n v) (hg : s.Goes i)
    (ht : (s.issued i).patchBytes s.ref (s.nextIndex s.ref) tgt n v = .error e) : exec i s = .next (s.issueStop s.ref e) := by
  obtain ⟨eff, he, heff⟩ := h
  rw [he, State.runStep_error hg (heff.trans ht)]

section
variable (s : State) (c : Ctl) (len tgt : Nat)

theorem State.patches_patch (off : Nat) :
    s.Patches (.patch c len tgt off) tgt (len + 1) ((s.sees (.patch c len tgt off)).tpWord off (len + 1)) := ⟨_, rfl, rfl⟩

theorem State.patches_patchi (imm : Nat) : s.Patches (.patchi c len tgt imm) tgt (len + 1) imm := ⟨_, rfl, rfl⟩

theorem State.patches_patchv {elem vr : Nat} {g : VReg} (hg : (s.sees (.patchv c len tgt elem vr)).vreg vr = g) (hv : g.valid = true)
    (he : elem < g.len) : s.Patches (.patchv c len tgt elem vr) tgt (len + 1) (Runs.at_ g.runs elem % 2 ^ (8 * (len + 1))) := by
  refine ⟨_, rfl, ?_⟩
  show (if !((s.sees (.patchv c len tgt elem vr)).vreg vr).valid then _ else if ((s.sees (.patchv c len tgt elem vr)).vreg vr).len ≤ elem then _
    else _) = _
  rw [hg, hv, if_neg (by decide), if_neg (by omega)]
  rw [show ((s.issued (.patchv c len tgt elem vr)).viewOf s.ref (s.nextIndex s.ref)).vreg vr = g from hg]

theorem State.patchv_invalid {elem vr : Nat} (h : s.Goes (.patchv c len tgt elem vr))
    (hv : ((s.sees (.patchv c len tgt elem vr)).vreg vr).valid = false) :
    exec (.patchv c len tgt elem vr) s = .next (s.issueStop s.ref { cause := .formatTag }) := by
  refine congrArg _ (State.runStep_error h ?_)
  show (if !((s.sees (.patchv c len tgt elem vr)).vreg vr).valid then _ else _) = _
  rw [hv]
  rfl

theorem State.patchv_beyond {elem vr : Nat} (h : s.Goes (.patchv c len tgt elem vr))
    (hv : ((s.sees (.patchv c len tgt elem vr)).vreg vr).valid = true) (he : ((s.sees (.patchv c len tgt elem vr)).vreg vr).len ≤ elem) :
    exec (.patchv c len tgt elem vr) s = .next (s.issueStop s.ref { cause := .lengthMismatch }) := by
  refine congrArg _ (State.runStep_error h ?_)
  show (if !((s.sees (.patchv c len tgt elem vr)).vreg vr).valid then _ else if _ then _ else _) = _
  rw [hv, if_neg (by decide)]
  exact if_pos he

end

end Sys2Proof.Machine

open Sys2Proof Sys2Proof.Machine

/-- Settles O17: the three forms make one access of bytes of one sector, whatever the size of the target's page. -/
theorem patchForms : Obligations.PatchForms := by
  rintro c len tgt off imm elem vr x T s i g hi htgt rfl rfl
  refine ⟨fun hx => ?writes, ?invalid, ?beyond⟩
  case writes =>
    have hp : s.Patches i tgt (len + 1) x := by
      rcases hx with ⟨rfl, rfl⟩ | ⟨rfl, rfl⟩ | ⟨rfl, hv, he, rfl⟩
      · exact s.patches_patch c len tgt off
      · exact s.patches_patchi c len tgt x
      · exact s.patches_patchv c len tgt rfl hv he
    have hT : nearTarget ((s.issued i).ownAddr s.ref (s.nextIndex s.ref)) tgt = nearTarget (s.chain s.ref).cursor tgt := by
      rw [State.ownAddr_issued]
    have hn : nearTarget (s.chain s.ref).cursor tgt % 32 + (len + 1) ≤ 32 := by
      unfold nearTarget
      omega
    have hsteps : (s.issued i).steps = s.steps := (s.withinSlot_startBlock i none).steps_eq
    refine ⟨?tier, ?peer, fun e ht => hp.exec_error hi (State.patchBytes_error hT hn ht)⟩
    case tier =>
      rintro m p a ht hm rfl
      have hok := State.patchBytes_ok (v := x) hT hn ht (by rw [hm]; rfl) (by rw [hm]; simp)
      rw [← hsteps]
      exact ⟨fun ho hc => hp.exec_eq hi (hok.trans (State.patchWith_clean hm ho hc)),
        fun ho => hp.exec_eq hi (hok.trans (State.patchWith_held hm ho))⟩
    case peer =>
      intro p ht hpeer
      have hok := State.patchBytes_ok (v := x) hT hn ht (by rw [hpeer]; rfl) (by rw [hpeer]; decide)
      refine hp.exec_eq hi ((hok.trans (State.patchWith_peer hpeer)).trans ?_)
      rw [State.ownAddr_issued, hsteps]
      rfl
  case invalid =>
    rintro rfl hv
    exact s.patchv_invalid c len tgt hi hv
  case beyond =>
    rintro rfl hv he
    exact s.patchv_beyond c len tgt hi hv he
end

section
/-! PROOFS. Blocks that raise a cause (O18). -/

namespace Sys2Proof.Machine

section
variable {s : State} {c : Ctl} {code arg : Nat} (h : s.Issues (.flti c code arg))
include h

theorem State.flti_unprivileged (hp : ((s.issued (.flti c code arg)).task ((s.issued (.flti c code arg)).taskOf s.ref)).priv = false) :
    exec (.flti c code arg) s = .next (s.issueStop s.ref { cause := .permission }) := by
  refine congrArg _ (State.runRaise_error h ?_)
  rw [hp]
  rfl

variable {x : Cause} (hp : ((s.issued (.flti c code arg)).task ((s.issued (.flti c code arg)).taskOf s.ref)).priv = true)
  (hx : causeOf code = some x)
include hp hx

theorem State.flti_stops (hd : x.disp ≠ .note) :
    exec (.flti c code arg) s = .next ((s.issued (.flti c code arg)).raiseCause s.ref (s.nextIndex s.ref)
      { cause := x, remain := fltiRemain x, fva := arg } x.disp) := by
  refine congrArg _ (State.runRaise_ok h ?_)
  rw [hp, hx]
  exact if_neg hd

theorem State.flti_notes (hd : x.disp = .note) {t : State}
    (ht : t = (s.issued (.flti c code arg)).takeFault s.ref (s.chain s.ref).cursor { cause := x, remain := fltiRemain x, fva := arg } .note) :
    exec (.flti c code arg) s = .next (if (s.issued (.flti c code arg)).wouldHold (dieOf s.ref.tile) then
      t.updEntry s.ref (s.nextIndex s.ref) fun f => { f with phase := .waiting } else s.finish t) := by
  refine congrArg _ (State.runRaise_ok h ?_)
  subst ht
  rw [hp, hx, State.ownAddr_issued]
  exact if_pos hd

end

end Sys2Proof.Machine

open Sys2Proof Sys2Proof.Machine

/-- Settles O18: each form raises its cause in the state in which it has issued; a block that has raised one completes when it is
resumed. -/
theorem raisingForms : Obligations.RaisingForms := by
  intro c n arg code s
  refine ⟨?svc, ?trap, ?brkp, ?flti, ?resumed⟩
  case svc =>
    rintro i rfl h
    exact congrArg _ (State.runRaise_ok h rfl)
  case trap =>
    rintro i rfl h
    exact congrArg _ (State.runRaise_ok h rfl)
  case brkp =>
    rintro i rfl h
    exact congrArg _ (State.runRaise_ok h rfl)
  case flti =>
    rintro i x rfl h
    refine ⟨State.flti_unprivileged h, fun hp hx => ⟨State.flti_stops h hp hx, fun t hd ht => ?_⟩⟩
    have hexec := State.flti_notes h hp hx hd ht
    exact ⟨fun hh => hexec.trans (by rw [hh]; rfl), fun hh => hexec.trans (by rw [hh]; rfl)⟩
  case resumed =>
    rintro i k (rfl | rfl | rfl | rfl) hk hr hl <;> exact congrArg _ (State.runRaise_resumed hk hr hl _)
end

section
/-! PROOFS. Fetching, encoding faults and aged slots (O36). -/

namespace Sys2Proof.Machine

/-! ### Fetch (R17, R94) -/

section
variable {s : State} {r : EngRef} {a n : Nat} {p : Phys}

/-- The doublewords of the sector at an address of a place. -/
def State.sectorWords (s : State) (p : Place) (addr : Nat) : List Nat := (upto 4).map fun k => s.readBits p (addr * 8 + 64 * k) 64

theorem State.fetchSectors_succ {ws : List Nat} (ht : s.translate r.tile (s.task (s.taskOf r)).pasid a .fetch = .ok p)
    (hp : p.place ≠ .launchPage) (hc : s.poisoned p.place p.addr = false) (hws : s.fetchSectors r (a + 32) n = .ok ws) :
    s.fetchSectors r a (n + 1) = .ok (s.sectorWords p.place p.addr ++ ws) := by
  rw [State.fetchSectors, ht]
  dsimp only
  rw [if_neg hp, hc, if_neg (by decide), hws]
  rfl

theorem State.fetchSectors_error {c : Cause} (ht : s.translate r.tile (s.task (s.taskOf r)).pasid a .fetch = .error c) :
    s.fetchSectors r a (n + 1) = .error { cause := c, va := a, acc := AccessKind.fetch.walkAcc c } := by
  rw [State.fetchSectors, ht]

/-- Sectors that follow each other. -/
theorem State.fetchSectors_run {q : Phys} (hp : q.place ≠ .launchPage) : ∀ (n a : Nat) (b : Nat),
    (∀ k < n, s.translate r.tile (s.task (s.taskOf r)).pasid (a + 32 * k) .fetch = .ok { q with addr := b + 32 * k }) →
    (∀ k < n, s.poisoned q.place (b + 32 * k) = false) →
    s.fetchSectors r a n = .ok ((upto n).flatMap fun k => s.sectorWords q.place (b + 32 * k))
  | 0, _, _, _, _ => rfl
  | n + 1, a, b, ht, hc => by
    have hrest := State.fetchSectors_run hp n (a + 32) (b + 32)
      (fun k hk => by rw [← show a + 32 * (k + 1) = a + 32 + 32 * k by omega, ht (k + 1) (by omega), show b + 32 * (k + 1) = b + 32 + 32 * k by omega])
      (fun k hk => by rw [← show b + 32 * (k + 1) = b + 32 + 32 * k by omega, hc (k + 1) (by omega)])
    have hfirst := State.fetchSectors_succ (a := a) (ht 0 (by omega)) hp (hc 0 (by omega)) hrest
    rw [hfirst, upto, upto, List.range_succ_eq_map, List.flatMap_cons,
      List.flatMap_map]
    simp only [show ∀ k, b + 32 + 32 * k = b + 32 * k.succ by omega]

/-- Four sectors make the sixteen doublewords of an L-form block. -/
theorem sectorWords_four (s : State) (p : Place) (b : Nat) :
    s.sectorWords p b ++ ((upto 3).flatMap fun k => s.sectorWords p (b + 32 + 32 * k)) =
      (upto 16).map fun k => s.readBits p (b * 8 + 64 * k) 64 := by
  simp [State.sectorWords, upto, List.range_succ, Nat.add_mul, Nat.add_assoc]

theorem State.fetchBlock_short (ht : s.translate r.tile (s.task (s.taskOf r)).pasid a .fetch = .ok p)
    (hp : p.place ≠ .launchPage) (hc : s.poisoned p.place p.addr = false) (hz : szOf (s.readBits p.place (p.addr * 8) 64) = 0) :
    s.fetchBlock r a = { addr := a, words := s.sectorWords p.place p.addr } := by
  have h1 := State.fetchSectors_succ (n := 0) ht hp hc rfl
  rw [List.append_nil] at h1
  unfold State.fetchBlock
  rw [h1]
  exact if_pos hz

theorem State.fetchBlock_long {q : Phys} (hp : q.place ≠ .launchPage)
    (ht : ∀ k < 4, s.translate r.tile (s.task (s.taskOf r)).pasid (a + 32 * k) .fetch = .ok { q with addr := q.addr + 32 * k })
    (hc : ∀ k < 4, s.poisoned q.place (q.addr + 32 * k) = false) (hz : szOf (s.readBits q.place (q.addr * 8) 64) = 1) :
    s.fetchBlock r a = { addr := a, words := (upto 16).map fun k => s.readBits q.place (q.addr * 8 + 64 * k) 64 } := by
  have h1 := State.fetchSectors_succ (n := 0) (ht 0 (by omega)) hp (hc 0 (by omega)) rfl
  have h3 := State.fetchSectors_run hp 3 (a + 32) (q.addr + 32)
    (fun k hk => by rw [← show a + 32 * (k + 1) = a + 32 + 32 * k by omega, ht (k + 1) (by omega), show q.addr + 32 * (k + 1) = q.addr + 32 + 32 * k by omega])
    (fun k hk => by rw [← show q.addr + 32 * (k + 1) = q.addr + 32 + 32 * k by omega, hc (k + 1) (by omega)])
  have hz' : ¬ szOf (dwAt (s.sectorWords q.place q.addr) 0) = 0 := by
    show ¬ szOf (s.readBits q.place (q.addr * 8) 64) = 0
    omega
  rw [List.append_nil] at h1
  unfold State.fetchBlock
  rw [show s.fetchSectors r a 1 = .ok (s.sectorWords q.place q.addr) from h1]
  dsimp only
  rw [if_neg hz', h3]
  dsimp only
  rw [sectorWords_four]

theorem State.fetchBlock_error {c : Cause} (ht : s.translate r.tile (s.task (s.taskOf r)).pasid a .fetch = .error c) :
    s.fetchBlock r a = { addr := a, words := [], fault := some { cause := c, va := a, acc := AccessKind.fetch.walkAcc c } } := by
  unfold State.fetchBlock
  rw [State.fetchSectors_error ht]

end

/-! ### What the steps do -/

section
variable {s : State} {r : EngRef}

theorem execBlockFetch_some {a : Nat} (hr : r.ok = true) (hl : (s.slotAt r.tile r.slot).live = true) (ha : (s.chain r).fetchAt r.eng = some a) :
    exec (.blockFetch r) s = .next (s.updChain r fun h => { h with queue := h.queue ++ [s.fetchBlock r a] }) := by
  show execBlockFetch r s = _
  unfold execBlockFetch
  rw [hr, if_neg (by decide), hl, if_neg (by decide), ha]

theorem execBlockFetch_none (hr : r.ok = true) (hl : (s.slotAt r.tile r.slot).live = true) (ha : (s.chain r).fetchAt r.eng = none) :
    exec (.blockFetch r) s = .next s := by
  show execBlockFetch r s = _
  unfold execBlockFetch
  rw [hr, if_neg (by decide), hl, if_neg (by decide), ha]

/-- A chain that has retired, or whose queue is full, fetches nothing (R87). -/
theorem Chain.fetchAt_none {h : Chain} (hh : 8 ≤ h.queue.length ∨ h.retired = true) (e : Engine) : h.fetchAt e = none := by
  unfold Chain.fetchAt prefetchDepth
  rcases hh with hq | hr
  · simp [hq]
  · simp [hr]

variable {q : Queued} {rest : List Queued}

theorem Chain.head_cons {h : Chain} (hq : h.queue = q :: rest) (ha : q.addr = h.cursor) : h.head = some q := by
  unfold Chain.head
  rw [hq]
  exact if_pos ha

theorem execEncodingFault_error {f : BlockFault} (hr : r.ok = true) (hh : (s.chain r).head = some q) (hf : headInstr r.eng q = .error f)
    (hrun : s.runnable r = true) (href : (s.chain r).refusal = none) :
    exec (.encodingFault r) s = .next (if f.cause.disp == .park || (s.chain r).inflight.isEmpty then s.issueStop r f else s) := by
  show execEncodingFault r s = _
  unfold execEncodingFault
  rw [hr, if_neg (by decide), hh]
  dsimp only
  rw [hf]
  dsimp only
  rw [hrun, href, Bool.true_and, Option.isNone_none, Bool.true_and, apply_ite Host.Outcome.next]

theorem execEncodingFault_ok {i : Instr} (hr : r.ok = true) (hh : (s.chain r).head = some q) (hi : headInstr r.eng q = .ok i) :
    exec (.encodingFault r) s = .next s := by
  show execEncodingFault r s = _
  unfold execEncodingFault
  rw [hr, if_neg (by decide), hh]
  dsimp only
  rw [hi]

theorem headInstr_ok {e : Engine} {i : Instr} (hf : q.fault = none) (hd : decode e q.addr q.words = .ok i) : headInstr e q = .ok i := by
  unfold headInstr
  rw [hf]
  dsimp only
  rw [hd]

theorem headInstr_error {e : Engine} {c : Cause} (hf : q.fault = none) (hd : decode e q.addr q.words = .error c) :
    headInstr e q = .error { cause := c } := by
  unfold headInstr
  rw [hf]
  dsimp only
  rw [hd]

theorem headInstr_fault {e : Engine} {f : FetchFault} (hf : q.fault = some f) :
    headInstr e q = .error { cause := f.cause, fva := f.va, acc := f.acc } := by
  unfold headInstr
  rw [hf]

end

end Sys2Proof.Machine

open Sys2Proof Sys2Proof.Machine

/-- Settles O36: a block fetched is the doublewords of its sectors, or the fault of the first; the head block's fault stops its chain,
a halt once no block is in flight. -/
theorem fetchEvents : Obligations.FetchEvents := by
  refine ⟨fun s r a p q hr hl => ⟨fun ha ht hp hc => ⟨fun hz => ?short, fun hz hts hps hcs => ?long⟩, fun ha c ht => ?error, fun hh => ?full⟩,
    fun s r q rest c hr => ⟨fun hq haddr hrun href => ?encoding, fun l hl => ?aged⟩⟩
  case short => rw [execBlockFetch_some hr hl ha, State.fetchBlock_short ht hp hc hz, State.sectorWords]
  case long =>
    have hpq : p = q := by
      have h0 := hts 0 (by decide)
      rw [Nat.mul_zero, Nat.add_zero, ht] at h0
      exact Except.ok.inj h0
    subst hpq
    rw [execBlockFetch_some hr hl ha, State.fetchBlock_long hps hts hcs hz]
  case error => rw [execBlockFetch_some hr hl ha, State.fetchBlock_error ht]
  case full => exact execBlockFetch_none hr hl (Chain.fetchAt_none hh _)
  case encoding =>
    have hh := Chain.head_cons hq haddr
    refine ⟨fun hf hd => ⟨fun hdisp => ?stops, fun hpark hfl => ?waits⟩, fun f hf hdisp => ?fetch, fun i hf hd => ?decodes⟩
    case stops =>
      rw [execEncodingFault_error hr hh (headInstr_error hf hd) hrun href, if_pos]
      simpa using hdisp
    case waits =>
      rw [execEncodingFault_error hr hh (headInstr_error hf hd) hrun href, if_neg]
      simp [hpark, hfl]
    case fetch =>
      rw [execEncodingFault_error hr hh (headInstr_fault hf) hrun href, if_pos]
      simpa using hdisp
    case decodes => exact execEncodingFault_ok hr hh (headInstr_ok hf hd)
  case aged =>
    constructor
    · intro hw ha
      show execSlotAged r s = _
      unfold execSlotAged ageLimit
      rw [hr, if_neg (by decide), ← hl]
      exact if_pos ⟨hw, by rw [ha]; rfl⟩
    · intro hw
      show execSlotAged r s = _
      unfold execSlotAged ageLimit
      rw [hr, if_neg (by decide), ← hl]
      exact if_neg fun h => absurd h.1 (by omega)
end

section
/-! PROOFS. Completion of blocks and joining of forks (O37). -/

namespace Sys2Proof.Machine

/-! ### BLOCK_COMPLETE (R89, R163, R184, R285) -/

section
variable {s : State} {r : EngRef} {k : Nat} {f : InFlight} (hr : r.ok = true) (hk : (s.chain r).inflight[k]? = some f)
  (hs : (s.chain r).stop ≠ .halted)
include hr hk hs

theorem execBlockComplete_done (hp : f.phase = .done) (he : s.env = {}) :
    exec (.blockComplete r k) s =
      .next (if s.completionWaits r k f || s.signalsLate r f.instr then s else s.completeBlock r k) := by
  show execBlockComplete r k s = _
  unfold execBlockComplete
  rw [hr, if_neg (by decide), hk]
  dsimp only
  rw [if_neg hs, hp, he]
  dsimp only
  rw [Bool.false_and, if_neg (by decide), apply_ite Host.Outcome.next]

theorem execBlockComplete_waiting (hp : f.phase = .waiting) (hl : s.signalsLate r f.instr = false) :
    exec (.blockComplete r k) s =
      .next (if s.waitOver r f.instr then
          if waitCompletes f.instr then s.completeBlock r k else s.updEntry r k fun f => { f with phase := .run }
        else s) := by
  show execBlockComplete r k s = _
  unfold execBlockComplete
  rw [hr, if_neg (by decide), hk]
  dsimp only
  rw [if_neg hs, hp, hl]
  cases s.waitOver r f.instr <;> cases waitCompletes f.instr <;> rfl

theorem execBlockComplete_other (hp : f.phase = .run ∨ f.phase = .ring ∨ f.phase = .parked) (he : s.env = {}) :
    exec (.blockComplete r k) s = .next s := by
  show execBlockComplete r k s = _
  unfold execBlockComplete
  rw [hr, if_neg (by decide), hk]
  dsimp only
  rw [if_neg hs, he]
  rcases hp with hp | hp | hp <;> rw [hp]
  dsimp only
  rw [if_neg (by decide)]

/-- A waiting block whose wait is over completes, where its form does. -/
theorem execBlockComplete_over (hp : f.phase = .waiting) (hl : s.signalsLate r f.instr = false) (hw : s.waitOver r f.instr = true)
    (hc : waitCompletes f.instr = true) : exec (.blockComplete r k) s = .next (s.completeBlock r k) := by
  rw [execBlockComplete_waiting hr hk hs hp hl, if_pos hw, if_pos hc]

/-- One whose wait is not over goes on waiting. -/
theorem execBlockComplete_waits (hp : f.phase = .waiting) (hl : s.signalsLate r f.instr = false) (hw : s.waitOver r f.instr = false) :
    exec (.blockComplete r k) s = .next s := by
  rw [execBlockComplete_waiting hr hk hs hp hl, hw, if_neg (by decide)]

end

/-- A FENCE has waited long enough when its chain has no memory access out and, on an STE, no pull stream is open (R184). -/
theorem State.waitOver_fence {s : State} {r : EngRef} (c : Ctl) (sc : Nat) (hm : s.memForks r = false)
    (hp : r.eng = .ste → ∀ g ∈ (s.ctx r).ringList, g.2.pull = none) : s.waitOver r (.fence c sc) = true := by
  unfold State.waitOver
  rw [hm, Bool.not_false, Bool.true_and, List.all_eq_true]
  intro g hg
  by_cases he : r.eng = .ste
  · simp [hp he g hg]
  · simp [he]

theorem State.waitOver_fence_false {s : State} {r : EngRef} (c : Ctl) (sc : Nat) (hm : s.memForks r = true) :
    s.waitOver r (.fence c sc) = false := by
  unfold State.waitOver
  rw [hm]
  rfl

theorem State.waitOver_subc {s : State} {r : EngRef} {b : LBlk} {g : Ring} (hg : (s.ctx r).ring b.d.base = some g) :
    s.waitOver r (.subc b) = g.sub.isNone := by
  unfold State.waitOver
  dsimp only
  rw [hg]

/-! ### FORK_JOIN (R111, R148, R155, R346) -/

section
variable {s : State} {go line : Access → Bool}

/-- A part of some accesses that all may go and are all lines is all of them. -/
theorem splitBy_all (pick : Nat → Bool) : ∀ {l : List Access} (j : Nat) (kept : List Access), (∀ a ∈ l, go a = true ∧ line a = true) →
    splitBy go line pick j kept l = (l, [])
  | [], _, _, _ => rfl
  | a :: l, j, kept, h => by
    obtain ⟨hgo, hline⟩ := h a List.mem_cons_self
    rw [splitBy, hgo, hline, splitBy_all pick (j + 1) kept fun x hx => h x (List.mem_cons_of_mem _ hx)]
    rfl

theorem splitNow_all {l : List Access} (h : ∀ a ∈ l, go a = true ∧ line a = true) (hl : l ≠ []) : splitNow s go line l = (l, []) := by
  unfold splitNow
  rw [splitBy_all _ 0 [] h]
  dsimp only
  rw [if_neg (by simpa using hl)]

/-- A single access goes, in one turn or another, where it may. -/
theorem splitNow_one {a : Access} (h : go a = true) : splitNow s go line [a] = ([a], []) := by
  have hby (pick : Nat → Bool) : splitBy go line pick 0 [] [a] = if line a || pick 0 then ([a], []) else ([], [a]) := by
    simp [splitBy, h]
  unfold splitNow
  rw [hby, hby]
  cases line a || s.freeBit (2 ^ 30 + 0)
  · simp [h]
  · rfl

theorem splitNow_none {a : Access} (h : go a = false) : splitNow s go line [a] = ([], [a]) := by
  simp [splitNow, splitBy, h]

end

theorem setNth_self {α : Type} {x : α} : ∀ {l : List α} {k : Nat}, l[k]? = some x → setNth l k x = l
  | [], _, _ => rfl
  | _ :: _, 0, h => by
    obtain rfl := Option.some.inj h
    rfl
  | y :: l, k + 1, h => congrArg (y :: ·) (setNth_self (by simpa using h))

section
variable {s : State} {k : Nat} {f : Fork} {l : List Access}

theorem execForkJoin_split (hk : s.forks[k]? = some f) (hf : f.kind = .mem l []) {now later : List Access}
    (h : splitNow s (fun a => !s.behind k a) (fun a => a.place == .launchPage) l = (now, later)) :
    exec (.forkJoin k) s = .next ((((now.filter fun a => !(a.place == .launchPage)).foldl (fun s a => s.performForked f a)
      (({ s with forks := if later.isEmpty then s.forks.eraseIdx k else setNth s.forks k { f with kind := .mem later [] } } : State).freeAccesses
        f.ref.tile now.length))).deliverLines (now.filter fun a => a.place == .launchPage)) := by
  have hgo : (fun a : Access => !s.behind k a && !(a.place == .launchPage && List.any [] fun a : Access => a.place == .launchPage)) =
      fun a => !s.behind k a := by
    funext a
    simp
  show execForkJoin k s = _
  unfold execForkJoin
  rw [hk]
  dsimp only
  rw [hf]
  dsimp only
  rw [hgo, h]
  dsimp only
  rw [List.isEmpty_nil, Bool.and_true]

/-- A fork's last access that is not to a launch page is performed, and the fork joins. -/
theorem execForkJoin_last {a : Access} (hk : s.forks[k]? = some f) (hf : f.kind = .mem [a] []) (hb : s.behind k a = false)
    (hl : a.place ≠ .launchPage) :
    exec (.forkJoin k) s =
      .next ((({ s with forks := s.forks.eraseIdx k } : State).freeAccesses f.ref.tile [a].length).performForked f a) := by
  have hline : (a.place == Place.launchPage) = false := beq_eq_false_iff_ne.mpr hl
  rw [execForkJoin_split hk hf (splitNow_one (by rw [hb]; rfl))]
  simp [hline, State.deliverLines, linesOf]

/-- An access behind an earlier one leaves its fork as it was (R155). -/
theorem execForkJoin_behind {a : Access} (hk : s.forks[k]? = some f) (hf : f.kind = .mem [a] []) (hb : s.behind k a = true) :
    exec (.forkJoin k) s = .next (s.freeAccesses f.ref.tile 0) := by
  have hset : setNth s.forks k { f with kind := .mem [a] [] } = s.forks := hf ▸ setNth_self hk
  rw [execForkJoin_split hk hf (splitNow_none (by rw [hb]; rfl))]
  simp only [List.isEmpty_cons, Bool.false_eq_true, if_false, hset]
  rfl

/-- Accesses to launch pages reach the front end together (R346). -/
theorem execForkJoin_lines (hk : s.forks[k]? = some f) (hf : f.kind = .mem l []) (hne : l ≠ [])
    (h : ∀ x ∈ l, x.place = .launchPage ∧ s.behind k x = false) :
    exec (.forkJoin k) s =
      .next ((({ s with forks := s.forks.eraseIdx k } : State).freeAccesses f.ref.tile l.length).deliverLines l) := by
  have hline : ∀ x ∈ l, (x.place == Place.launchPage) = true := fun x hx => beq_iff_eq.mpr (h x hx).1
  have hall : (l.filter fun a => a.place == .launchPage) = l := List.filter_eq_self.mpr hline
  have hnone : (l.filter fun a => !(a.place == .launchPage)) = [] := List.filter_eq_nil_iff.mpr fun x hx => by simp [hline x hx]
  rw [execForkJoin_split hk hf (splitNow_all (fun x hx => ⟨by rw [(h x hx).2]; rfl, hline x hx⟩) hne), hall, hnone]
  rfl

end

section
variable {t u : State} {f : Fork} {a : Access}

/-- An access of a fork is performed where its PASID owns what it goes to (R111). -/
theorem State.performForked_done {ws : List TileWrite} (hp : a.place ≠ .peer)
    (ho : (a.place ≠ .clusterPool ∧ a.place ≠ .diePool) ∨ t.granuleOwner a.place (a.unit * 8) = f.pasid)
    (h : t.performAccess a = (u, ws, none)) : t.performForked f a = u := by
  have howner : ((a.place == .clusterPool || a.place == .diePool) && t.granuleOwner a.place (a.unit * 8) != f.pasid) = false := by
    rcases ho with ⟨h1, h2⟩ | h1
    · simp [h1, h2]
    · simp [h1]
  unfold State.performForked
  dsimp only
  rw [if_neg hp, howner, if_neg (by decide), h]

/-- A pool access whose PASID no longer owns the granule faults (R111). -/
theorem State.performForked_notOwned (hp : a.place ≠ .peer) (hpool : a.place = .clusterPool ∨ a.place = .diePool)
    (ho : t.granuleOwner a.place (a.unit * 8) ≠ f.pasid) :
    t.performForked f a = t.forkFault f
      { cause := if a.rm then .remoteWindow else .permission, acc := a.acc, ctr := a.ctr, fva := a.va } := by
  have howner : ((a.place == .clusterPool || a.place == .diePool) && t.granuleOwner a.place (a.unit * 8) != f.pasid) = true := by
    simpa [ho] using hpool
  unfold State.performForked
  dsimp only
  rw [if_neg hp, howner, if_pos rfl]

end

end Sys2Proof.Machine

open Sys2Proof Sys2Proof.Machine

/-- Settles O37: a block completes by its phase and its form's wait, and a fork's last access is performed by its place. -/
theorem completionEvents : Obligations.CompletionEvents := by
  unfold Obligations.CompletionEvents
  refine ⟨fun s r k f hr hk hs => ⟨fun hp => ⟨fun hw hl he => ?_, fun hwl he => ?_⟩, fun hp hl => ⟨?_, ?_, ?_, ?_, ?_, ?_, ?_⟩,
      fun hp he => execBlockComplete_other hr hk hs hp he⟩,
    fun s t k f a l hk ha hf _ ht => ⟨?_, ?_, ?_⟩⟩
  · rw [execBlockComplete_done hr hk hs hp he, hw, hl]
    rfl
  · rw [execBlockComplete_done hr hk hs hp he, if_pos (by simpa using hwl)]
  · intro c sc hi hm hpull
    exact execBlockComplete_over hr hk hs hp hl (hi ▸ State.waitOver_fence c sc hm hpull) (hi ▸ rfl)
  · intro b hi hover
    exact execBlockComplete_over hr hk hs hp hl (hi ▸ hover) (hi ▸ rfl)
  · intro c sc hi hm
    exact execBlockComplete_waits hr hk hs hp hl (hi ▸ State.waitOver_fence_false c sc hm)
  · intro b hi hover
    exact execBlockComplete_waits hr hk hs hp hl (hi ▸ hover)
  · intro b g hi hg
    have hwait : s.waitOver r f.instr = g.sub.isNone := hi ▸ State.waitOver_subc hg
    constructor
    · intro hsub
      exact execBlockComplete_over hr hk hs hp hl (by rw [hwait, hsub]; rfl) (hi ▸ rfl)
    · intro hsub
      exact execBlockComplete_waits hr hk hs hp hl (by rw [hwait]; exact Option.isNone_eq_false_iff.mpr (Option.isSome_iff_ne_none.mpr hsub))
  · intro c n v hi
    have hwait : s.waitOver r f.instr = !s.holdsNote r := hi ▸ rfl
    constructor <;> intro hn
    · exact execBlockComplete_over hr hk hs hp hl (by rw [hwait, hn]; rfl) (hi ▸ rfl)
    · exact execBlockComplete_waits hr hk hs hp hl (by rw [hwait, hn]; rfl)
  · intro c t rb ro n hi
    rw [execBlockComplete_waiting hr hk hs hp hl]
    rcases hi with hi | hi | hi | hi <;> rw [hi] <;> rfl
  · rintro rfl hb hlp hpeer
    rw [execForkJoin_last hk hf hb hlp, ← ht]
    have howner : t.granuleOwner = s.granuleOwner := ht ▸ rfl
    constructor
    · intro u ws ho h
      rw [State.performForked_done hpeer (howner ▸ ho) h]
    · intro hpool ho
      rw [State.performForked_notOwned hpeer hpool (howner ▸ ho)]
  · rintro rfl hb
    exact ⟨_, execForkJoin_behind hk hf hb, rfl, fun _ _ => rfl, fun _ => rfl, fun _ => rfl, fun _ => rfl⟩
  · intro h
    rw [ht]
    exact execForkJoin_lines hk hf (List.ne_nil_of_mem ha) h
end

section
/-! PROOFS. Spawn acceptance and refusal, guard faults, ring slots and ended rings (O38). -/

namespace Sys2Proof.Machine

/-! ### The chain's head and its first block that waits for ring slots -/

section
variable {s : State} {r : EngRef}

theorem State.updChain_congr {f g : Chain → Chain} (h : f (s.chain r) = g (s.chain r)) : s.updChain r f = s.updChain r g :=
  congrArg (s.setChain r) h

theorem State.headOf_cons {q : Queued} {rest : List Queued} {i : Instr} (hq : (s.chain r).queue = q :: rest) (ha : q.addr = (s.chain r).cursor)
    (hf : q.fault = none) (hd : decode r.eng q.addr q.words = .ok i) : s.headOf r = some i := by
  unfold State.headOf
  rw [Chain.head_cons hq ha]
  dsimp only
  rw [headInstr_ok hf hd]
  rfl

theorem popQueue_cons {q : Queued} (rest : List Queued) {a : Nat} (ha : q.addr = a) : popQueue (q :: rest) a = rest := if_pos ha

/-- The first of a list's elements that a test picks. -/
theorem findIdx?_first {α : Type} {l : List α} {p : α → Bool} {k : Nat} {x : α} (hk : l[k]? = some x) (hp : p x = true)
    (hb : ∀ j < k, ∀ y, l[j]? = some y → p y = false) : l.findIdx? p = some k := by
  obtain ⟨hlt, rfl⟩ := List.getElem?_eq_some_iff.mp hk
  refine List.findIdx?_eq_some_iff_getElem.mpr ⟨hlt, hp, fun j hj => ?_⟩
  rw [hb j hj l[j] (List.getElem?_eq_getElem (hj.trans hlt))]
  exact Bool.false_ne_true

variable {c : Ctx} {l : List Nat}

/-- No ring with a full slot is ended (R173). -/
theorem Ctx.anyEnded_of_full (h : ∀ n ∈ l, ∃ x, c.ring n = some x ∧ 1 ≤ c.sem x.fsem) : c.anyEnded l = false := by
  refine List.any_eq_false.mpr fun n hn => ?_
  obtain ⟨x, hx, hsem⟩ := h n hn
  have hne : c.sem x.fsem ≠ 0 := by omega
  simp [hx, Ctx.ringEnded, hne]

theorem Ctx.anyEnded_of_mem (h : ∃ n ∈ l, ∃ x, c.ring n = some x ∧ x.prod ≤ x.tokens ∧ c.sem x.fsem = 0) : c.anyEnded l = true := by
  obtain ⟨n, hn, x, hx, hprod, hsem⟩ := h
  refine List.any_eq_true.mpr ⟨n, hn, ?_⟩
  simp [hx, Ctx.ringEnded, hprod, hsem]

variable {k : Nat} {f : InFlight}

/-- The first block that waits for ring slots could take them where each of its rings has a full one. -/
theorem State.slotTaker_of_full (hk : (s.chain r).inflight[k]? = some f)
    (hb : ∀ j < k, ∀ x, (s.chain r).inflight[j]? = some x → x.phase ≠ .ring) (hp : f.phase = .ring) (hrun : s.runnable r = true)
    (h : ∀ n ∈ rqRings f.instr, ∃ x, (s.ctx r).ring n = some x ∧ 1 ≤ (s.ctx r).sem x.fsem) :
    s.slotTaker r = some (k, rqRings f.instr) := by
  have hfirst : ((s.ctx r).chain r.eng).inflight.findIdx? (·.phase == .ring) = some k :=
    findIdx?_first hk (by rw [hp]; rfl) fun j hj x hx => beq_eq_false_iff_ne.mpr (hb j hj x hx)
  have hk' : ((s.ctx r).chain r.eng).inflight[k]? = some f := hk
  unfold State.slotTaker
  dsimp only
  rw [hfirst]
  dsimp only
  rw [hk']
  dsimp only [Option.map_some, Option.getD_some]
  refine if_neg ?_
  rw [hrun, Ctx.anyEnded_of_full h, Bool.not_true, Bool.false_or, Bool.or_false, Bool.not_eq_true, Bool.not_eq_false', List.all_eq_true]
  intro n hn
  obtain ⟨x, hx, hsem⟩ := h n hn
  rw [hx]
  exact decide_eq_true hsem

end

/-! ### What the steps do -/

section
variable {s t : State} {k va st : Nat} {inh : Bool} {f : Fork}

/-- SPAWN_ACCEPT where the scheduler accepts the record (R107). -/
theorem execSpawnAccept_accepted {n : Nat} (hk : s.forks[k]? = some f) (hf : f.kind = .spawn va inh)
    (hpost : ({ s with forks := s.forks.eraseIdx k } : State).post (some (clusterOf f.ref.tile)) f.pasid va (s.task f.task).priv
      (inh && s.isStepped f.task) = (t, 0)) (hlive : t.liveTask f.pasid va = some n) :
    exec (.spawnAccept k) s = .next (t.launchUp (t.task n).launchId) := by
  show execSpawnAccept k s = _
  unfold execSpawnAccept
  rw [hk]
  dsimp only
  rw [hf]
  dsimp only
  rw [hpost]
  dsimp only
  rw [if_pos rfl, hlive]

/-- Where it refuses it and the chain holds no refusal, the chain holds this one. -/
theorem execSpawnAccept_refused {c : Ctx} (hk : s.forks[k]? = some f) (hf : f.kind = .spawn va inh)
    (hpost : ({ s with forks := s.forks.eraseIdx k } : State).post (some (clusterOf f.ref.tile)) f.pasid va (s.task f.task).priv
      (inh && s.isStepped f.task) = (t, st)) (hst : st ≠ 0) (hc : s.ctxOf f.task = some c) (hno : (c.chain f.ref.eng).refusal = none) :
    exec (.spawnAccept k) s = .next (t.updTaskCtx f.task fun c =>
      c.setChain f.ref.eng { c.chain f.ref.eng with refusal := some { status := st, block := f.block, recVa := va } }) := by
  show execSpawnAccept k s = _
  unfold execSpawnAccept
  rw [hk]
  dsimp only
  rw [hf]
  dsimp only
  rw [hpost, hc]
  dsimp only
  rw [if_neg hst, if_neg (by rw [hno]; exact Bool.false_ne_true)]

end

section
variable {s : State} {r : EngRef} (hr : r.ok = true) (hrun : s.runnable r = true)
include hr hrun

theorem execSpawnRefusalRaise_head {v : SpawnRefusal} (hv : (s.chain r).refusal = some v) (hh : (s.chain r).head.isSome = true) :
    exec (.spawnRefusalRaise r) s = .next (s.raiseRefusal r v) := by
  show execSpawnRefusalRaise r s = _
  unfold execSpawnRefusalRaise
  rw [hr, if_neg (by decide), hv]
  dsimp only
  rw [hrun, hh]
  rfl

theorem execGuardFaultRaise_due {g : Guard} {i : Instr} (hg : (s.chain r).guard = some g) (hi : s.headOf r = some i)
    (hdue : (s.chain r).guardDue i = true) :
    exec (.guardFaultRaise r) s = .next (s.takeFault r g.block
      { cause := .guard, fva := g.off, remain := g.rest, bank := g.bank, ctr := g.ctr } .halt false) := by
  show execGuardFaultRaise r s = _
  unfold execGuardFaultRaise
  rw [hr, if_neg (by decide), hg, hi]
  dsimp only
  rw [hrun, hdue]
  rfl

omit hrun in
/-- A head block that needs a count of an ended ring is skipped, where no issued block waits for ring slots (R173). -/
theorem execRingEndSkip_head {i : Instr} (hi : s.headOf r = some i) (hnone : (s.chain r).inflight.all (fun f => f.phase != .ring) = true)
    (hreach : s.reachesIssue r i = true) (hskip : (s.ctx r).skips i = true) : exec (.ringEndSkip r) s = .next (s.skipHead r i) := by
  have hno : (((s.ctx r).chain r.eng).inflight.findIdx? fun f => f.phase == .ring && (s.ctx r).anyEnded (rqRings f.instr)) = none := by
    refine List.findIdx?_eq_none_iff.mpr fun x hx => ?_
    have hx' : (x.phase != .ring) = true := List.all_eq_true.mp hnone x hx
    rw [show (x.phase == .ring) = false from Bool.not_eq_true' _ ▸ hx', Bool.false_and]
  show execRingEndSkip r s = _
  unfold execRingEndSkip
  rw [hr, if_neg (by decide)]
  dsimp only
  rw [hno]
  dsimp only
  rw [hi]
  dsimp only
  rw [hreach, hskip]
  rfl

variable {k : Nat} {f : InFlight} (hk : (s.chain r).inflight[k]? = some f)
  (hb : ∀ j < k, ∀ x, (s.chain r).inflight[j]? = some x → x.phase ≠ .ring) (hp : f.phase = .ring)
include hk hb hp

/-- RING_SLOT_TAKE where each of the block's rings has a full slot: it takes them where the engines before its own leave the
counts (R167, R172). -/
theorem execRingSlotTake_full {l : List (Nat × Nat)} {c1 : Ctx} {taken : List RingRight}
    (hfull : ∀ n ∈ rqRings f.instr, ∃ x, (s.ctx r).ring n = some x ∧ 1 ≤ (s.ctx r).sem x.fsem)
    (hl : l = (s.ctx r).fullCounts (rqRings f.instr)) (htake : (s.ctx r).takeSlots (rqRings f.instr) = (c1, taken)) :
    exec (.ringSlotTake r) s = .next (if (s.ctx r).satisfies (s.takenBefore r) l l then
        (((s.updSlot r.tile r.slot fun x => ({ x with ctx := c1 } : Slot).tests s.cycle (l.map (·.1))).updChain r
          fun h => { h.feetWith f.serial (taken.flatMap fun x => (s.ctx r).slotFoot x.ring x.slot) with since := s.steps }).updEntry r k
            fun f => { f with taken := taken, phase := .run, since := s.steps })
      else s) := by
  subst hl
  show execRingSlotTake r s = _
  unfold execRingSlotTake
  rw [hr, if_neg (by decide)]
  dsimp only
  rw [State.slotTaker_of_full hk hb hp hrun hfull]
  dsimp only
  rw [htake, hk]
  cases (s.ctx r).satisfies (s.takenBefore r) ((s.ctx r).fullCounts (rqRings f.instr)) ((s.ctx r).fullCounts (rqRings f.instr)) <;> rfl

/-- RING_END_SKIP: the first block that waits for a slot of an ended ring completes (R173). -/
theorem execRingEndSkip_ended
    (hended : ∃ n ∈ rqRings f.instr, ∃ x, (s.ctx r).ring n = some x ∧ x.prod ≤ x.tokens ∧ (s.ctx r).sem x.fsem = 0)
    (hlate : s.signalsLate r f.instr = false) (hwait : s.completionWaits r k f = false) :
    exec (.ringEndSkip r) s = .next ((s.updChain r fun h => { h with endFlag := true }).completeBlock r k) := by
  have hk' : ((s.ctx r).chain r.eng).inflight[k]? = some f := hk
  have hfirst : (((s.ctx r).chain r.eng).inflight.findIdx? fun f => f.phase == .ring && (s.ctx r).anyEnded (rqRings f.instr)) = some k := by
    refine findIdx?_first hk ?_ fun j hj x hx => ?_
    · rw [hp, Ctx.anyEnded_of_mem hended]
      rfl
    · rw [beq_eq_false_iff_ne.mpr (hb j hj x hx), Bool.false_and]
  show execRingEndSkip r s = _
  unfold execRingEndSkip
  rw [hr, if_neg (by decide)]
  dsimp only
  rw [hfirst]
  dsimp only
  rw [hk', Option.any_some, hrun, hlate, hwait]
  rfl

end

end Sys2Proof.Machine

open Sys2Proof Sys2Proof.Machine

/-- Settles O38: each event is read off the chain's head, or off the first of its issued blocks that waits for ring slots. -/
theorem chainEvents : Obligations.ChainEvents := by
  unfold Obligations.ChainEvents
  refine ⟨fun s t k va st n inh f r v => ⟨fun hk hf hpost => ⟨?accepted, ?refused⟩, ?raise⟩,
    fun s r i q rest g k f hr hrun => ⟨fun hq ha hfault hd => ⟨?guard, ?skip⟩, fun hk hb hp => ⟨?take, ?ended⟩⟩⟩
  case accepted =>
    rintro rfl hlive
    exact execSpawnAccept_accepted hk hf hpost hlive
  case refused =>
    intro hst c hc hno
    exact execSpawnAccept_refused hk hf hpost hst hc hno
  case raise =>
    intro hr hv hrun hh
    exact execSpawnRefusalRaise_head hr hrun hv hh
  case guard =>
    intro hg hdue
    exact execGuardFaultRaise_due hr hrun hg (State.headOf_cons hq ha hfault hd) hdue
  case skip =>
    intro hnone hreach hskip
    rw [execRingEndSkip_head hr (State.headOf_cons hq ha hfault hd) hnone hreach hskip]
    refine congrArg Host.Outcome.next (State.updChain_congr ?_)
    rw [hq, popQueue_cons rest ha]
  case take =>
    intro l c1 taken hfull hl htake
    rw [execRingSlotTake_full hr hrun hk hb hp hfull hl htake]
    exact ⟨fun h => by rw [if_pos h], fun h => by rw [h, if_neg Bool.false_ne_true]⟩
  case ended =>
    intro hended hlate hwait
    exact execRingEndSkip_ended hr hrun hk hb hp hended hlate hwait
end

section
/-! PROOFS. What a step runs (O57). -/

namespace Sys2Proof.Machine

/-! ### A turn's environment -/

section
variable (s : State)

theorem State.env_sectorFails (t : Tier) (n : Nat) (lasting : Bool) : (s.sectorFails t n lasting).env = s.env := by
  unfold State.sectorFails
  split
  · rfl
  · split <;> rfl

@[simp] theorem State.env_meetSectors : s.meetSectors.env = s.env := by
  refine List.foldlRecOn s.env.fails _ (motive := fun t : State => t.env = s.env) rfl fun t ht e _ => ?_
  cases e with
  | sector m k lasting =>
    dsimp only
    split
    · exact (t.env_sectorFails m k lasting).trans ht
    · exact ht
  | _ => exact ht

/-- No sector fails where the environment says of none that it does (R338). -/
theorem State.meetSectors_none (h : ∀ m k b, Failure.sector m k b ∉ s.env.fails) : s.meetSectors = s := by
  refine List.foldlRecOn s.env.fails _ (motive := fun t : State => t = s) rfl fun t ht e he => ?_
  cases e with
  | sector m k lasting => exact absurd he (h m k lasting)
  | _ => exact ht

theorem State.env_begin (p : Pending) (rest : List Pending) : (s.begin p rest).env = p.env := State.env_meetSectors _

theorem State.begin_now {p : Pending} (h : p.dt = 0) (rest : List Pending) :
    s.begin p rest = ({ s with agenda := rest, steps := s.steps + 1, env := p.env } : State).meetSectors := by
  unfold State.begin State.tick
  rw [if_pos h]

theorem State.env_watchHead (r : EngRef) : (s.watchHead r).env = s.env := by
  rcases s.watchHead_cases r with h | ⟨i, v, hot, h⟩
  · rw [h]
  · obtain ⟨q, hq⟩ := State.sampleAll_eq hot s
    rw [h, hq]
    rfl

end

/-! ### Timed events (R278, R310) -/

section
variable {s : State} {n dt : Nat} {j : Instr}

/-- A timed event is a watchdog's or the end of a decay period. -/
theorem State.timed_mem (h : (n, j) ∈ s.timed) : j = .hotnessDecay ∨ ∃ tile slot, j = .watchdog tile slot := by
  rcases List.mem_append.mp h with hw | hd
  · obtain ⟨⟨k, x⟩, _, hx⟩ := List.mem_map.mp hw
    exact .inr ⟨_, _, (Prod.mk.inj hx).2.symm⟩
  · exact .inl (Prod.mk.inj (List.mem_singleton.mp hd)).2

/-- What is due is a timed event whose moment comes in time. -/
theorem State.dueIn_spec : ∀ e, s.dueIn dt = some e → e.1 ≤ dt ∧ e ∈ s.timed := by
  refine List.foldlRecOn s.timed _ (motive := fun o => ∀ e, o = some e → e.1 ≤ dt ∧ e ∈ s.timed) ?_ fun o ho x hx e he => ?_
  · intro e he
    cases he
  split at he
  · exact ho e he
  next hle =>
    have hxe : x.1 ≤ dt ∧ x ∈ s.timed := ⟨Nat.le_of_not_lt hle, hx⟩
    cases o with
    | none => exact Option.some.inj he ▸ hxe
    | some f =>
      dsimp only at he
      split at he
      · exact Option.some.inj he ▸ hxe
      · exact ho e he

end

/-! ### Turns -/

section
variable {s : State} {r : EngRef} {i : Instr}

theorem isEvent_intro (hl : (lParts i).isNone = true) (hs : (sParts i).isNone = true) (hx : (xParts i).isNone = true) : isEvent i = true := by
  unfold isEvent
  rw [hl, hs, hx]
  rfl

theorem isEvent_timed (h : i = .hotnessDecay ∨ ∃ tile slot, i = .watchdog tile slot) : isEvent i = true := by
  rcases h with rfl | ⟨_, _, rfl⟩ <;> rfl

theorem eventTurn_event (h : isEvent i = true) : eventTurn i s = exec i s := if_pos h

theorem supervisorTurn_custom {c : Nat} (hc : c < numClusters) (h : s.supWord c % 128 = 0x0B) :
    supervisorTurn c s = exec (decodeX (s.supWord c)) { s with hart := c } := by
  have hi : s.supInstr c = some (decodeX (s.supWord c)) := if_neg (not_not_intro h)
  unfold supervisorTurn
  rw [if_neg (Nat.not_le.mpr hc), hi]

theorem supervisorTurn_other {c : Nat} (hc : c < numClusters) (h : s.supWord c % 128 ≠ 0x0B) : supervisorTurn c s = .refused .rv64Instruction := by
  have hi : s.supInstr c = none := if_pos h
  unfold supervisorTurn
  rw [if_neg (Nat.not_le.mpr hc), hi]

/-- A sequencer's turn with its watched word looked at: it takes its step, or leaves the module so. -/
theorem engineTurn_eq {t : State} (hr : r.ok = true) (ht : t = ({ s with ref := r } : State).watchHead r) :
    engineTurn r s = match t.sequence r with | some (i, u) => exec i u | none => .next t := by
  subst ht
  unfold engineTurn
  exact if_neg (by simp [hr])

theorem State.sequence_runsOn {f : InFlight} (h : (s.runsOn r)[s.env.pass]? = some f) : s.sequence r = some (f.instr, s) := by
  unfold State.sequence
  rw [h]

theorem State.sequence_headTurn (h : (s.runsOn r)[s.env.pass]? = none) : s.sequence r = s.headTurn r := by
  unfold State.sequence
  rw [h]

theorem State.headTurn_empty (h : (s.chain r).queue = []) : s.headTurn r = some (.blockFetch r, s) := by
  have hh : (s.chain r).head = none := by
    unfold Chain.head
    rw [h]
  unfold State.headTurn
  dsimp only
  rw [hh]

/-- What the head block asks for, where nothing is raised or skipped at it: to stop at its breakpoint, to issue when the engine grants
it, or to wait (R88). -/
theorem State.headTurn_head {q : Queued} (hh : (s.chain r).head = some q) (hi : headInstr r.eng q = .ok i) (hf : (s.chain r).refusal = none)
    (hg : (s.chain r).guardDue i = false) (hs : (s.ctx r).skips i = false) :
    s.headTurn r = if s.gate r i = .brk then some (i, s)
      else if s.mayGrant r && !s.yieldsTo r i && !s.addsLate r i then some (i, s.grant r) else none := by
  unfold State.headTurn
  dsimp only
  rw [hh]
  dsimp only
  rw [hi]
  dsimp only
  rw [hf, hg, hs]
  rfl

end

section
variable {s : State} {p : Pending} (hnext : s.nextTurn = p) (hp : s.mgmt.powered = true)
include hnext hp

theorem step_powered :
    step s = match s.dueIn p.dt with
      | some (n, i) => eventTurn i (s.begin { dt := n, turn := .event i } ({ p with dt := p.dt - n } :: s.agenda.tail))
      | none => match p.turn with
        | .engine r => engineTurn r (s.begin p s.agenda.tail)
        | .supervisor c => supervisorTurn c (s.begin p s.agenda.tail)
        | .event i => eventTurn i (s.begin p s.agenda.tail) := by
  subst hnext
  unfold step
  exact if_neg (by simp [hp])

/-- What is due comes before the turn (R278, R310). -/
theorem step_due {n : Nat} {j : Instr} (h : s.dueIn p.dt = some (n, j)) :
    n ≤ p.dt ∧ (j = .hotnessDecay ∨ ∃ tile slot, j = .watchdog tile slot) ∧
      step s = exec j (s.begin { dt := n, turn := .event j } ({ p with dt := p.dt - n } :: s.agenda.tail)) := by
  obtain ⟨hle, hmem⟩ := State.dueIn_spec _ h
  have hj := State.timed_mem hmem
  refine ⟨hle, hj, ?_⟩
  rw [step_powered hnext hp, h]
  exact eventTurn_event (isEvent_timed hj)

variable (hd : s.dueIn p.dt = none)
include hd

theorem step_event {i : Instr} (ht : p.turn = .event i) : step s = eventTurn i (s.begin p s.agenda.tail) := by
  rw [step_powered hnext hp, hd, ht]

theorem step_supervisor {c : Nat} (ht : p.turn = .supervisor c) : step s = supervisorTurn c (s.begin p s.agenda.tail) := by
  rw [step_powered hnext hp, hd, ht]

theorem step_engine {t : State} {r : EngRef} (ht : p.turn = .engine r) (hr : r.ok = true)
    (h : t = ({ s.begin p s.agenda.tail with ref := r } : State).watchHead r) :
    step s = match t.sequence r with | some (i, u) => exec i u | none => .next t := by
  rw [step_powered hnext hp, hd, ht]
  exact engineTurn_eq hr h

end

/-- A module without power begins its turn and does nothing, but for a cold reset (R357, R359). -/
theorem step_unpowered {s : State} (hp : s.mgmt.powered = false) (ht : s.nextTurn.turn ≠ .event .coldReset) :
    step s = .next (s.begin s.nextTurn s.agenda.tail) := by
  unfold step
  dsimp only
  rw [hp, if_pos]
  exact bne_iff_ne.mpr ht

end Sys2Proof.Machine

open Sys2Proof Sys2Proof.Machine

/-- Settles O57: a step is its agent's turn, or what is due before it. -/
theorem stepTurns : Obligations.StepTurns := by
  unfold Obligations.StepTurns
  intro s t p r c i hnext
  refine ⟨fun hp hd hturn hr ht => ?engine, fun hp hd hturn hc ht => ?supervisor, fun hp hd hturn hl hs hx => ?event,
    fun hp n j hdue => step_due hnext hp hdue, fun hp hturn => ?unpowered, fun hdt => ⟨s.begin_now hdt _, fun hno => ?begin⟩⟩
  case engine =>
    have hstep := step_engine hnext hp hd hturn hr ht
    have henv : t.env = p.env := by
      rw [ht, State.env_watchHead]
      exact s.env_begin p s.agenda.tail
    refine ⟨fun f hf => ?_, fun q rest hno hq ha hfault hdec href hg hskip => ?_, fun hno hq => ?_⟩
    · rw [hstep, State.sequence_runsOn (henv ▸ hf)]
    · have hhead := State.headTurn_head (Chain.head_cons hq ha) (headInstr_ok hfault hdec) href hg hskip
      rw [hstep, State.sequence_headTurn (henv ▸ hno), hhead]
      refine ⟨fun hgo hgrant hyield hlate => ?_, fun hgo hwait => ?_, fun hbrk => ?_⟩
      · rw [if_neg hgo, hgrant, hyield, hlate]
        rfl
      · rw [if_neg hgo, if_neg]
        rcases hwait with h | h | h <;> simp [h]
      · rw [if_pos hbrk]
    · rw [hstep, State.sequence_headTurn (henv ▸ hno), State.headTurn_empty hq]
  case supervisor =>
    subst ht
    rw [step_supervisor hnext hp hd hturn]
    exact ⟨supervisorTurn_custom hc, supervisorTurn_other hc⟩
  case event => rw [step_event hnext hp hd hturn, eventTurn_event (isEvent_intro hl hs hx)]
  case unpowered =>
    subst hnext
    exact step_unpowered hp hturn
  case begin => rw [s.begin_now hdt, State.meetSectors_none _ hno]
end

section
/-! PROOFS. The load forms: what one iteration of each delivers (O11). -/

namespace Sys2Proof.Machine

/-! ### What an iteration delivers (R131 to R135) -/

section
variable {b : LBlk} {s : State} {r : EngRef} {f : InFlight} {k : Nat} {l xs : List Nat} {hot : Hot} {w : Writes}

theorem copyBody_eq (hl : readOperand s r f b.a (memWidth b.fmt) (b.counters k) = .ok (l, hot))
    (hw : writeOperand s r b.d (memWidth b.fmt) b k l = .ok w) : copyBody b s r f k = .ok (loaded w hot) := by
  rw [copyBody, hl]
  dsimp only
  rw [hw]
  rfl

theorem tileLoadBody_eq {h : Handle} (hf : f.handle = some h) (hl : readTile s r b.a h (b.counters k) = .ok (l, hot))
    (hw : writeOperand s r b.d (memWidth b.fmt) b k l = .ok w) : tileLoadBody b s r f k = .ok (loaded w hot) := by
  rw [tileLoadBody, hf]
  dsimp only
  rw [hl]
  dsimp only
  rw [hw]
  rfl

theorem fillBody_eq (hw : writeOperand s r b.d (memWidth b.fmt) b k (List.replicate b.d.count b.a.base) = .ok w) :
    fillBody b s r f k = .ok (loaded w []) := by
  rw [fillBody, hw]
  rfl

/-- What a gather reads at an element of the tile pool: its value within the region of the origin o, 0 beyond it and at a null
index (R117). -/
def gathered (s : State) (r : EngRef) (o : Int) (width : Nat) : Option Int → Nat
  | some x => if inRegion s r o (width / 8) x then (s.ctx r).mediumBits spTp (8 * x).toNat width else 0
  | none => 0

theorem ldxBody_tile {o : Int} (ho : originAt s r b.a (b.counters k) = o) (hx : indexList s r f b k = .ok xs) (ha : b.a.space = spTp)
    (hw : writeOperand s r b.d (memWidth b.fmt) b k ((indexed o (memWidth b.fmt / 8) xs).map (gathered s r o (memWidth b.fmt))) = .ok w) :
    ldxBody b s r f k = .ok { loaded w [] with
      guard := guardOf s r f b k o (memWidth b.fmt / 8) (indexed o (memWidth b.fmt / 8) xs) } := by
  subst ho
  unfold ldxBody
  dsimp only
  rw [hx]
  dsimp only
  rw [if_pos ha]
  exact congrArg (Except.map _) hw

/-- One walk of LDW, by the mode of its record (R134). -/
def walkOne (s : State) (r : EngRef) (q : WalkRec) (fmt n p : Nat) : Except BlockFault (List Nat × Hot) :=
  if q.mode = 0 then chase (s.viaCarafe r) r q fmt q.hops p else randomWalk (s.viaCarafe r) r q n q.hops 1 p

theorem ldwBody_eq {rec : Nat} {q : WalkRec} {h0 : Hot} {ls : List (List Nat)} (hf : f.handle = some { record := rec }) (hq : walkOf rec = q)
    (hx : readOperand s r f b.b (if q.mode = 0 then 64 else 32) (b.counters k) = .ok (xs, h0))
    (hl : walkAll (walkOne s r q b.fmt) 0 xs = .ok (ls, hot))
    (hw : writeOperand s r b.d (memWidth b.fmt) b k ((upto q.hops).flatMap fun h => ls.map fun l => l.getD h 0) = .ok w) :
    ldwBody b s r f k = .ok (loaded w hot) := by
  subst hq
  unfold walkOne at hl
  unfold ldwBody
  rw [hf]
  dsimp only [Option.map_some, Option.getD_some]
  rw [hx]
  dsimp only
  rw [hl]
  exact congrArg (Except.map _) hw

theorem ldqBody_eq (hl : readOperand s r f b.a (memWidth b.fmt) (b.counters k) = .ok (l, hot)) {hits : List (Nat × Nat)}
    (hh : hits = ((upto l.length).zip l).filter fun x => reaches b.fmt x.2 b.b.base) :
    ldqBody b s r f k = .ok (wrote ((elemBits b.d (originAt s r b.d (b.counters k)) 32).zipWith (fun a v => .tp a.toNat 32 v)
      ([hits.length, min hits.length ((b.d.seg - 1) / 2)] ++ (hits.take ((b.d.seg - 1) / 2)).flatMap fun (n, a) => [n, a])) hot) := by
  subst hh
  rw [ldqBody, hl]
  rfl

end

theorem tileCheck_eq {b : LBlk} {x y : Desc} {s : State} {r : EngRef} {h : Handle} (hh : readHandle s r b x = .ok h)
    (hm : tileMatches x y h = true) : tileCheck b x y s r = .ok (some h) := by
  rw [tileCheck, hh]
  exact if_pos hm

/-! ### Gathers from memory (R132) -/

section
variable {b : LBlk} {s : State} {xs : List Nat} {w : Writes} {pss : List (Option (List Piece))}

theorem ldxBody_memory {o : Int} (ho : o = originAt (s.reading (.ldx b) none) s.ref b.a (b.counters 0))
    (hx : indexList (s.reading (.ldx b) none) s.ref (s.newEntry (.ldx b) none) b 0 = .ok xs) (ha : b.a.space ≠ spTp)
    (hp : s.Places (.ldx b) none .read (memWidth b.fmt) ((indexed o (memWidth b.fmt / 8) xs).map fun a => a.map (8 * ·)) pss)
    (hw : s.Target (.ldx b) none b (s.valuesAt (.ldx b) pss) w) :
    ldxBody b (s.reading (.ldx b) none) s.ref (s.newEntry (.ldx b) none) 0 = .ok (loaded w (placesHot pss)) := by
  subst ho
  unfold State.Places at hp
  unfold ldxBody
  dsimp only
  rw [hx]
  dsimp only
  rw [if_neg ha, hp]
  exact congrArg (Except.map _) hw

theorem ldxlBody_memory (hx : indexList (s.reading (.ldxl b) none) s.ref (s.newEntry (.ldxl b) none) b 0 = .ok xs)
    (hp : s.Places (.ldxl b) none .read (memWidth b.fmt) (lineElems b.a (memWidth b.fmt)
      (indexed (originAt (s.reading (.ldxl b) none) s.ref b.a (b.counters 0)) (pitchOf b.a (memWidth b.fmt)) xs)) pss)
    (hw : s.Target (.ldxl b) none b (s.valuesAt (.ldxl b) pss) w) :
    ldxlBody b (s.reading (.ldxl b) none) s.ref (s.newEntry (.ldxl b) none) 0 = .ok (loaded w (placesHot pss)) := by
  unfold State.Places at hp
  unfold ldxlBody
  dsimp only
  rw [hx]
  dsimp only
  rw [hp]
  exact congrArg (Except.map _) hw

end

/-! ### LDWB from a window or from a tile (R131) -/

theorem execLdwb_window {b : LBlk} (h : b.a.space ≠ spTh) (s : State) :
    execLdwb b s = .next (s.runBlock { body := copyBody b } (.ldwb b)) := by
  rw [execLdwb, if_neg h]

theorem execLdwb_tile {b : LBlk} (h : b.a.space = spTh) (s : State) :
    execLdwb b s = .next (s.runBlock { check := tileCheck b b.a b.d, body := tileLoadBody b } (.ldwb b)) := by
  rw [execLdwb, if_pos h]

end Sys2Proof.Machine

open Sys2Proof Sys2Proof.Machine

/-- Settles O11: each form issues and runs its one iteration, which delivers what its body gives. -/
theorem loadForms : Obligations.LoadForms := by
  intro b s l xs hot hd pss w
  refine ⟨?copy, ?tile, ?fill, ?gather, ?lines, ?walk, ?scan⟩
  case copy =>
    intro i hi ⟨h, hn⟩ hl hw
    have hbody := copyBody_eq hl hw
    rcases hi with rfl | rfl | ⟨rfl, ha⟩
    · exact congrArg _ (State.runBlock_one h hn rfl hbody)
    · exact congrArg _ (State.runBlock_one h hn rfl hbody)
    · exact (execLdwb_window ha s).trans (congrArg _ (State.runBlock_one h hn rfl hbody))
  case tile =>
    intro i hi ⟨h, hn⟩ hh hm hl hw
    have hcheck := tileCheck_eq hh hm
    have hbody := tileLoadBody_eq (f := s.newEntry i (some hd)) rfl hl hw
    rcases hi with rfl | ⟨rfl, ha⟩
    · exact congrArg _ (State.runBlock_one h hn hcheck hbody)
    · exact (execLdwb_tile ha s).trans (congrArg _ (State.runBlock_one h hn hcheck hbody))
  case fill =>
    intro ⟨h, hn⟩ hw
    exact congrArg _ (State.runBlock_one h hn rfl (fillBody_eq (f := s.newEntry (.ldf b) none) hw))
  case gather =>
    intro o ho ⟨h, hn⟩ hx
    exact ⟨fun ha hw => congrArg _ (State.runBlock_one h hn rfl (ldxBody_tile ho.symm hx ha hw)),
      fun ha hp hw => congrArg _ (State.runBlock_one h hn rfl (ldxBody_memory ho hx ha hp hw))⟩
  case lines =>
    intro ⟨h, hn⟩ hx hp hw
    exact congrArg _ (State.runBlock_one h hn rfl (ldxlBody_memory hx hp hw))
  case walk =>
    rintro q rec x ls h0 hcheck hq rfl ⟨h, hn⟩ hx hl hw
    exact congrArg _ (State.runBlock_one h hn hcheck (ldwBody_eq rfl hq.symm hx hl hw))
  case scan =>
    intro ⟨h, hn⟩ hl hits hh
    exact congrArg _ (State.runBlock_one h hn rfl (ldqBody_eq hl hh))
end

section
/-! PROOFS. Regions and rings (O20). -/

namespace Sys2Proof.Machine

@[simp] theorem Ctx.ring_setRing (c : Ctx) (n : Nat) (g : Ring) : (c.setRing n (some g)).ring n = some g :=
  Map.get_set_ne none (Option.some_ne_none g) c.rings

/-- A region that REGD accepts is put in its place, whatever stood there (R180). -/
theorem Ctx.regd_eq {c c1 : Ctx} {n : Nat} {g : Option Region} (h : c.regd n g = .ok c1) : c1 = c.setRegion n g := by
  unfold Ctx.regd at h
  dsimp only at h
  split at h
  · cases h
  split at h
  · cases h
  cases g with
  | none => exact (Except.ok.inj h).symm
  | some x =>
    simp only [Ctx.declare] at h
    split at h
    · cases h
    split at h
    · cases h
    exact (Except.ok.inj h).symm

theorem Ctx.ringd_declares {c : Ctx} {n : Nat} {g : Ring} (hc : c.ring n = none) (hn : g.nslot ≠ 0) (hg : c.ringOk g = true) :
    c.ringd n g = .ok (((c.setSem g.fsem 0).setSem g.esem g.nslot).setRing n (some g)) := by
  simp only [Ctx.ringd, hc, if_neg hn, hg, Bool.not_true, Bool.false_eq_true, if_false]

theorem Ctx.ringd_removes {c : Ctx} {n : Nat} {g old : Ring} (hc : c.ring n = some old) (hn : g.nslot = 0) (hs : old.sub = none)
    (hp : old.pull = none) : c.ringd n g = .ok (c.setRing n none) := by
  simp [Ctx.ringd, hc, hn, hs, hp]

theorem Ctx.addToken_eq {c : Ctx} {n : Nat} {g : Ring} (hc : c.ring n = some g) (hg : g.tokens < g.prod) :
    c.addToken n = some (c.setRing n (some { g with tokens := g.tokens + 1 })) := by
  simp only [Ctx.addToken, hc, if_neg (Nat.not_le.mpr hg)]

theorem State.onSlot_ok (s : State) (r : EngRef) {e : Except Cause Ctx} {c : Ctx} (h : e = .ok c) : s.onSlot r e = .ok (s.setCtx r c) := by
  subst h
  rfl

end Sys2Proof.Machine

open Sys2Proof Sys2Proof.Machine

/-- Settles O20: each form completes as it issues, with its effect on the slot. -/
theorem regionForms : Obligations.RegionForms := by
  intro c b2v b2w b2sem b1v b1w b1sem mode space reg len off prod esem fsem ring slot64 nslot s c1
  refine ⟨?regd, ?ringd, ?eos⟩
  case regd =>
    rintro i rfl h hc
    exact ⟨congrArg _ (State.runNow_ok h (State.onSlot_ok _ _ hc)), Ctx.regd_eq hc⟩
  case ringd =>
    rintro i g x rfl h rfl rfl
    exact ⟨fun hnone hn hok => congrArg _ (State.runNow_ok h (State.onSlot_ok _ _ (Ctx.ringd_declares hnone hn hok))),
      fun old hold hn hsub hpull => congrArg _ (State.runNow_ok h (State.onSlot_ok _ _ (Ctx.ringd_removes hold hn hsub hpull)))⟩
  case eos =>
    rintro i g rfl h hg ht
    refine congrArg _ (State.runStep_ok h ?_)
    rw [hg, Ctx.addToken_eq hg ht]
    rfl
end

section
/-! PROOFS. Acquires, releases and fences (O21). -/

namespace Sys2Proof.Machine

/-! ### Acquires: LDACQ and JOIN (R142, R185) -/

section
variable {s : State} {c : Ctl} {wt w64 scope rb roff imm off n v : Nat} {va : Int} {hot : Hot}

section
variable (h : s.Goes (.ldacq c wt w64 scope rb roff imm off)) (hn : n = if w64 = 1 then 8 else 4)
  (hva : va = rbAddr (s.issued (.ldacq c wt w64 scope rb roff imm off)) s.ref rb roff)
include h hn hva

theorem execLdacq_misaligned (hm : va % (n : Nat) ≠ 0) :
    execLdacq c wt w64 scope rb roff imm off s = .next (s.issueStop s.ref { cause := .misalignedWindow, fva := wrapTo 64 va }) := by
  subst hn hva
  exact congrArg _ (State.runStep_error h (if_pos hm))

/-- The word that LDACQ writes is the one its home has reported, else the one it reads. -/
theorem execLdacq_reads (hm : va % (n : Nat) = 0)
    (hv : ((s.chain s.ref).reported (.ldacq c wt w64 scope rb roff imm off)).elim
      (readWord (s.issued (.ldacq c wt w64 scope rb roff imm off)) s.ref va n) (fun v => .ok (v, [])) = .ok (v, hot)) :
    execLdacq c wt w64 scope rb roff imm off s = .next (s.leaves
      (((s.issued (.ldacq c wt w64 scope rb roff imm off)).acquire s.ref scope va n).sampleAll hot) [.tp (8 * off) (8 * n) v]) := by
  subst hn hva
  refine congrArg _ (State.runStep_ok h ((if_neg (not_not.mpr hm)).trans ?_))
  rw [hv]
  rfl

end

section
variable (h : s.Goes (.join c scope rb roff imm)) (hva : va = rbAddr (s.issued (.join c scope rb roff imm)) s.ref rb roff)
include h hva

theorem execJoin_misaligned (hm : va % (8 : Nat) ≠ 0) :
    execJoin c scope rb roff imm s = .next (s.issueStop s.ref { cause := .misalignedWindow, fva := wrapTo 64 va }) := by
  subst hva
  exact congrArg _ (State.runNow_error h (if_pos hm))

theorem execJoin_reads (hm : va % 8 = 0)
    (hv : ((s.chain s.ref).reported (.join c scope rb roff imm)).elim
      (readWord (s.issued (.join c scope rb roff imm)) s.ref va 8) (fun v => .ok (v, [])) = .ok (v, hot)) :
    execJoin c scope rb roff imm s =
      .next (s.finish (((s.issued (.join c scope rb roff imm)).acquire s.ref scope va 8).sampleAll hot)) := by
  subst hva
  refine congrArg _ (State.runNow_ok h ((if_neg (not_not.mpr hm)).trans ?_))
  rw [hv]

end
end

/-! ### Releases: STREL and POST (R160, R185) -/

section
variable {s : State} {c : Ctl} {si w64 scope rb roff imm off n op val : Nat} {va : Int} {l : List Access}

section
variable (h : s.Goes (.strel c si w64 scope rb roff imm off)) (hn : n = if w64 = 1 then 8 else 4)
  (hva : va = rbAddr (s.issued (.strel c si w64 scope rb roff imm off)) s.ref rb roff)
include h hn hva

theorem execStrel_misaligned (hm : va % (n : Nat) ≠ 0) :
    execStrel c si w64 scope rb roff imm off s = .next (s.issueStop s.ref { cause := .misalignedWindow, fva := wrapTo 64 va }) := by
  subst hn hva
  exact congrArg _ (State.runStep_error h (if_pos hm))

theorem execStrel_handsOver (hm : va % (n : Nat) = 0)
    (hl : wordAccess (s.issued (.strel c si w64 scope rb roff imm off)) s.ref .write va n
      (.write (if si = 1 then imm else (s.sees (.strel c si w64 scope rb roff imm off)).tpWord off n)) = .ok l) :
    execStrel c si w64 scope rb roff imm off s = .next
      ((s.issued (.strel c si w64 scope rb roff imm off)).handOver s.ref (s.nextIndex s.ref) (releases s.ref scope l)) := by
  subst hn hva
  refine congrArg _ (State.runStep_ok h ((if_neg (not_not.mpr hm)).trans ?_))
  unfold State.sees at hl
  rw [hl]

end

section
variable (h : s.Goes (.post c op scope rb roff val)) (hva : va = rbAddr (s.issued (.post c op scope rb roff val)) s.ref rb roff)
include h hva

theorem execPost_misaligned (hm : va % (8 : Nat) ≠ 0) :
    execPost c op scope rb roff val s = .next (s.issueStop s.ref { cause := .misalignedWindow, fva := wrapTo 64 va }) := by
  subst hva
  exact congrArg _ (State.runStep_error h (if_pos hm))

theorem execPost_handsOver (hm : va % 8 = 0)
    (hl : wordAccess (s.issued (.post c op scope rb roff val)) s.ref .atomic va 8 (.rmw (postOp op) val 0 none) = .ok l) :
    execPost c op scope rb roff val s = .next
      ((s.issued (.post c op scope rb roff val)).handOver s.ref (s.nextIndex s.ref) (releases s.ref scope l)) := by
  subst hva
  refine congrArg _ (State.runStep_ok h ((if_neg (not_not.mpr hm)).trans ?_))
  rw [hl]

end
end

end Sys2Proof.Machine

open Sys2Proof Sys2Proof.Machine

/-- Settles O21: a form whose word stands on its own size does its access as it issues, one whose word does not has not issued. -/
theorem orderingForms : Obligations.OrderingForms := by
  intro c wt w64 scope rb roff imm off si op val n v hot l s hn
  refine ⟨?ldacq, ?strel, ?fence, ?post, ?join, ?misaligned⟩
  case ldacq =>
    rintro i va rfl hva h
    refine ⟨execLdacq_misaligned h hn hva, fun hm hr hv => ?_, fun hm hr => ?_⟩
    · exact execLdacq_reads h hn hva hm (by rw [hr]; exact hv)
    · exact execLdacq_reads (hot := []) h hn hva hm (by rw [hr]; rfl)
  case strel =>
    rintro i va rfl hva h hm hl
    exact execStrel_handsOver h hn hva hm hl
  case fence =>
    rintro i rfl h
    exact congrArg _ (State.runStep_ok h rfl)
  case post =>
    rintro i va rfl hva h hm hl
    exact execPost_handsOver h hva hm hl
  case join =>
    rintro i va rfl hva h hm
    refine ⟨fun hr hv => ?_, fun hr => ?_⟩
    · exact execJoin_reads h hva hm (by rw [hr]; exact hv)
    · exact execJoin_reads (hot := []) h hva hm (by rw [hr]; rfl)
  case misaligned =>
    rintro i va m (⟨rfl, rfl⟩ | ⟨rfl, rfl⟩ | ⟨rfl, rfl⟩) hva h hm
    · exact execStrel_misaligned h hn hva hm
    · exact execPost_misaligned h hva hm
    · exact execJoin_misaligned h hva hm
end

section
/-! PROOFS. Opening and closing streams (O22). -/

namespace Sys2Proof.Machine

section
variable {s : State} {b : LBlk} {g : Ring} {x : Ctx}

/-! ### Subscriptions (R136, R140) -/

theorem execSub_opens {h : Handle} (hi : s.Goes (.sub b)) (hx : x = (s.issued (.sub b)).ctx s.ref)
    (hh : readHandle (s.issued (.sub b)) s.ref b b.a = .ok h) (hd : b.d.seg + 1 = tileCount b.a) (hg : x.ring b.d.base = some g)
    (hslot : tileCount b.a * memWidth b.fmt ≤ 8 * g.slot) (hs : g.sub = none) :
    execSub b s = .next (s.finish ((s.issued (.sub b)).setCtx s.ref (x.setRing b.d.base
      (some { g with sub := some { block := (s.chain s.ref).cursor, body := b, handle := h } })))) := by
  subst hx
  refine congrArg _ (State.runNow_ok hi ?_)
  have hfree : ¬(8 * g.slot < tileCount b.a * memWidth b.fmt ∨ g.sub.isSome = true) := by
    rw [hs]
    simpa using hslot
  dsimp only
  rw [hh]
  dsimp only
  rw [if_neg (not_not.mpr hd), hg]
  dsimp only
  rw [if_neg hfree, State.ownAddr_issued]

section
variable (hi : s.Goes (.subc b)) (hx : x = (s.issued (.subc b)).ctx s.ref) (hg : x.ring b.d.base = some g)
include hi hx hg

theorem execSubc_none (hs : g.sub = none) : execSubc b s = .next (s.finish (s.issued (.subc b))) := by
  subst hx
  refine congrArg _ (State.runStep_ok hi ?_)
  dsimp only
  rw [hg]
  dsimp only
  rw [hs]
  rfl

theorem execSubc_sends {y : Stream} (hs : g.sub = some y) (ht : y.took = none) (htok : g.tokens < g.prod) :
    execSubc b s = .next (s.finish ((s.issued (.subc b)).setCtx s.ref ((x.setRing b.d.base (some { g with sub := none })).setRing b.d.base
      (some { g with sub := none, tokens := g.tokens + 1 })))) := by
  subst hx
  have htoken := Ctx.addToken_eq (Ctx.ring_setRing ((s.issued (.subc b)).ctx s.ref) b.d.base { g with sub := none }) htok
  refine congrArg _ (State.runStep_ok hi ?_)
  dsimp only
  rw [hg]
  dsimp only
  rw [hs]
  dsimp only
  rw [ht, if_neg (by decide), htoken]
  rfl

theorem execSubc_waits {y : Stream} (hs : g.sub = some y) (ht : y.took ≠ none) :
    execSubc b s = .next (((s.issued (.subc b)).setCtx s.ref
      (x.setRing b.d.base (some { g with sub := some { y with closing := true } }))).updEntry s.ref (s.nextIndex s.ref)
        fun f => { f with phase := .waiting }) := by
  subst hx
  refine congrArg _ (State.runStep_ok hi ?_)
  dsimp only
  rw [hg]
  dsimp only
  rw [hs]
  dsimp only
  rw [if_pos (Option.isSome_iff_ne_none.mpr ht)]

end

/-! ### Pull streams (R161, R163) -/

theorem execPub_opens {h : Handle} (hi : s.Goes (.pub b)) (hx : x = (s.issued (.pub b)).ctx s.ref)
    (hh : readHandle (s.issued (.pub b)) s.ref b b.d = .ok h) (hg : x.ring b.a.base = some g)
    (hslot : tileCount b.d * memWidth b.fmt ≤ 8 * g.slot) (hp : g.pull = none) :
    execPub b s = .next (s.finish ((s.issued (.pub b)).setCtx s.ref (x.setRing b.a.base
      (some { g with pull := some { block := (s.chain s.ref).cursor, body := b, handle := h } })))) := by
  subst hx
  refine congrArg _ (State.runNow_ok hi ?_)
  have hfree : ¬(8 * g.slot < tileCount b.d * memWidth b.fmt ∨ g.pull.isSome = true) := by
    rw [hp]
    simpa using hslot
  dsimp only
  rw [hh]
  dsimp only
  rw [hg]
  dsimp only
  rw [if_neg hfree, State.ownAddr_issued]

/-- PUBC waits where a pull stream is open that has a slot to finish or writes on their way. -/
theorem execPubc_eq {t : State} (hi : s.Goes (.pubc b)) (hx : x = (s.issued (.pubc b)).ctx s.ref) (hg : x.ring b.a.base = some g)
    (ht : t = (s.issued (.pubc b)).setCtx s.ref (x.setRing b.a.base (some { g with pull := g.pull.bind Stream.closed }))) :
    execPubc b s = .next (if g.pull.isSome && !t.pullOver s.ref b.a.base then
        t.updEntry s.ref (s.nextIndex s.ref) fun f => { f with phase := .waiting }
      else s.finish t) := by
  subst hx
  refine congrArg _ (State.runStep_ok hi ?_)
  dsimp only
  rw [hg]
  dsimp only
  rw [← ht, ← apply_ite Except.ok]
  rfl

end

end Sys2Proof.Machine

open Sys2Proof Sys2Proof.Machine

/-- Settles O22: each form's effect on its ring, in the state in which it has issued. -/
theorem streamForms : Obligations.StreamForms := by
  intro b h g s
  refine ⟨?sub, ?subc, ?pub, ?pubc⟩
  case sub =>
    rintro i x rfl hx hi hh hd hg hslot hs
    exact execSub_opens hi hx hh hd hg hslot hs
  case subc =>
    rintro i x rfl hx hi hg
    exact ⟨execSubc_none hi hx hg, fun _ => execSubc_sends hi hx hg, fun _ => execSubc_waits hi hx hg⟩
  case pub =>
    rintro i x rfl hx hi hh hg hslot hp
    exact execPub_opens hi hx hh hg hslot hp
  case pubc =>
    rintro i x t rfl hx hi hg ht
    have hexec := execPubc_eq hi hx hg ht
    constructor
    · rintro (hp | hover)
      · exact hexec.trans (by rw [hp]; rfl)
      · exact hexec.trans (by rw [hover, Bool.not_true, Bool.and_false]; rfl)
    · intro hp hover
      exact hexec.trans (by rw [Option.isSome_iff_ne_none.mpr hp, hover]; rfl)
end

section
/-! PROOFS. Streams that deliver and drain tiles, translation walks, access entries (O39). -/

namespace Sys2Proof.Machine

/-! ### Deliveries (R136, R138) -/

section
variable {s t : State} {tile slot n k : Nat} {g : Ring} {reg : Region} {x x1 : Stream} {c1 : Ctx}
  (hu : unitsOk tile slot = true)

section
variable (hg : (s.ctx (engRef tile slot .lde)).ring n = some g) (hx : g.sub = some x)
  (hreg : (s.ctx (engRef tile slot .lde)).region g.reg = some reg)
include hu hg hx hreg

/-- No slot is taken where the ring has none that is empty. -/
theorem execSubTileDelivery_idle (ht : (s.ctx (engRef tile slot .lde)).takeEmpty n g x = none) :
    execSubTileDelivery tile slot n s = .next s := by
  unfold execSubTileDelivery
  rw [hu, if_neg (by decide)]
  dsimp only
  rw [hg]
  dsimp only
  rw [hx, hreg]
  dsimp only
  rw [ht]
  exact ite_self _

variable (hrun : s.streamRuns (engRef tile slot .lde) .read x.body.a g.fsem x = true)
  (hs1 : t = s.streamTook (engRef tile slot .lde) x g.esem c1)
  (ht : (s.ctx (engRef tile slot .lde)).takeEmpty n g x = some (c1, x1, k))
include hrun hs1 ht

theorem execSubTileDelivery_ok {vals : List Nat} {hot : Hot} (hv : streamTile t (engRef tile slot .lde) x1 x.body.a = .ok (vals, hot)) :
    execSubTileDelivery tile slot n s =
      .next ((t.sampleAll hot).delivered (engRef tile slot .lde) n x1 (slotWrites g reg k (memWidth x.handle.fmt) vals)) := by
  simp only [execSubTileDelivery, hu, hg, hx, hreg, hrun, ht, ← hs1, hv, Bool.not_true, Bool.false_eq_true, if_false]

theorem execSubTileDelivery_error {e : BlockFault} (hv : streamTile t (engRef tile slot .lde) x1 x.body.a = .error e) :
    execSubTileDelivery tile slot n s =
      .next ((t.updRing (engRef tile slot .lde) n fun g => { g with sub := some { x1 with state := .held } }).streamFault
        (engRef tile slot .lde) x1 e) := by
  simp only [execSubTileDelivery, hu, hg, hx, hreg, hrun, ht, ← hs1, hv, Bool.not_true, Bool.false_eq_true, if_false]

end

theorem Ctx.takeEmpty_none {c : Ctx} (n : Nat) (ht : x.took = none) (hc : c.sem g.esem = 0) : c.takeEmpty n g x = none := by
  simp only [Ctx.takeEmpty, ht, hc, if_true]

/-! ### Drains (R161, R162) -/

/-- A pull stream that has a slot differs from the one before in that slot alone. -/
theorem Ctx.takeFull_stream {c : Ctx} (h : c.takeFull n g x = some (c1, x1, k)) : x1 = { x with took := some k } := by
  unfold Ctx.takeFull at h
  split at h
  next hk =>
    obtain ⟨rfl, rfl, rfl⟩ := h
    rw [← hk]
  next =>
    split at h
    · cases h
    · cases h
      rfl

/-- A stream that has taken a slot drains, also of a ring that has ended since. -/
theorem took_isNone_and_ringEnded {c : Ctx} (h : x.took ≠ none ∨ c.ringEnded g = false) : (x.took.isNone && c.ringEnded g) = false := by
  rcases h with h | h
  · rw [Option.isNone_eq_false_iff.mpr (Option.isSome_iff_ne_none.mpr h), Bool.false_and]
  · rw [h, Bool.and_false]

section
variable (hg : (s.ctx (engRef tile slot .ste)).ring n = some g) (hx : g.pull = some x)
  (hreg : (s.ctx (engRef tile slot .ste)).region g.reg = some reg)
  (hrun : s.streamRuns (engRef tile slot .ste) .write x.body.d g.esem x = true)
include hu hg hx hreg hrun

theorem execPubSlotDrain_ended (ht : x.took = none) (he : (s.ctx (engRef tile slot .ste)).ringEnded g = true) :
    execPubSlotDrain tile slot n s = .next (s.updRing (engRef tile slot .ste) n fun g => { g with pull := none }) := by
  simp only [execPubSlotDrain, hu, hg, hx, hreg, hrun, ht, he, Option.isNone_none, Bool.and_self, Bool.not_true, Bool.false_eq_true,
    if_false, if_true]

variable {vs : List Nat} (he : x.took ≠ none ∨ (s.ctx (engRef tile slot .ste)).ringEnded g = false)
  (hcalm : s.calm (engRef tile slot .ste) = true)
  (ht : (s.ctx (engRef tile slot .ste)).takeFull n g x = some (c1, x1, k)) (hs1 : t = s.streamTook (engRef tile slot .ste) x g.fsem c1)
  (hvs : vs = (upto (tileCount x.body.d)).map fun j =>
    c1.mediumBits reg.space (slotBit g reg k + j * memWidth x.handle.fmt) (memWidth x.handle.fmt))
include he hcalm ht hs1 hvs

theorem execPubSlotDrain_ok {l : List Access} {c2 : Ctx} (hl : drainWrites t (engRef tile slot .ste) x1 vs = .ok l)
    (hc : ((t.addFork (engRef tile slot .ste) x.block s.steps l (some n)).ctx (engRef tile slot .ste)).addSem g.esem 1 = some c2) :
    execPubSlotDrain tile slot n s =
      .next (((t.addFork (engRef tile slot .ste) x.block s.steps l (some n)).setCtx (engRef tile slot .ste) c2).updRing
        (engRef tile slot .ste) n fun g => { g with pull := x1.pulled }) := by
  have hcalm' : t.calm (engRef tile slot .ste) = true := hs1 ▸ hcalm
  have hsteps : t.steps = s.steps := hs1 ▸ rfl
  simp only [execPubSlotDrain, hu, hg, hx, hreg, hrun, took_isNone_and_ringEnded he, ht, ← hs1, Seen.delivers_calm (x := { s := t, v := c1 }) hcalm',
    ← hvs, hl, hsteps, hc, Bool.not_true, Bool.false_eq_true, if_false]

theorem execPubSlotDrain_error {e : BlockFault} (hl : drainWrites t (engRef tile slot .ste) x1 vs = .error e) :
    execPubSlotDrain tile slot n s = .next (t.holdPull (engRef tile slot .ste) n x1 e) := by
  have hcalm' : t.calm (engRef tile slot .ste) = true := hs1 ▸ hcalm
  simp only [execPubSlotDrain, hu, hg, hx, hreg, hrun, took_isNone_and_ringEnded he, ht, ← hs1, Seen.delivers_calm (x := { s := t, v := c1 }) hcalm',
    ← hvs, hl, Bool.not_true, Bool.false_eq_true, if_false]

end
end

/-! ### Translation walks (R118) -/

theorem State.tile_setTile (s : State) (n : Nat) {x : Tile} (h : x ≠ {}) : (s.setTile n x).tile n = x := Map.get_set_ne _ h s.tiles

/-- An entry is put into a TLB, or one for the same page stands there. -/
theorem mem_insertEntry (s : State) (key n : Nat) (e : TlbEntry) (l : List TlbEntry) :
    e ∈ insertEntry s key n e l ∨ l.any (fun x => x.pasid == e.pasid && x.va == e.va && x.size == e.size) = true := by
  unfold insertEntry
  split
  next h => exact .inr h
  next =>
    split <;> exact .inl List.mem_cons_self

section
variable {s : State} {tile pasid va : Nat} (htile : tile < 512)
include htile

theorem execPageWalk_error {c : Cause} (h : s.walk pasid va = .error c) : execPageWalk tile pasid va s = .next s := by
  unfold execPageWalk
  rw [if_neg (Nat.not_le.mpr htile), h]

/-- A walk that finds a leaf offers it to the tile's TLB, and changes nothing else of the tile. -/
theorem execPageWalk_ok {w : Walk} {e : TlbEntry} (h : s.walk pasid va = .ok w)
    (he : e = { pasid := pasid, va := wholePage va w.size, size := w.size, leaf := w.leaf }) :
    ∃ t, execPageWalk tile pasid va s = .next t ∧
      t.tile tile = (s.setTile tile { s.tile tile with tlb := insertEntry s (2 ^ 29) tileTlbSize e (s.tile tile).tlb }).tile tile := by
  subst he
  unfold execPageWalk
  rw [if_neg (Nat.not_le.mpr htile), h]
  exact ⟨_, rfl, by split <;> rfl⟩

end

theorem State.mem_tlb_insertEntry {s t : State} {tile key n : Nat} {e : TlbEntry}
    (ht : t.tile tile = (s.setTile tile { s.tile tile with tlb := insertEntry s key n e (s.tile tile).tlb }).tile tile) :
    e ∈ (t.tile tile).tlb ∨ (s.tile tile).tlb.any (fun x => x.pasid == e.pasid && x.va == e.va && x.size == e.size) = true := by
  refine (mem_insertEntry s key n e (s.tile tile).tlb).imp_left fun he => ?_
  rw [ht, State.tile_setTile s tile fun h => List.ne_nil_of_mem he (congrArg Tile.tlb h)]
  exact he

/-! ### Accesses that wait for an entry (R121) -/

section
variable {s : State} {tile : Nat}

theorem State.admitted_zero (s : State) (before : List Nat) (l : List Access) : s.admitted 0 before l = 0 := by
  cases l <;> rfl

/-- No access of a tile goes out while all its entries are taken. -/
theorem State.waitingFork_none (h : 2048 ≤ (s.tile tile).accesses) : s.waitingFork tile = none := by
  have hroom : tileAccesses - (s.tile tile).accesses = 0 := Nat.sub_eq_zero_of_le h
  rw [State.waitingFork, List.findIdx?_eq_none_iff]
  intro f _
  rw [hroom, State.admitted_zero]
  exact Bool.and_false _

variable (htile : tile < 512)
include htile

theorem execAccessEntryFreed_none (h : s.waitingFork tile = none) : execAccessEntryFreed tile s = .next s := by
  unfold execAccessEntryFreed
  rw [if_neg (Nat.not_le.mpr htile), h]

theorem execAccessEntryFreed_some {k : Nat} {f : Fork} {fl he : List Access} {a : Access} (h : s.waitingFork tile = some k)
    (hk : s.forks[k]? = some f) (hf : f.kind = .mem fl (a :: he)) :
    execAccessEntryFreed tile s = .next (({ s with forks := setNth s.forks k { f with kind := .mem (fl ++ [a]) he } } : State).setTile tile
      { s.tile tile with accesses := (s.tile tile).accesses + 1 }) := by
  unfold execAccessEntryFreed
  rw [if_neg (Nat.not_le.mpr htile), h]
  dsimp only
  rw [hk]
  dsimp only
  rw [hf]

end

end Sys2Proof.Machine

open Sys2Proof Sys2Proof.Machine

/-- Settles O39: a stream's step by the slot it takes and what becomes of its tile; a walk by its leaf; an access by the entries
that are free. -/
theorem carafeEvents : Obligations.CarafeEvents := by
  constructor
  · intro s t tile slot n k r g reg x x1 c1 vals hot l hu henv hwhole hg hreg
    refine ⟨?deliver, ?idle, ?drain⟩
    case deliver =>
      rintro rfl hrun hs1 hx ht
      exact ⟨execSubTileDelivery_ok hu hg hx hreg hrun hs1 ht, fun _ => execSubTileDelivery_error hu hg hx hreg hrun hs1 ht⟩
    case idle =>
      rintro rfl hx htook hsem
      exact execSubTileDelivery_idle hu hg hx hreg (Ctx.takeEmpty_none n htook hsem)
    case drain =>
      rintro rfl hrun hs1 hx
      have hcalm : s.calm (engRef tile slot .ste) = true := by
        rw [State.calm, henv]
        exact hwhole
      refine ⟨execPubSlotDrain_ended hu hg hx hreg hrun, fun he ht vs hvs => ⟨fun hl c2 hc => ?_, fun e hl => ?_⟩⟩
      · obtain rfl := Ctx.takeFull_stream ht
        exact execPubSlotDrain_ok hu hg hx hreg hrun he hcalm ht hs1 hvs hl hc
      · exact execPubSlotDrain_error hu hg hx hreg hrun he hcalm ht hs1 hvs hl
  · intro s t tile pasid va k w e f fl he a htile
    refine ⟨fun hw hentry hexec => ?_, fun hw => ?_, fun c hw => execPageWalk_error htile hw,
      fun _ hk hf hkind => execAccessEntryFreed_some htile hk hf hkind,
      fun hfull => execAccessEntryFreed_none htile (State.waitingFork_none hfull)⟩
    · obtain ⟨u, hu, hkept⟩ := execPageWalk_ok htile hw hentry
      obtain rfl := Host.Outcome.next.inj (hu.symm.trans hexec)
      exact State.mem_tlb_insertEntry hkept
    · obtain ⟨u, hu, -⟩ := execPageWalk_ok htile hw rfl
      exact ⟨u, hu⟩
end

section
/-! PROOFS. The store forms: what one iteration of each hands out (O12). -/

namespace Sys2Proof.Machine

/-! ### What an iteration hands out (R152, R153) -/

section
variable {b : LBlk} {s : State} {r : EngRef} {f : InFlight} {k : Nat} {l xs : List Nat} {hot : Hot} {pss : List (Option (List Piece))}

theorem storeBody_eq {w : Writes} (hl : readOperand s r f b.a (memWidth b.fmt) (b.counters k) = .ok (l, hot))
    (hw : writeOperand s r b.d (memWidth b.fmt) b k l = .ok w) : storeBody b s r f k = .ok (stored w hot) := by
  rw [storeBody, hl]
  dsimp only
  rw [hw]
  rfl

theorem stgBody_eq {o : IterOut} (h : storeBody b s r f k = .ok o) :
    stgBody b s r f k = .ok { o with fork := o.fork.map fun a => { a with line := true } } := by
  rw [stgBody, h]
  rfl

theorem sttBody_eq {h : Handle} (hf : f.handle = some h)
    (hl : readOperand s r f b.a (memWidth b.fmt) (b.counters k) = .ok (l, hot))
    (hp : translateTile (s.viaCarafe r) r .write (memWidth b.fmt) (tileElems b.d h (b.counters k)) = .ok pss) :
    sttBody b s r f k = .ok { fork := tileWrites (packCtr (b.counters k)) pss l, hot := hot } := by
  rw [sttBody, hf]
  dsimp only
  rw [hl]
  dsimp only
  rw [hp]

/-- The write of a scatter at an element of the tile pool: within the region of the origin o, and none beyond it or at a null
index (R117). -/
def scattered (s : State) (r : EngRef) (o : Int) (width v : Nat) : Option Int → Option TileWrite
  | some x => if inRegion s r o (width / 8) x then some (.tp (8 * x).toNat width v) else none
  | none => none

theorem stxBody_tile {o : Int} (ho : originAt s r b.d (b.counters k) = o)
    (hl : readOperand s r f b.a (memWidth b.fmt) (b.counters k) = .ok (l, hot)) (hx : indexList s r f b k = .ok xs)
    (hd : b.d.space = spTp) : stxBody b s r f k = .ok
      { wrote (((indexed o (memWidth b.fmt / 8) xs).zip l).filterMap fun (a, v) => scattered s r o (memWidth b.fmt) v a) hot with
        guard := guardOf s r f b k o (memWidth b.fmt / 8) (indexed o (memWidth b.fmt / 8) xs) } := by
  subst ho
  unfold stxBody
  dsimp only
  rw [hl, hx]
  exact if_pos hd

theorem stxBody_memory {o : Int} (ho : originAt s r b.d (b.counters k) = o)
    (hl : readOperand s r f b.a (memWidth b.fmt) (b.counters k) = .ok (l, hot)) (hx : indexList s r f b k = .ok xs)
    (hd : b.d.space ≠ spTp)
    (hp : translateTile s r .write (memWidth b.fmt) ((indexed o (memWidth b.fmt / 8) xs).map fun a => a.map (8 * ·)) = .ok pss) :
    stxBody b s r f k = .ok { fork := tileWrites (packCtr (b.counters k)) pss l, hot := hot } := by
  subst ho
  unfold stxBody
  dsimp only
  rw [hl, hx]
  dsimp only
  rw [if_neg hd, hp]

theorem stxlBody_eq (hl : readOperand s r f b.a (memWidth b.fmt) (b.counters k) = .ok (l, hot)) (hx : indexList s r f b k = .ok xs)
    (hp : translateTile s r .write (memWidth b.fmt) (lineElems b.d (memWidth b.fmt)
      (indexed (originAt s r b.d (b.counters k)) (pitchOf b.d (memWidth b.fmt)) xs)) = .ok pss) :
    stxlBody b s r f k = .ok { fork := tileWrites (packCtr (b.counters k)) pss l, hot := hot } := by
  unfold stxlBody
  dsimp only
  rw [hl, hx]
  dsimp only
  rw [hp]

/-! ### Steps at homes (R154, R156) -/

theorem strdBody_eq {acc : List Access} (hl : readOperand s r f b.a 32 (b.counters k) = .ok (l, hot))
    (hx : b.b.space = spIx → indexList s r f b k = .ok xs)
    (hs : stepsAt s r b.d (packCtr (b.counters k))
      (if b.b.space = spIx then indexed (originAt s r b.d (b.counters k)) 4 xs else wordAddrs s r b.d (b.counters k))
      (l.map fun v => { f := strdOp b, x := v }) = .ok acc) :
    strdBody b s r f k = .ok (if b.d.space = spGm then { fork := acc, hot := hot } else { homes := acc, hot := hot }) := by
  unfold strdBody
  dsimp only
  by_cases hi : b.b.space = spIx
  · rw [if_pos hi] at hs
    rw [hl, if_pos hi, hx hi]
    dsimp only
    rw [if_pos hi, hs]
  · rw [if_neg hi] at hs
    rw [hl, if_neg hi]
    dsimp only
    rw [if_neg hi, hs]

theorem atomBody_eq {g : Rmw} {back : List (Option Nat)} {acc : List Access}
    (hl : readOperand s r f b.a 32 (b.counters k) = .ok (l, hot))
    (hb : back = if b.b.space = spNone then List.replicate b.d.count none
      else (elemBits b.b (originAt s r b.b (b.counters k)) 32).map fun a => some a.toNat)
    (hs : stepsAt s r b.d (packCtr (b.counters k)) (wordAddrs s r b.d (b.counters k))
      (((atomOperands b (g == .cas) l).zip back).map fun ((e, x), ret) => { f := g, x := x, e := e, ret := ret }) = .ok acc) :
    atomBody b g s r f k = .ok (if b.b.space = spNone
      then { fork := if bits b.cx 3 1 = 1 then releases r (bits b.cx 0 3) acc else acc, hot := hot }
      else { homes := if bits b.cx 3 1 = 1 then releases r (bits b.cx 0 3) acc else acc, hot := hot }) := by
  subst hb
  unfold atomBody
  dsimp only
  rw [hl]
  dsimp only
  rw [hs]

end

/-- Executing an atomic is running its block with the body of its step. -/
theorem exec_atomForm {e : AtomForm} (he : e ∈ atomForms) (b : LBlk) (s : State) :
    exec (e.ins b) s = .next (s.runBlock { body := atomBody b (e.F b) } (e.ins b)) :=
  exec_nestForm (.plain e.ins fun b => atomBody b (e.F b))
    (List.mem_append_left _ (List.mem_append_right _ (List.mem_map_of_mem he))) b s

end Sys2Proof.Machine

open Sys2Proof Sys2Proof.Machine

/-- Settles O12: each form issues and runs its one iteration, which hands out what its body gives. -/
theorem storeForms : Obligations.StoreForms := by
  intro b s l xs hot hd pss w acc
  refine ⟨?copy, ?tile, ?scatter, ?lines, ?reduce, ?atomic⟩
  case copy =>
    intro i _ ⟨h, hn⟩ hl hw
    have hbody := storeBody_eq hl hw
    refine ⟨?_, ?_⟩ <;> rintro rfl
    · exact congrArg _ (State.runBlock_one h hn rfl (stgBody_eq hbody))
    · exact congrArg _ (State.runBlock_one h hn rfl hbody)
  case tile =>
    intro ⟨h, hn⟩ hh hm hl hp
    exact congrArg _ (State.runBlock_one h hn (tileCheck_eq hh hm) (sttBody_eq rfl hl hp))
  case scatter =>
    intro o ho ⟨h, hn⟩ hl hx
    refine ⟨?_, fun hd hp => congrArg _ (State.runBlock_one h hn rfl (stxBody_memory ho.symm hl hx hd hp))⟩
    rintro hd ws rfl
    exact congrArg _ (State.runBlock_one h hn rfl (stxBody_tile ho.symm hl hx hd))
  case lines =>
    intro ⟨h, hn⟩ hl hx hp
    exact congrArg _ (State.runBlock_one h hn rfl (stxlBody_eq hl hx hp))
  case reduce =>
    rintro x rfl ⟨h, hn⟩ hl hx hs
    exact congrArg _ (State.runBlock_one h hn rfl (strdBody_eq hl hx hs))
  case atomic =>
    rintro e he x back acc1 rfl ⟨h, hn⟩ hl hb hs rfl
    exact (exec_atomForm he b s).trans (congrArg _ (State.runBlock_one h hn rfl (atomBody_eq hl hb hs)))
end

section
/-! PROOFS. What a home does with an access: which bytes it may change, and what a write and a step leave (O52). -/

namespace Sys2Proof.Machine

/-! ### Motions decide where accesses are ordered (R273) -/

section
variable {s t : State}

theorem State.serveAt_of_motions (h : t.perc.motions = s.perc.motions) (m : Tier) (a : Nat) : t.serveAt m a = s.serveAt m a := by
  unfold State.serveAt State.motionAt
  rw [h]

theorem State.forwardTo_of_motions (h : t.perc.motions = s.perc.motions) (m : Tier) (a : Nat) : t.forwardTo m a = s.forwardTo m a := by
  unfold State.forwardTo State.motionAt
  rw [h]

theorem State.unitKey_of_motions (h : t.perc.motions = s.perc.motions) (a : Access) : t.unitKey a = s.unitKey a := by
  unfold State.unitKey State.homeUnit
  simp only [State.serveAt_of_motions h]

theorem State.touches_of_motions (h : t.perc.motions = s.perc.motions) (k : Tier) (o : HomeOp) (m : Tier) (x : Nat) :
    t.Touches k o m x ↔ s.Touches k o m x := by
  unfold State.Touches
  rw [State.serveAt_of_motions h, State.forwardTo_of_motions h]

theorem State.serveAt_of_still (h : s.perc.motions = []) (m : Tier) (a : Nat) : s.serveAt m a = (m, a) := by
  simp [State.serveAt, State.motionAt, h]

theorem State.forwardTo_of_still (h : s.perc.motions = []) (m : Tier) (a : Nat) : s.forwardTo m a = none := by
  simp [State.forwardTo, State.motionAt, h]

theorem State.unitKey_of_still (h : s.perc.motions = []) {a : Access} {k : Tier} (hp : a.place = .tier k) :
    s.unitKey a = poisonKey a.place a.unit := by
  simp [State.unitKey, State.homeUnit, hp, State.serveAt_of_still h]

end

/-! ### Writes of a tier -/

theorem State.tierMem_setTierMem (s : State) (k m : Tier) (x : Memory) :
    (s.setTierMem k x).tierMem m = if m = k then x else s.tierMem m := by
  cases k <;> cases m <;> rfl

/-- The tiers are not among the Percolator's registers. -/
theorem State.tierMem_perc (s : State) (q : Percolator) (m : Tier) : ({ s with perc := q } : State).tierMem m = s.tierMem m := by
  cases m <;> rfl

/-- What is remembered of a unit is no memory. -/
theorem State.tierMem_history (s : State) (hi : List Past) (m : Tier) : ({ s with history := hi } : State).tierMem m = s.tierMem m := by
  cases m <;> rfl

/-- Writes w bits of a tier at an address, from a bit of its byte on: one copy of what a write to a tier reaches. -/
def State.putTier (s : State) (k : Tier) (a bit w v : Nat) : State :=
  s.setTierMem k (Memory.putBits (s.tierMem k) (a * 8 + bit % 8) w v)

theorem State.writeBits_tier_alone {s : State} {k : Tier} {bit : Nat} (h : s.forwardTo k (bit / 8) = none) (w v : Nat) :
    s.writeBits (.tier k) bit w v = s.putTier (s.serveAt k (bit / 8)).1 (s.serveAt k (bit / 8)).2 bit w v := by
  unfold State.writeBits
  dsimp only
  rw [h]
  rfl

theorem State.writeBits_tier_forwarded {s : State} {k m : Tier} {bit a : Nat} (h : s.forwardTo k (bit / 8) = some (m, a)) (w v : Nat) :
    s.writeBits (.tier k) bit w v =
      (s.putTier (s.serveAt k (bit / 8)).1 (s.serveAt k (bit / 8)).2 bit w v).putTier m a bit w v := by
  unfold State.writeBits
  dsimp only
  rw [h]
  rfl

/-- A write of a tier leaves every byte that holds none of its bits. -/
theorem State.byte_putTier_other (s : State) {k m : Tier} {a bit w x : Nat} (v : Nat)
    (h : m = k → a ≤ x → ¬ x < a + (bit % 8 + w + 7) / 8) :
    ((s.putTier k a bit w v).tierMem m).byte x = (s.tierMem m).byte x := by
  rw [State.putTier, State.tierMem_setTierMem]
  split
  next hm =>
    subst hm
    have := h rfl
    exact Memory.byte_putBits_other _ _ (by omega)
  next => rfl

/-! ### One element (R149, R154, R156) -/

/-- The write by which a step returns the old value, if it does. -/
def returned (ret : Option Nat) (w old : Nat) : List TileWrite := match ret with | some b => [.tp b w old] | none => []

theorem State.performOp_write {o : HomeOp} {v : Nat} (h : o.kind = .write v) (s : State) (p : Place) :
    s.performOp p o = (s.writeBits p o.bit o.w v, []) := by
  rw [State.performOp, h]

theorem State.performOp_rmw {o : HomeOp} {f : Rmw} {x e : Nat} {ret : Option Nat} (h : o.kind = .rmw f x e ret) (s : State)
    (p : Place) : s.performOp p o =
      (s.writeBits p o.bit o.w (f.apply (s.readBits p o.bit o.w) x e), returned ret o.w (s.readBits p o.bit o.w)) := by
  rw [State.performOp, h]
  rfl

/-- A write of a pool leaves every byte that its element does not cover. -/
theorem HomeOp.byte_putBits_of_not_covers {o : HomeOp} {x : Nat} (h : ¬ o.covers x) (m : Memory) (v : Nat) :
    (Memory.putBits m o.bit o.w v).byte x = m.byte x := by
  unfold HomeOp.covers at h
  exact Memory.byte_putBits_other _ _ (by omega)

/-! ### What an access may change (R149, R273) -/

/-- What accesses to a place with the given elements leave as it was: every byte that no element touches, everything that is no
memory of a home, and the motions. -/
structure State.Spares (s t : State) (p : Place) (ops : List HomeOp) : Prop where
  tiers : ∀ m x, (∀ k o, p = .tier k → o ∈ ops → ¬ s.Touches k o m x) → (t.tierMem m).byte x = (s.tierMem m).byte x
  clusterPool : ∀ x, (p = .clusterPool → ∀ o ∈ ops, ¬ o.covers x) → t.clusterPool.byte x = s.clusterPool.byte x
  diePool : ∀ x, (p = .diePool → ∀ o ∈ ops, ¬ o.covers x) → t.diePool.byte x = s.diePool.byte x
  rest : t.supmem = s.supmem ∧ t.slots = s.slots ∧ t.tasks = s.tasks ∧ t.forks = s.forks ∧ t.harts = s.harts ∧ t.pasids = s.pasids
  motions : t.perc.motions = s.perc.motions

section
variable {s t u : State} {p : Place} {ops : List HomeOp}

theorem State.Spares.refl (s : State) (p : Place) (ops : List HomeOp) : s.Spares s p ops :=
  ⟨fun _ _ _ => rfl, fun _ _ => rfl, fun _ _ => rfl, ⟨rfl, rfl, rfl, rfl, rfl, rfl⟩, rfl⟩

theorem State.Spares.trans (h : s.Spares t p ops) (h' : t.Spares u p ops) : s.Spares u p ops where
  tiers m x hx :=
    (h'.tiers m x fun k o hk ho => (State.touches_of_motions h.motions k o m x).not.mpr (hx k o hk ho)).trans (h.tiers m x hx)
  clusterPool x hx := (h'.clusterPool x hx).trans (h.clusterPool x hx)
  diePool x hx := (h'.diePool x hx).trans (h.diePool x hx)
  rest := by
    obtain ⟨h1, h2, h3, h4, h5, h6⟩ := h.rest
    obtain ⟨h1', h2', h3', h4', h5', h6'⟩ := h'.rest
    exact ⟨h1'.trans h1, h2'.trans h2, h3'.trans h3, h4'.trans h4, h5'.trans h5, h6'.trans h6⟩
  motions := h'.motions.trans h.motions

/-- Samples, poison, events and what is remembered of a unit are no memory. -/
theorem State.spares_records {q : Percolator} (hq : q.motions = s.perc.motions) (po : Map Bool) (th : List ThymeEvent)
    (hi : List Past) : s.Spares { s with perc := q, poison := po, thyme := th, history := hi } p ops where
  tiers m x _ := by cases m <;> rfl
  clusterPool _ _ := rfl
  diePool _ _ := rfl
  rest := ⟨rfl, rfl, rfl, rfl, rfl, rfl⟩
  motions := hq

/-- One copy of a write to a tier, at an address that one of the elements touches. -/
theorem State.spares_putTier {k m : Tier} {a : Nat} {o : HomeOp} (ho : o ∈ ops)
    (ht : ∀ x, a ≤ x → x < a + (o.bit % 8 + o.w + 7) / 8 → s.Touches k o m x) (v : Nat) :
    s.Spares (s.putTier m a o.bit o.w v) (.tier k) ops where
  tiers m' x hx := s.byte_putTier_other v fun hm h1 h2 => hx k o rfl ho (hm ▸ ht x h1 h2)
  clusterPool _ _ := by cases m <;> rfl
  diePool _ _ := by cases m <;> rfl
  rest := by cases m <;> exact ⟨rfl, rfl, rfl, rfl, rfl, rfl⟩
  motions := by cases m <;> rfl

/-- A write of an element reaches where the access is ordered, and the second copy of its chunk. -/
theorem State.spares_writeBits (s : State) (p : Place) {o : HomeOp} (ho : o ∈ ops) (v : Nat) :
    s.Spares (s.writeBits p o.bit o.w v) p ops := by
  cases p with
  | tier k =>
    have hfirst := s.spares_putTier (k := k) (m := (s.serveAt k (o.bit / 8)).1) (a := (s.serveAt k (o.bit / 8)).2) ho
      (fun x h1 h2 => .inl ⟨_, rfl, h1, h2⟩) v
    cases hf : s.forwardTo k (o.bit / 8) with
    | none => exact State.writeBits_tier_alone hf o.w v ▸ hfirst
    | some c =>
      rw [State.writeBits_tier_forwarded hf]
      refine hfirst.trans (State.spares_putTier ho (fun x h1 h2 => .inr ⟨_, ?_, h1, h2⟩) v)
      exact (State.forwardTo_of_motions hfirst.motions k _).trans hf
  | clusterPool =>
    exact ⟨fun m x _ => by cases m <;> rfl, fun x hx => HomeOp.byte_putBits_of_not_covers (hx rfl o ho) _ v, fun _ _ => rfl,
      ⟨rfl, rfl, rfl, rfl, rfl, rfl⟩, rfl⟩
  | diePool =>
    exact ⟨fun m x _ => by cases m <;> rfl, fun _ _ => rfl, fun x hx => HomeOp.byte_putBits_of_not_covers (hx rfl o ho) _ v,
      ⟨rfl, rfl, rfl, rfl, rfl, rfl⟩, rfl⟩
  | launchPage => exact .refl s _ ops
  | peer => exact .refl s _ ops

theorem State.spares_performOp (s : State) (p : Place) {o : HomeOp} (ho : o ∈ ops) : s.Spares (s.performOp p o).1 p ops := by
  cases hk : o.kind with
  | write v =>
    rw [State.performOp_write hk]
    exact s.spares_writeBits p ho v
  | rmw f x e ret =>
    rw [State.performOp_rmw hk]
    exact s.spares_writeBits p ho _

theorem State.spares_performOps (p : Place) : ∀ (l : List HomeOp) (s : State), l ⊆ ops → s.Spares (s.performOps p l).1 p ops
  | [], s, _ => .refl s p ops
  | o :: l, s, h => by
    have h1 := s.spares_performOp p (h List.mem_cons_self)
    exact h1.trans (State.spares_performOps p l _ (List.subset_of_cons_subset h))

end

/-! ### The ways an access ends (R154, R156, R164) -/

/-- A home remembers a write beside the memory it has written. -/
theorem State.remember_eq (s t : State) (a : Access) : ∃ hi, s.remember t a = { t with history := hi } := by
  unfold State.remember
  dsimp only
  split
  · exact ⟨t.history, rfl⟩
  · exact ⟨_, rfl⟩

theorem State.serve_eq (s : State) (a : Access) :
    ∃ hi, s.serve a = ({ (s.performOps a.place a.ops).1 with history := hi }, (s.performOps a.place a.ops).2) := by
  obtain ⟨hi, h⟩ := s.remember_eq (s.performOps a.place a.ops).1 a
  exact ⟨hi, Prod.ext h rfl⟩

theorem State.spares_serve (s : State) (a : Access) : s.Spares (s.serve a).1 a.place a.ops := by
  obtain ⟨hi, h⟩ := s.serve_eq a
  rw [h]
  exact (State.spares_performOps a.place a.ops s (List.Subset.refl _)).trans (State.spares_records rfl _ _ _)

/-- The report of an access to a poisoned unit. -/
def Access.poisonFault (a : Access) : BlockFault := { cause := .poison, fva := a.va, acc := a.acc, ctr := a.ctr }

/-- What a home does with an access in s once its sample has been counted, in s0. -/
def State.answer (s s0 : State) (a : Access) : State × List TileWrite × Option BlockFault :=
  if Map.get false s0.poison (s0.unitKey a) then
    if coversUnit (a.unit * unitBytes a.place * 8) (unitBytes a.place) a.ops then
      let s1 : State := { s0 with poison := Map.set false s0.poison (s0.unitKey a) false }
      let s2 := s1.log { time := s.cycle, kind := 0x13, addr := a.unit * unitBytes a.place }
      ((s2.serve a).1, (s2.serve a).2, none)
    else (s0, [], some a.poisonFault)
  else ((s0.serve a).1, (s0.serve a).2, none)

theorem State.performAccess_eq_answer (s : State) (a : Access) :
    ∃ q : Percolator, q.motions = s.perc.motions ∧ s.performAccess a = s.answer { s with perc := q } a := by
  unfold State.performAccess
  cases a.hot with
  | none => exact ⟨s.perc, rfl, rfl⟩
  | some size =>
    obtain ⟨q, h, hq⟩ := s.sampleAccess_eq a.place (a.unit * unitBytes a.place) size
    refine ⟨q, hq, ?_⟩
    dsimp only
    rw [h]
    rfl

/-- After its sample an access is served, where its unit is not poisoned; it overwrites a poisoned unit as a whole; or it does
nothing but report the poison. -/
theorem State.performAccess_cases (s : State) (a : Access) : ∃ q : Percolator, q.motions = s.perc.motions ∧
    ((Map.get false s.poison (s.unitKey a) = false ∧
        s.performAccess a = ((({ s with perc := q } : State).serve a).1, (({ s with perc := q } : State).serve a).2, none)) ∨
     (Map.get false s.poison (s.unitKey a) = true ∧ coversUnit (a.unit * unitBytes a.place * 8) (unitBytes a.place) a.ops = true ∧
        ∃ po th, s.performAccess a = ((({ s with perc := q, poison := po, thyme := th } : State).serve a).1,
          (({ s with perc := q, poison := po, thyme := th } : State).serve a).2, none)) ∨
     (Map.get false s.poison (s.unitKey a) = true ∧ coversUnit (a.unit * unitBytes a.place * 8) (unitBytes a.place) a.ops = false ∧
        s.performAccess a = ({ s with perc := q }, [], some a.poisonFault))) := by
  obtain ⟨q, hq, h⟩ := s.performAccess_eq_answer a
  refine ⟨q, hq, ?_⟩
  rw [h, State.answer, State.unitKey_of_motions (t := { s with perc := q }) hq a]
  by_cases hp : Map.get false s.poison (s.unitKey a) = true
  · rw [if_pos hp]
    by_cases hc : coversUnit (a.unit * unitBytes a.place * 8) (unitBytes a.place) a.ops = true
    · exact .inr (.inl ⟨hp, hc, _, _, if_pos hc⟩)
    · exact .inr (.inr ⟨hp, Bool.eq_false_iff.mpr hc, if_neg hc⟩)
  · exact .inl ⟨Bool.eq_false_iff.mpr hp, if_neg hp⟩

theorem State.spares_performAccess (s : State) (a : Access) : s.Spares (s.performAccess a).1 a.place a.ops := by
  obtain ⟨q, hq, ⟨-, h⟩ | ⟨-, -, po, th, h⟩ | ⟨-, -, h⟩⟩ := s.performAccess_cases a <;> rw [h]
  · exact (State.spares_records hq s.poison s.thyme s.history).trans (State.spares_serve _ a)
  · exact (State.spares_records hq po th s.history).trans (State.spares_serve _ a)
  · exact State.spares_records hq s.poison s.thyme s.history

/-- A partial access to a poisoned unit changes no memory and is reported (R164). -/
theorem State.performAccess_poisoned {s : State} {a : Access} (h : Map.get false s.poison (s.unitKey a) = true)
    (hc : coversUnit (a.unit * unitBytes a.place * 8) (unitBytes a.place) a.ops = false) :
    ∃ q, s.performAccess a = ({ s with perc := q }, [], some a.poisonFault) := by
  obtain ⟨q, -, ⟨h', -⟩ | ⟨-, h', -⟩ | ⟨-, -, h'⟩⟩ := s.performAccess_cases a
  · exact absurd (h.symm.trans h') (by decide)
  · exact absurd (hc.symm.trans h') (by decide)
  · exact ⟨q, h'⟩

/-! ### An element of whole bytes where no page is in motion (R149, R154, R157) -/

section
variable {s : State} {a : Access} {o : HomeOp} {k : Tier}

/-- An access of one element to a unit that is not poisoned is that element's. -/
theorem State.performAccess_single (h : Map.get false s.poison (s.unitKey a) = false) (ho : a.ops = [o]) :
    ∃ q hi, q.motions = s.perc.motions ∧ s.performAccess a =
      ({ (({ s with perc := q } : State).performOp a.place o).1 with history := hi },
       (({ s with perc := q } : State).performOp a.place o).2, none) := by
  obtain ⟨q, hq, ⟨-, h'⟩ | ⟨h', -⟩ | ⟨h', -⟩⟩ := s.performAccess_cases a
  · obtain ⟨hi, hserve⟩ := State.serve_eq { s with perc := q } a
    refine ⟨q, hi, hq, ?_⟩
    rw [h', hserve, ho]
    simp only [State.performOps, List.append_nil]
  · exact absurd (h.symm.trans h') (by decide)
  · exact absurd (h.symm.trans h') (by decide)

variable (hm : s.perc.motions = []) (hb : o.bit % 8 = 0) (hw : o.w % 8 = 0)
include hm hb hw

theorem State.readBits_tier_still : s.readBits (.tier k) o.bit o.w = (s.tierMem k).nat (o.bit / 8) (o.w / 8) := by
  have haddr : o.bit / 8 * 8 + o.bit % 8 = o.bit := Nat.div_add_mod' o.bit 8
  simp only [State.readBits, State.serveAt_of_still hm, haddr]
  exact if_pos ⟨hb, hw⟩

theorem State.nat_writeBits_still (hwf : (s.tierMem k).wf = true) (v : Nat) :
    ((s.writeBits (.tier k) o.bit o.w v).tierMem k).nat (o.bit / 8) (o.w / 8) = v % 2 ^ o.w := by
  have haddr : o.bit / 8 * 8 + o.bit % 8 = o.bit := Nat.div_add_mod' o.bit 8
  have hbits : 256 ^ (o.w / 8) = 2 ^ o.w := by
    rw [show 256 = 2 ^ 8 from rfl, ← pow_mul, Nat.mul_div_cancel' (Nat.dvd_of_mod_eq_zero hw)]
  rw [State.writeBits_tier_alone (State.forwardTo_of_still hm k _), State.serveAt_of_still hm, State.putTier, State.tierMem_setTierMem,
    if_pos rfl, haddr, Memory.putBits, if_pos ⟨hb, hw⟩, Memory.nat_putNat _ _ _ hwf, hbits]

end

end Sys2Proof.Machine

open Sys2Proof Sys2Proof.Machine

/-- Settles O52: the frame holds of each element's write, and so of the access; an element of whole bytes writes what it is given,
or its step's new value. -/
theorem placedAccess : Obligations.PlacedAccess := by
  intro s t a ws e h
  have hspares := s.spares_performAccess a
  rw [h] at hspares
  obtain ⟨h1, h2, h3, h4, h5, h6⟩ := hspares.rest
  refine ⟨hspares.tiers, hspares.clusterPool, hspares.diePool, h1, h2, h3, h4, h5, h6, ?served, ?poisoned⟩
  case served =>
    intro k o hk ho hb hw hm hwf hp
    obtain ⟨q, hi, hq, hone⟩ := State.performAccess_single ((congrArg _ (State.unitKey_of_still hm hk)).trans hp) ho
    cases h.symm.trans hone
    rw [hk, State.tierMem_history]
    have hmotions : ({ s with perc := q } : State).perc.motions = [] := hq.trans hm
    refine ⟨fun v hv => ?write, fun f v c ret hv => ?step⟩
    case write =>
      rw [State.performOp_write hv]
      exact ⟨State.nat_writeBits_still hmotions hb hw (s.tierMem_perc q k ▸ hwf) v, rfl, rfl⟩
    case step =>
      rw [State.performOp_rmw hv, State.readBits_tier_still hmotions hb hw, s.tierMem_perc]
      exact ⟨State.nat_writeBits_still hmotions hb hw (s.tierMem_perc q k ▸ hwf) _, rfl, rfl⟩
  case poisoned =>
    intro k hk hm hp hc
    obtain ⟨q, hbad⟩ := State.performAccess_poisoned (s := s) (a := a) ((congrArg _ (State.unitKey_of_still hm hk)).trans hp)
      (by rw [hk]; exact hc)
    cases h.symm.trans hbad
    exact ⟨s.tierMem_perc q, rfl⟩
end

section
/-! PROOFS. Semaphores and rendezvous points (O19). -/

namespace Sys2Proof.Machine

/-- A SEMW that may issue has found its count (R178). -/
theorem State.le_sem_of_gate {s : State} {c : Ctl} {dec sem cnt : Nat} (h : s.gate s.ref (.semw c dec sem cnt) = .go) :
    cnt ≤ (s.ctx s.ref).sem sem := by
  have hsems := State.semsHold_of_gate h
  simp only [Ctx.semsHold, semwTest, List.all_cons, List.all_nil, Bool.and_true, Bool.and_eq_true, decide_eq_true_eq] at hsems
  exact hsems.2

theorem State.ownsPoint_eq_true {s : State} {r : EngRef} {pt : Nat} (h : (s.point (pointKey r pt)).owner = some (s.task (s.taskOf r)).pasid) :
    s.ownsPoint r pt = true := beq_iff_eq.mpr h

theorem State.ownsPoint_eq_false {s : State} {r : EngRef} {pt : Nat} (h : (s.point (pointKey r pt)).owner ≠ some (s.task (s.taskOf r)).pasid) :
    s.ownsPoint r pt = false := beq_eq_false_iff_ne.mpr h

/-! ### Semaphores of a slot (R166, R178, R179) -/

section
variable {s t : State} {c : Ctl} {dec rmt slot tile sem cnt x y : Nat}

theorem execSemw_eq (h : s.Goes (.semw c dec sem cnt)) (hring : ((s.issued (.semw c dec sem cnt)).ctx s.ref).ringSem sem = false) :
    execSemw c dec sem cnt s = .next (s.finish
      (if dec = 1 then (s.issued (.semw c dec sem cnt)).updCtx s.ref fun c => c.setSem sem (c.sem sem - cnt)
      else s.issued (.semw c dec sem cnt))) :=
  congrArg _ (State.runNow_ok h (by rw [hring]; rfl))

theorem execSems_otherDie (h : s.Goes (.sems c rmt slot tile sem cnt))
    (hxy : (x, y) = if rmt = 1 then (tile, slot) else (s.ref.tile, s.ref.slot)) (hdie : dieOf x ≠ dieOf s.ref.tile) :
    execSems c rmt slot tile sem cnt s = .next (s.issueStop s.ref { cause := .remoteWindow }) := by
  refine congrArg _ (State.runStep_error h ?_)
  dsimp only
  rw [← hxy]
  exact if_pos hdie

theorem execSems_ok (h : s.Goes (.sems c rmt slot tile sem cnt))
    (hxy : (x, y) = if rmt = 1 then (tile, slot) else (s.ref.tile, s.ref.slot)) (hdie : dieOf x = dieOf s.ref.tile)
    (ht : (s.issued (.sems c rmt slot tile sem cnt)).signalSlot ((s.issued (.sems c rmt slot tile sem cnt)).task
      ((s.issued (.sems c rmt slot tile sem cnt)).taskOf s.ref)).pasid x y sem cnt = some (.ok t)) :
    execSems c rmt slot tile sem cnt s = .next (s.finish t) := by
  refine congrArg _ (State.runStep_ok h ?_)
  dsimp only
  rw [← hxy]
  dsimp only
  rw [if_neg (not_not.mpr hdie), ht]
  rfl

end

/-! ### Points of a cluster (R183) -/

section
variable {s : State} {c : Ctl} {pt exp pw off : Nat}

theorem execBari_free (h : s.Goes (.bari c pt exp)) (hfree : ((s.issued (.bari c pt exp)).point (pointKey s.ref pt)).owner = none) :
    execBari c pt exp s = .next (s.finish ((s.issued (.bari c pt exp)).setPoint (pointKey s.ref pt)
      { owner := some ((s.issued (.bari c pt exp)).task ((s.issued (.bari c pt exp)).taskOf s.ref)).pasid, exp := exp })) :=
  congrArg _ (State.runNow_ok h (by rw [hfree]; rfl))

theorem execBari_taken (h : s.Goes (.bari c pt exp)) (htaken : ((s.issued (.bari c pt exp)).point (pointKey s.ref pt)).owner ≠ none) :
    execBari c pt exp s = .next (s.issueStop s.ref { cause := .barrierReinit }) :=
  congrArg _ (State.runNow_error h (if_pos (Option.isSome_iff_ne_none.mpr htaken)))

theorem execBara_owned (h : s.Goes (.bara c pt pw off)) (hown : (s.issued (.bara c pt pw off)).ownsPoint s.ref pt = true) :
    execBara c pt pw off s = .next (s.leaves
      ((s.issued (.bara c pt pw off)).setPoint (pointKey s.ref pt) ((s.issued (.bara c pt pw off)).point (pointKey s.ref pt)).arrive)
      (if pw = 1 then [.tp (8 * off) 32 ((s.issued (.bara c pt pw off)).point (pointKey s.ref pt)).phase] else [])) :=
  congrArg _ (State.runStep_ok h (by rw [hown]; rfl))

theorem execBara_misused (h : s.Goes (.bara c pt pw off)) (hown : (s.issued (.bara c pt pw off)).ownsPoint s.ref pt = false) :
    execBara c pt pw off s = .next (s.issueStop s.ref { cause := .rendezvousMisuse }) :=
  congrArg _ (State.runStep_error h (by rw [hown]; rfl))

theorem execBarw_owned (h : s.Goes (.barw c pt off)) (hown : (s.issued (.barw c pt off)).ownsPoint s.ref pt = true) :
    execBarw c pt off s = .next (s.finish (s.issued (.barw c pt off))) :=
  congrArg _ (State.runNow_ok h (by rw [hown]; rfl))

theorem execBarw_misused (h : s.Goes (.barw c pt off)) (hown : (s.issued (.barw c pt off)).ownsPoint s.ref pt = false) :
    execBarw c pt off s = .next (s.issueStop s.ref { cause := .rendezvousMisuse }) :=
  congrArg _ (State.runNow_error h (by rw [hown]; rfl))

end
end Sys2Proof.Machine

open Sys2Proof Sys2Proof.Machine

/-- Settles O19: each form completes as it issues or leaves its write in flight, or faults and has not issued; what SEMW has waited
for is a condition of its gate. -/
theorem signalForms : Obligations.SignalForms := by
  refine ⟨fun c sem val off dec cnt rmt slot tile s t => ⟨?semi, ?semq, ?semw, ?sems⟩,
    fun c pt exp pw off s => ⟨?bariFree, ?bariTaken, ?bara, ?barw⟩⟩
  case semi =>
    rintro i rfl h hring
    exact congrArg _ (State.runNow_ok h (by rw [hring]; rfl))
  case semq =>
    rintro i rfl h
    exact congrArg _ (State.runStep_ok h rfl)
  case semw =>
    rintro i rfl h hring
    exact ⟨State.le_sem_of_gate h.gate, fun hdec => (execSemw_eq h hring).trans (by rw [if_pos hdec]),
      fun hdec => (execSemw_eq h hring).trans (by rw [if_neg hdec])⟩
  case sems =>
    rintro i x y rfl h hxy
    exact ⟨execSems_otherDie h hxy, execSems_ok h hxy⟩
  case bariFree =>
    rintro i rfl
    exact execBari_free
  case bariTaken =>
    rintro i rfl
    exact execBari_taken
  case bara =>
    rintro i p rfl h rfl
    exact ⟨fun hown => execBara_owned h (State.ownsPoint_eq_true hown), fun hown => execBara_misused h (State.ownsPoint_eq_false hown)⟩
  case barw =>
    rintro i rfl h
    exact ⟨fun hown => execBarw_owned h (State.ownsPoint_eq_true hown), fun hown => execBarw_misused h (State.ownsPoint_eq_false hown)⟩
end

section
/-! PROOFS. Masked results (O2). -/

namespace Sys2Proof.Machine

/-! ### Masks (R199) -/

theorem at_mapRuns {f : Nat → Nat} (hf : f 0 = 0) (l : Runs) (p : Nat) : Runs.at_ (mapRuns f l) p = f (l.at_ p) := by
  rw [at_eq_runAt, runAt_mapRuns, at_eq_runAt]
  cases runAt l p with
  | none => exact hf.symm
  | some v => rfl

theorem total_mapRuns (f : Nat → Nat) (l : Runs) : Runs.total (mapRuns f l) = l.total := runLen_mapRuns f l

/-- The total of two aligned sequences of one length, and the element each position takes. -/
theorem aligned2 {n : Nat} {a z : Runs} (ha : a.total = n) (hz : z.total = n) (F : Nat → Nat → Nat) :
    Runs.total (mapRuns (fun (x, y) => F x y) (alignRuns a z)) = n ∧
    ∀ p < n, Runs.at_ (mapRuns (fun (x, y) => F x y) (alignRuns a z)) p = F (a.at_ p) (z.at_ p) := by
  rw [total_eq_runLen] at ha hz
  refine ⟨by rw [total_eq_runLen, runLen_mapRuns, runLen_alignRuns, ha, hz, Nat.min_self], fun p hp => ?_⟩
  obtain ⟨x, hx⟩ := Option.isSome_iff_exists.mp (runAt_isSome (l := a) (p := p) (by omega))
  obtain ⟨y, hy⟩ := Option.isSome_iff_exists.mp (runAt_isSome (l := z) (p := p) (by omega))
  simp only [at_eq_runAt, runAt_mapRuns, runAt_alignRuns, hx, hy, Option.bind_some, Option.map_some, Option.getD_some]

section
variable {s : State} {r : EngRef} {b : LBlk} {tag n : Nat} {ctr : Counters} {y out : Runs}

theorem applyMask_unmasked (h : b.msk = 0) : applyMask s r b tag n ctr y = .ok (mergeRuns y) := by
  unfold applyMask maskSeq
  rw [if_pos h]

/-- A mask that is applied has the result's length: it is that of the register MREG. -/
theorem maskSeq_masked (h : b.msk ≠ 0) {m : Option Runs} (hm : maskSeq s r b n = .ok m) :
    ((s.ctx r).vreg b.mreg).len = n ∧ m = some (mapRuns (· % 2) ((s.ctx r).vreg b.mreg).runs) := by
  unfold maskSeq at hm
  rw [if_neg h] at hm
  dsimp only at hm
  split at hm
  next => cases hm
  next hlen =>
    cases hm
    exact ⟨not_not.mp hlen, rfl⟩

theorem oldSeq_ok {d : Runs} (h : oldSeq s r b tag n ctr = .ok d) : (s.ctx r).regSeq b.d tag ctr = .ok d ∧ d.total = n := by
  unfold oldSeq at h
  split at h
  next => cases h
  next v hv =>
    split at h
    next ht =>
      cases h
      exact ⟨hv, ht⟩
    next =>
      split at h <;> cases h

/-- What a mask that is applied makes of a result: zeros or old D where it holds 0. -/
theorem applyMask_masked (h : b.msk ≠ 0) (ho : applyMask s r b tag n ctr y = .ok out) :
    ∃ m, maskSeq s r b n = .ok (some m) ∧
    ((b.zm = 1 ∧ out = mergeRuns (mapRuns (fun (v, on) => if on = 1 then v else 0) (alignRuns y m))) ∨
     (b.zm ≠ 1 ∧ ∃ d, oldSeq s r b tag n ctr = .ok d ∧
        out = mergeRuns (mapRuns (fun ((v, on), o) => if on = 1 then v else o) (alignRuns (alignRuns y m) d)))) := by
  unfold applyMask at ho
  split at ho
  next => cases ho
  next hm => cases (maskSeq_masked h hm).2
  next m hm =>
    refine ⟨m, hm, ?_⟩
    split at ho
    next hz =>
      cases ho
      exact .inl ⟨hz, rfl⟩
    next hz =>
      split at ho
      next => cases ho
      next d hd =>
        cases ho
        exact .inr ⟨hz, d, hd, rfl⟩

/-- The elements of a masked result, by what the mask holds at their position. -/
theorem applyMask_at (hy : y.total = n) (h : b.msk ≠ 0) (ho : applyMask s r b tag n ctr y = .ok out) :
    ((s.ctx r).vreg b.mreg).len = n ∧ out.total = n ∧ ∃ old : Nat → Nat,
      (∀ p < n, out.at_ p = if Runs.at_ ((s.ctx r).vreg b.mreg).runs p % 2 = 1 then y.at_ p else old p) ∧
      (b.zm = 1 → ∀ p, old p = 0) ∧
      (b.zm ≠ 1 → ∃ d, (s.ctx r).regSeq b.d tag ctr = .ok d ∧ d.total = n ∧ ∀ p, old p = d.at_ p) := by
  obtain ⟨m, hm, hout⟩ := applyMask_masked h ho
  obtain ⟨hlen, hrun⟩ := maskSeq_masked h hm
  obtain rfl := Option.some.inj hrun
  have hmt : Runs.total (mapRuns (· % 2) ((s.ctx r).vreg b.mreg).runs) = n := (total_mapRuns _ _).trans hlen
  have hma := at_mapRuns (f := (· % 2)) rfl ((s.ctx r).vreg b.mreg).runs
  rcases hout with ⟨hz, rfl⟩ | ⟨hz, d, hd, rfl⟩
  · obtain ⟨ht, hat⟩ := aligned2 hy hmt fun v on => if on = 1 then v else 0
    refine ⟨hlen, (total_mergeRuns _).trans ht, fun _ => 0, fun p hp => ?_, fun _ _ => rfl, fun hz' => absurd hz hz'⟩
    rw [at_mergeRuns, ← hma]
    exact hat p hp
  · obtain ⟨hreg, hdt⟩ := oldSeq_ok hd
    obtain ⟨ht, hat⟩ := aligned3 n y _ d hy hmt hdt fun v on o => if on = 1 then v else o
    refine ⟨hlen, (total_mergeRuns _).trans ht, d.at_, fun p hp => ?_, fun hz' => absurd hz' hz,
      fun _ => ⟨d, hreg, hdt, fun _ => rfl⟩⟩
    rw [at_mergeRuns, ← hma]
    exact hat p hp

end

end Sys2Proof.Machine

open Sys2Proof Sys2Proof.Machine

/-- Settles O2, by the cases of R199: no mask, a zeroing mask, a merge mask; the mask and old D are aligned with the result, so each
position takes what they hold there. -/
theorem maskedResult : Obligations.MaskedResult := by
  intro s r b tag n ctr y out hy ho
  by_cases h : b.msk = 0
  · obtain rfl : mergeRuns y = out := Except.ok.inj ((applyMask_unmasked h).symm.trans ho)
    exact ⟨(total_mergeRuns y).trans hy, fun _ p _ => at_mergeRuns y p, fun h' => absurd h h'⟩
  · obtain ⟨hlen, ht, old, hat, hzero, hold⟩ := applyMask_at hy h ho
    refine ⟨ht, fun h' => absurd h' h, fun _ => ⟨hlen, fun p hp => ⟨fun h1 => ?_, fun h0 hz => ?_, fun h0 hz => ?_⟩⟩⟩
    · rw [hat p hp, if_pos h1]
    · rw [hat p hp, if_neg (by omega), hzero hz]
    · obtain ⟨d, hd, hdt, hdp⟩ := hold hz
      exact ⟨d, hd, hdt, by rw [hat p hp, if_neg (by omega), hdp]⟩
end

section
/-! PROOFS. Elementwise forms: their results (O1), and where they trap. -/

namespace Sys2Proof.Machine

/-! ### The elementwise forms (R198) -/

/-- Executing an elementwise form is running its function over its block. -/
theorem exec_elementForm {e : ElementForm} (he : e ∈ floatForms ++ intForms ++ maskForms ++ convertForms) (b : LBlk) (s : State) :
    exec (e.ins b) s = .next (runElem (e.ins b) b (e.tag b) e.two e.old (e.F b) s) :=
  exec_nestForm (.vec e.ins fun b => elemBody b b.fmt b.fmt (e.tag b) e.two e.old (e.F b))
    (List.mem_append_right _ (List.mem_append_left _ (List.mem_append_left _ (List.mem_map_of_mem he)))) b s

/-- Does a whole operand in FMT have a length that its block cannot use? -/
def lengthUnfit (t : State) (r : EngRef) (f : InFlight) (b : LBlk) (x : Desc) : Bool :=
  !windowed x && (match operandSeq t r f x b.fmt (b.counters 0) with
    | .error e => e.cause == .lengthMismatch && !e.late
    | .ok _ => false)

theorem lengthUnfit_ok {t : State} {r : EngRef} {f : InFlight} {b : LBlk} {x : Desc} {p : Runs × Hot}
    (h : operandSeq t r f x b.fmt (b.counters 0) = .ok p) : lengthUnfit t r f b x = false := by
  simp [lengthUnfit, h]

/-- An elementwise form runs over its nest, has no tolerance, reads old D where its table says so, and looks at the lengths of A
and B alone. -/
theorem elementForm_ins : ∀ e ∈ floatForms ++ intForms ++ maskForms ++ convertForms, ∀ b : LBlk,
    iterationsOf (e.ins b) = b.iterations ∧ (∀ x, e.ins b ≠ .vrcot x) ∧ readsOld (e.ins b) = e.old ∧
    ∀ t r f, wholeLengthBad t r f (e.ins b) b = (lengthUnfit t r f b b.a || (b.b.space != spNone && lengthUnfit t r f b b.b)) := by
  simp only [floatForms, intForms, maskForms, convertForms, List.cons_append, List.nil_append, List.forall_mem_cons, List.not_mem_nil,
    false_imp_iff, implies_true, and_true]
  and_intros <;> exact fun _ => ⟨rfl, nofun, rfl, fun _ _ _ => rfl⟩

/-! ### Faults of VXE forms (R88, R197, R201) -/

section
variable {s : State} {i : Instr} {b : LBlk} {body : Body} {e : BlockFault}

theorem vecCheck_badTags (h : ¬ s.TagsOk i b) : (vecBehaviour i b body).check s s.ref = bad .formatTag := by
  have ht : tagsOk (s.seenBy s.ref (s.nextIndex s.ref)) s.ref i b = false := Bool.eq_false_iff.mpr h
  unfold vecBehaviour
  simp only [ht, Bool.not_false, if_true]

theorem vecCheck_atIssue (h : s.TagsOk i b) (he : ∀ p ∈ s.views i, body p.1 s.ref p.2 0 = .error e) (ha : atIssue i b e = true) :
    (vecBehaviour i b body).check s s.ref = .error e := by
  have ht : tagsOk (s.seenBy s.ref (s.nextIndex s.ref)) s.ref i b = true := h
  have he' := he _ List.mem_cons_self
  unfold vecBehaviour
  simp only [ht, he', ha, Bool.not_true, Bool.false_eq_true, if_false, if_true]

theorem vecCheck_late (h : s.TagsOk i b) (hv : ∀ x, i ≠ .vrcot x) (he : ∀ p ∈ s.views i, body p.1 s.ref p.2 0 = .error e)
    (ha : atIssue i b e = false) (hl : ∀ p ∈ s.views i, wholeLengthBad p.1 s.ref p.2 i b = false) :
    (vecBehaviour i b body).check s s.ref = .ok none := by
  have ht : tagsOk (s.seenBy s.ref (s.nextIndex s.ref)) s.ref i b = true := h
  have he' := he _ List.mem_cons_self
  have hl' := hl _ List.mem_cons_self
  unfold vecBehaviour
  simp only [ht, he', ha, hl', Bool.not_true, Bool.false_eq_true, if_false]

/-- A block whose first iteration meets a fault stays in flight at it (R119, R201). -/
theorem State.continueBlock_fault {beh : Behaviour} {hd : Option Handle} (h : s.Issues i) (hn : iterationsOf i = 1)
    (he : beh.body (s.reading i hd) s.ref (s.newEntry i hd) 0 = .error e) :
    (s.startBlock s.ref i hd).continueBlock beh s.ref (s.nextIndex s.ref) = s.faulted i hd e := by
  obtain ⟨-, -, -, -, hk⟩ := s.startBlock_keeps i hd
  have hpark : ((s.startBlock s.ref i hd).slotAt s.ref.tile s.ref.slot).parking = false := by
    rw [hk]
    exact State.parking_of_runnable (State.runnable_of_gate h.gate)
  have hiter : iterationsOf (s.newEntry i hd).instr - (s.newEntry i hd).ctr = 0 + 1 := by
    show iterationsOf i - 0 = 0 + 1
    rw [hn]
  have hread : (s.firstRun i hd).read beh s.ref = s.firstRun i hd := Run.read_calm beh (h.calmRun hd) rfl
  have hbody : beh.body ((s.firstRun i hd).seen s.ref) s.ref (s.firstRun i hd).f (s.firstRun i hd).f.ctr = .error e := he
  have hrun : runIters beh s.ref (0 + 1) (s.firstRun i hd) = { s.firstRun i hd with fault := some { e with ctr := ctrOf i 0 } } := by
    have hring : (!(rqRings (s.firstRun i hd).f.instr).isEmpty && (s.firstRun i hd).f.taken.isEmpty) = false := h.taken hd
    rw [runIters, hring, s.late_firstRun i hd, h.timely]
    dsimp only
    rw [hread, hbody]
    rfl
  rw [State.continueBlock_eq beh hpark (s.entry_startBlock i hd)]
  dsimp only
  rw [hiter]
  exact congrArg (fun x : Run => x.s.endRun s.ref (s.nextIndex s.ref) x.f x.fork x.fault) hrun

/-- A VXE form of one iteration that faults as it computes its result, and not on a length at issue, has issued. -/
theorem State.runVec_fault (h : s.Issues i) (hn : iterationsOf i = 1) (hg : s.TagsOk i b) (hv : ∀ x, i ≠ .vrcot x)
    (he : ∀ p ∈ s.views i, body p.1 s.ref p.2 0 = .error e) (ha : atIssue i b e = false)
    (hl : ∀ p ∈ s.views i, wholeLengthBad p.1 s.ref p.2 i b = false) : s.runBlock (vecBehaviour i b body) i = s.faulted i none e := by
  rw [State.runBlock_issues h (vecCheck_late hg hv he ha hl)]
  exact State.continueBlock_fault h hn (he _ (List.mem_cons_of_mem _ List.mem_cons_self))

end

/-! ### Results that no register holds (R193, R201) -/

section
variable {t : State} {r : EngRef} {b : LBlk} {tag n : Nat} {ctr : Counters} {y : Runs} {h : Hot}

theorem finishVec_tooLong (hm : b.msk = 0) (hd : b.d.pad = 0) (hy : 65536 < y.total) :
    finishVec t r b tag n ctr y h = bad .lengthMismatch := by
  have hmask : applyMask t r b tag n ctr y = .ok (mergeRuns y) := applyMask_unmasked hm
  have hw : writeReg t r b.d tag ctr (mergeRuns y) = bad .lengthMismatch := by
    rw [writeReg, if_pos hd, if_pos (by rwa [total_mergeRuns])]
  simp only [finishVec, hmask, hw]
  rfl

theorem finishVec_overflows (hm : b.msk = 0) (hd : b.d.pad = 0) (hy : y.total ≤ 65536) (hr : 512 < (mergeRuns y).length) :
    finishVec t r b tag n ctr y h = .error (overflowFault (mergeRuns y)) := by
  have hmask : applyMask t r b tag n ctr y = .ok (mergeRuns y) := applyMask_unmasked hm
  have hw : writeReg t r b.d tag ctr (mergeRuns y) = .error (overflowFault (mergeRuns y)) := by
    rw [writeReg, if_pos hd, if_neg (by rw [total_mergeRuns]; omega), if_pos hr]
  simp only [finishVec, hmask, hw]

end

/-! ### Operands of elementwise forms (R197) -/

/-- Every operand of an elementwise form has the result's length or one element (R197). -/
theorem elementForm_operands {e : ElementForm} {a z d : Runs} {n : Nat} {h2 : Hot} {P Q : Prop}
    (hz : if e.two then P else z = a ∧ h2 = []) (hd : if e.old then Q else d = z)
    (hl : resultLen ([a.total] ++ (if e.two then [z.total] else []) ++ (if e.old then [d.total] else [])) = some n) :
    (a.total = n ∨ a.total = 1) ∧ (z.total = n ∨ z.total = 1) ∧ (d.total = n ∨ d.total = 1) := by
  have hmem := resultLen_mem hl
  have hna := hmem a.total (by simp)
  have hnz : z.total = n ∨ z.total = 1 := by
    cases h : e.two
    · rw [h] at hz
      exact hz.1 ▸ hna
    · exact hmem _ (by simp [h])
  refine ⟨hna, hnz, ?_⟩
  cases h : e.old
  · rw [h] at hd
    exact (show d = z from hd) ▸ hnz
  · exact hmem _ (by simp [h])

/-- The body of an elementwise form whose operands have lengths that do not agree (R197). -/
theorem elemBody_mismatch {b : LBlk} {tag : Nat} {useB readD : Bool} {F : Nat → Nat → Nat → Nat} {a z d : Runs} {h1 h2 : Hot}
    {t : State} {r : EngRef} {f : InFlight} (ha : operandSeq t r f b.a b.fmt (b.counters 0) = .ok (a, h1))
    (hz : if useB then operandSeq t r f b.b b.fmt (b.counters 0) = .ok (z, h2) else z = a ∧ h2 = [])
    (hd : if readD then (t.ctx r).regSeq b.d tag (b.counters 0) = .ok d else d = z)
    (hl : resultLen ([a.total] ++ (if useB then [z.total] else []) ++ (if readD then [d.total] else [])) = none) :
    elemBody b b.fmt b.fmt tag useB readD F t r f 0 = bad .lengthMismatch := by
  have hz' : (if useB then operandSeq t r f b.b b.fmt (b.counters 0) else .ok (a, [])) = .ok (z, h2) := by
    cases useB
    · exact hz.1 ▸ hz.2 ▸ rfl
    · exact hz
  have hd' : (if readD then (t.ctx r).regSeq b.d tag (b.counters 0) else .ok z) = .ok d := by
    cases readD
    · exact congrArg Except.ok (Eq.symm hd)
    · exact hd
  simp only [elemBody, ha, hz', hd', hl]

theorem operandB_view {s : State} {i : Instr} {b : LBlk} {useB : Bool} {a z : Runs} {h2 : Hot}
    (h : if useB then s.Reads i b.b b.fmt (b.counters 0) z h2 else z = a ∧ h2 = []) : ∀ p ∈ s.views i,
    if useB then operandSeq p.1 s.ref p.2 b.b b.fmt (b.counters 0) = .ok (z, h2) else z = a ∧ h2 = [] := fun p hp => by
  cases useB
  exacts [h, h p hp]

theorem oldD_view {s : State} {i : Instr} {b : LBlk} {readD : Bool} {tag : Nat} {z d : Runs}
    (h : if readD then s.ReadsOld i b tag d else d = z) : ∀ p ∈ s.views i,
    if readD then (p.1.ctx s.ref).regSeq b.d tag (b.counters 0) = .ok d else d = z := fun p hp => by
  cases readD
  exacts [h, h p hp]

/-! ### Where elementwise forms trap (R76, R197, R201) -/

section
variable {e : ElementForm} (he : e ∈ floatForms ++ intForms ++ maskForms ++ convertForms) {b : LBlk} {s : State} {a z d : Runs}
  {h1 h2 : Hot} {n : Nat} (hi : s.Issues (e.ins b))
include he hi

/-- An elementwise form one of whose registers has a wrong tag faults as it issues (R76). -/
theorem exec_elementForm_badTags (ht : ¬ s.TagsOk (e.ins b) b) :
    exec (e.ins b) s = .next (s.issueStop s.ref { cause := .formatTag }) := by
  rw [exec_elementForm he]
  exact congrArg _ (State.runBlock_refused hi (vecCheck_badTags ht))

variable (htags : s.TagsOk (e.ins b) b)
include htags

/-- Where no operand is a windowed register, a length mismatch is a fault at issue (R197). -/
theorem exec_elementForm_mismatch (hpa : b.a.pad = 0) (hpb : b.b.pad = 0) (hpd : e.old = true → b.d.pad = 0)
    (hbody : ∀ p ∈ s.views (e.ins b), elemBody b b.fmt b.fmt (e.tag b) e.two e.old (e.F b) p.1 s.ref p.2 0 = bad .lengthMismatch) :
    exec (e.ins b) s = .next (s.issueStop s.ref { cause := .lengthMismatch }) := by
  obtain ⟨-, -, hold, -⟩ := elementForm_ins e he b
  have hat : atIssue (e.ins b) b { cause := .lengthMismatch } = true := by
    cases h : e.old <;> simp [atIssue, windowed, hpa, hpb, hold, h, hpd]
  rw [exec_elementForm he]
  exact congrArg _ (State.runBlock_refused hi (vecCheck_atIssue htags hbody hat))

variable (ha : s.Reads (e.ins b) b.a b.fmt (b.counters 0) a h1)
  (hz : if e.two then s.Reads (e.ins b) b.b b.fmt (b.counters 0) z h2 else z = a ∧ h2 = [])
  (hd : if e.old then s.ReadsOld (e.ins b) b (e.tag b) d else d = z)
include ha hz hd

/-- An elementwise form whose whole operands have lengths that do not agree faults as it issues (R197). -/
theorem exec_elementForm_disagree (hpa : b.a.pad = 0) (hpb : b.b.pad = 0) (hpd : e.old = true → b.d.pad = 0)
    (hl : resultLen ([a.total] ++ (if e.two then [z.total] else []) ++ (if e.old then [d.total] else [])) = none) :
    exec (e.ins b) s = .next (s.issueStop s.ref { cause := .lengthMismatch }) :=
  exec_elementForm_mismatch he hi htags hpa hpb hpd fun p hp =>
    elemBody_mismatch (ha p hp) (operandB_view hz p hp) (oldD_view hd p hp) hl

variable (hl : resultLen ([a.total] ++ (if e.two then [z.total] else []) ++ (if e.old then [d.total] else [])) = some n)
  (hm : b.msk = 0) (hpd : b.d.pad = 0)
include hl hm hpd

/-- The model's reading of a result of more than 65,536 elements, which no register holds (R193, log 41): a length mismatch,
however many runs it has. -/
theorem exec_elementForm_tooLong (hpa : b.a.pad = 0) (hpb : b.b.pad = 0) (hn : 65536 < n) :
    exec (e.ins b) s = .next (s.issueStop s.ref { cause := .lengthMismatch }) := by
  obtain ⟨hla, hlz, hld⟩ := elementForm_operands hz hd hl
  refine exec_elementForm_mismatch he hi htags hpa hpb (fun _ => hpd) fun p hp => ?_
  rw [elemBody_eq (ha p hp) (operandB_view hz p hp) (oldD_view hd p hp) hl]
  exact finishVec_tooLong hm hpd (by rwa [(elemResult_at (e.F b) hla hlz hld).1])

/-- A result of more than 512 runs that has no more elements than a register holds stops the block in flight (R201). -/
theorem exec_elementForm_overflows (hit : b.iterations = 1) (hb : e.two = false → b.b.space = spNone) (hn : n ≤ 65536)
    (hr : 512 < (mergeRuns (elemResult (e.F b) n a z d)).length) :
    exec (e.ins b) s = .next (s.faulted (e.ins b) none (overflowFault (mergeRuns (elemResult (e.F b) n a z d)))) := by
  obtain ⟨hiter, hv, -, hwhole⟩ := elementForm_ins e he b
  obtain ⟨hla, hlz, hld⟩ := elementForm_operands hz hd hl
  have hbody : ∀ p ∈ s.views (e.ins b), elemBody b b.fmt b.fmt (e.tag b) e.two e.old (e.F b) p.1 s.ref p.2 0 =
      .error (overflowFault (mergeRuns (elemResult (e.F b) n a z d))) := fun p hp => by
    rw [elemBody_eq (ha p hp) (operandB_view hz p hp) (oldD_view hd p hp) hl]
    exact finishVec_overflows hm hpd (by rwa [(elemResult_at (e.F b) hla hlz hld).1]) hr
  have hfit : ∀ p ∈ s.views (e.ins b), wholeLengthBad p.1 s.ref p.2 (e.ins b) b = false := fun p hp => by
    rw [hwhole, lengthUnfit_ok (ha p hp), Bool.false_or]
    cases h : e.two
    · simp [hb h]
    · rw [lengthUnfit_ok (by simpa [h] using operandB_view hz p hp), Bool.and_false]
  rw [exec_elementForm he]
  exact congrArg _ (State.runVec_fault hi (hiter.trans hit) htags hv hbody rfl hfit)

end

end Sys2Proof.Machine

open Sys2Proof Sys2Proof.Machine

/-- Settles O1: a form's body delivers its function at every position of the broadcast operands (`elemResult`), and one iteration
of it is the block's run. -/
theorem elementwiseForms : Obligations.ElementwiseForms := by
  intro e he b s a z d h1 h2 n hi hn ha hz hd hl
  obtain ⟨hiter, hv, -, -⟩ := elementForm_ins e he b
  obtain ⟨hna, hnz, hnd⟩ := elementForm_operands hz hd hl
  refine ⟨elemResult (e.F b) n a z d, elemResult_at (e.F b) hna hnz hnd, fun o ho => ?_⟩
  rw [exec_elementForm he, State.runElem_one ⟨hi, hiter.trans hn⟩ hv ha hz hd hl ho]
end

section
/-! PROOFS. A block whose result has more elements than a register holds: O3 fails for it. -/

namespace Sys2Proof.Machine

/-! ### Faults that park (R324, R332) -/

@[simp] theorem State.wouldHold_updCtx (s : State) (r : EngRef) (f : Ctx → Ctx) (die : Nat) :
    (s.updCtx r f).wouldHold die = s.wouldHold die := rfl

@[simp] theorem State.wouldHold_setEntry (s : State) (r : EngRef) (k : Nat) (f : InFlight) (die : Nat) :
    (s.setEntry r k f).wouldHold die = s.wouldHold die := rfl

/-- A fault that parks makes the task of the slot park, where its record is not held (R324, R332). -/
theorem State.parking_takeFault {s : State} {r : EngRef} (hh : s.wouldHold (dieOf r.tile) = false) (block : Nat) (f : BlockFault)
    (prec : Bool) :
    ((s.takeFault r block f .park prec).slotAt r.tile r.slot).parking = true := by
  unfold State.takeFault
  dsimp only
  rw [hh, if_neg Bool.false_ne_true, State.updSlot, State.slotAt_setSlot (.inl fun h => by cases congrArg Slot.parking h)]

/-- So does one of a block's first iteration (R201). -/
theorem State.parking_faulted {s : State} {i : Instr} {hd : Option Handle} {e : BlockFault} (he : e.cause.disp = .park)
    (hh : (s.startBlock s.ref i hd).wouldHold (dieOf s.ref.tile) = false) :
    ((s.faulted i hd e).slotAt s.ref.tile s.ref.slot).parking = true := by
  have hhomes : (s.newEntry i hd).homes = [] := rfl
  unfold State.faulted State.endRun
  simp only [hhomes, State.performAll, Option.getD_none, he, State.addFork, List.isEmpty_nil, if_true]
  exact State.parking_takeFault (by simpa using hh) _ _ _

/-! ### A result of too many elements -/

theorem at_runsOf (l : List Nat) (p : Nat) : Runs.at_ (runsOf l) p = l.getD p 0 := by
  rw [runsOf, at_mergeRuns]
  induction l generalizing p with
  | nil => rfl
  | cons v l ih =>
    cases p with
    | zero => rfl
    | succ p => simpa [Runs.at_] using ih p

theorem total_runsOf (l : List Nat) : Runs.total (runsOf l) = l.length := by
  rw [runsOf, total_mergeRuns]
  simp [Runs.total, Function.comp_def]

/-- A sequence in which neighbours differ has no run of two elements. -/
theorem total_le_length_of_changes : ∀ {l : Runs},
    (∀ p, p + 1 < l.total → l.at_ p ≠ l.at_ (p + 1)) → l.total ≤ l.length
  | [], _ => Nat.le_refl 0
  | (v, n) :: l, h => by
    have ht : Runs.total ((v, n) :: l) = n + Runs.total l := runLen_cons v n l
    rw [ht] at h ⊢
    have hn : n ≤ 1 := by
      by_contra hn
      exact h 0 (by omega) (by rw [Runs.at_, Runs.at_, if_pos (by omega), if_pos (by omega)])
    have hl : Runs.total l ≤ l.length := total_le_length_of_changes fun p hp => by
      have := h (n + p) (by omega)
      rwa [Runs.at_, Runs.at_, if_neg (by omega), if_neg (by omega), Nat.add_sub_cancel_left, Nat.add_assoc,
        Nat.add_sub_cancel_left] at this
    rw [List.length_cons]
    omega

/-- The elements x, y, x, y, … in n pairs. -/
def alternating (x y n : Nat) : List Nat := (List.replicate n [x, y]).flatten

theorem length_alternating (x y n : Nat) : (alternating x y n).length = 2 * n := by
  simp [alternating, Nat.mul_comm]

theorem getD_alternating (x y : Nat) : ∀ n p, p < 2 * n → (alternating x y n).getD p 0 = if p % 2 = 0 then x else y
  | n + 1, 0, _ => by simp [alternating, List.replicate_succ]
  | n + 1, 1, _ => by simp [alternating, List.replicate_succ]
  | n + 1, p + 2, h => by
    have := getD_alternating x y n p (by omega)
    rw [Nat.add_mod_right]
    simpa [alternating, List.replicate_succ] using this

/-- The elements of a window whose lines all begin at its origin. -/
theorem map_elemBits_noPitch {α : Type} {x : Desc} (h : x.aux = 0) (o : Int) (w : Nat) (g : Int → α) : (elemBits x o w).map g =
    (List.replicate (x.ext2 + 1) ((upto (x.seg + 1)).map fun e => g (8 * o + (e * w : Nat)))).flatten := by
  have hline (l e : Nat) : elemBit x o w l e = 8 * o + (e * w : Nat) := by simp [elemBit, h]
  simp only [elemBits, linePos, List.map_flatMap, List.map_map, Function.comp_def, hline]
  rw [List.flatMap_def, List.map_const', upto, List.length_range]

/-- An unmodified operand in the tile pool: what its window holds, densely (R196). -/
theorem operandSeq_tp {t : State} {r : EngRef} {f : InFlight} {x : Desc} (hs : x.space = spTp) (hm : x.mod = 0) (fmt : Nat) (c : Counters) :
    operandSeq t r f x fmt c = .ok (runsOf ((elemBits x (originAt t r x c) (memWidth fmt)).map fun a =>
      loadVal fmt (Memory.bits (t.ctx r).tp a.toNat (memWidth fmt))), []) := by
  simp [operandSeq, readOperand, readBitsAt, poolWindowCheck, poolOf, permuteRuns, Ctx.mediumBits, hs, hm, spTp, spV, spIm, spWb,
    Except.map, bits, Function.comp_def]

/-! ### VLD of 131,072 elements (R215) -/

/-- VLD of INT32 into register 1: 65,536 lines that all begin at byte 0 of the tile pool, of two elements each. -/
def rereadPair : LBlk := { fmt := 4, a := { space := spTp, seg := 1, ext2 := 65535 }, d := { space := spV, base := 1 } }

/-- The block passes every check of fetch (R21). -/
theorem rereadPair_wellFormed : wellFormed .vxe 0 (.vld rereadPair) = true := by decide +kernel

/-- The reset module with a task on a tile whose pool holds 5 and 0 there, in a region of the vector engine. -/
def pairState : State :=
  { State.reset with
    ref := engRef 0 0 .vxe
    slots := [(0, { task := some 1, ctx :=
      { tp := [(0, 5)], regions := [(0, some { mode := Engine.vxe.num + 1, space := spTp, off := 0, len := 8 })],
        vxe := { present := true } } })]
    tasks := [(1, { state := .resident, place := some 0 })] }

theorem pairState_issues : pairState.Issues (.vld rereadPair) where
  fresh := by decide +kernel
  gate := by decide +kernel
  fine := by decide +kernel
  calm := by decide +kernel
  whole := by decide +kernel
  clear := State.clear_of (by decide +kernel) (.inl rfl) (.inl (by decide +kernel))
  timely := State.timely_of rfl

theorem pairState_tagsOk : pairState.TagsOk (.vld rereadPair) rereadPair := by
  unfold State.TagsOk
  decide +kernel

theorem pairState_views_tp : ∀ p ∈ pairState.views (.vld rereadPair), (p.1.ctx pairState.ref).tp = [(0, 5)] := by
  simp only [State.views]
  decide +kernel

/-- The block reads 131,072 elements, of which no two neighbours are equal. -/
theorem pairState_reads : ∃ a : Runs, pairState.Reads (.vld rereadPair) rereadPair.a rereadPair.fmt (rereadPair.counters 0) a [] ∧
    a.total = 131072 ∧ ∀ p < 131072, a.at_ p = if p % 2 = 0 then 5 else 0 := by
  refine ⟨runsOf (alternating 5 0 65536), fun p hp => ?_, ?_, fun p hp => ?_⟩
  · have ho : originAt p.1 pairState.ref rereadPair.a (rereadPair.counters 0) = 0 := by
      simp [originAt, baseAddr, strides, rereadPair, spTp, signed, LBlk.counters]
    rw [operandSeq_tp rfl rfl, pairState_views_tp p hp, ho, map_elemBits_noPitch rfl]
    rfl
  · rw [total_runsOf, length_alternating]
  · rw [at_runsOf, getD_alternating 5 0 65536 p (by omega)]

theorem pairState_issueStop_parking :
    ((pairState.issueStop pairState.ref { cause := .lengthMismatch }).slotAt pairState.ref.tile pairState.ref.slot).parking = false := by
  decide +kernel

theorem pairState_holdsNoRecord :
    (pairState.startBlock pairState.ref (.vld rereadPair) none).wouldHold (dieOf pairState.ref.tile) = false := by
  decide +kernel

/-- VLD among the elementwise forms (R215). -/
def vldForm : ElementForm := { ins := .vld, F := fun _ x _ _ => x }

theorem vldForm_mem : vldForm ∈ floatForms ++ intForms ++ maskForms ++ convertForms := by
  simp [floatForms, vldForm]

end Sys2Proof.Machine

open Sys2Proof Sys2Proof.Machine

/-- Refutes O3: its last clause has a result of more than 512 runs overflow, however many elements it has, and a window may have
more than the 65,536 that a register holds (R193). VLD of 65,536 lines of two elements, pitch 0 (R32), passes the checks of fetch;
its result has 131,072 runs, and the model stops it at issue with a length mismatch (log 41). The other clauses hold
(`exec_elementForm_badTags`, `exec_elementForm_disagree`), and so does the last one for up to 65,536 elements
(`exec_elementForm_overflows`). -/
theorem not_elementwiseTraps : ¬ Obligations.ElementwiseTraps := by
  intro h
  obtain ⟨a, ha, ht, hat⟩ := pairState_reads
  have hl : resultLen [a.total] = some 131072 := by simp [resultLen, ht]
  obtain ⟨-, htrap⟩ := h vldForm vldForm_mem rereadPair pairState a a a [] [] pairState_issues rfl
  obtain ⟨-, hlong⟩ := htrap ha ⟨rfl, rfl⟩ rfl
  obtain ⟨y, ⟨hy, hyat⟩, hover⟩ := hlong _ hl rfl rfl (fun _ => rfl) pairState_tagsOk
  have hbroadcast : broadcast 131072 a = a := if_neg (by omega)
  have hyat' : ∀ p < 131072, y.at_ p = if p % 2 = 0 then 5 else 0 := fun p hp => by
    rw [hyat p hp, hbroadcast]
    exact hat p hp
  have hruns : 131072 ≤ (mergeRuns y).length := by
    have hm : Runs.total (mergeRuns y) = 131072 := (total_mergeRuns y).trans hy
    refine hm ▸ total_le_length_of_changes fun p hp => ?_
    rw [at_mergeRuns, at_mergeRuns, hyat' p (by omega), hyat' (p + 1) (by omega)]
    split_ifs <;> omega
  have hstop := exec_elementForm_tooLong vldForm_mem pairState_issues pairState_tagsOk ha ⟨rfl, rfl⟩ rfl hl rfl rfl rfl rfl (by decide)
  have hsame := Host.Outcome.next.inj (hstop.symm.trans (hover (by omega)))
  have hpark : ((pairState.faulted (.vld rereadPair) none (overflowFault (mergeRuns y))).slotAt pairState.ref.tile
      pairState.ref.slot).parking = true := State.parking_faulted rfl pairState_holdsNoRecord
  have hnot := pairState_issueStop_parking
  rw [hsame] at hnot
  exact Bool.false_ne_true (hnot.symm.trans hpark)
end

section
/-! PROOFS. Construction, pack, unpack and raw run moves (O4). -/

namespace Sys2Proof.Machine

/-! ### Steps (R214) -/

/-- c runs of S elements from the jth on, with the values of g; the runs end at position L. -/
def stepRuns (g : Nat → Nat) (S L j c : Nat) : Runs := (List.range' j c).map fun j => (g j, min S (L - j * S))

theorem stepRuns_at (g : Nat → Nat) {S L : Nat} (hS : 0 < S) : ∀ c j : Nat, L ≤ (j + c) * S →
    (stepRuns g S L j c).total = L - j * S ∧ ∀ p < L - j * S, (stepRuns g S L j c).at_ p = g (j + p / S)
  | 0, j, h => by
    have hL : L - j * S = 0 := Nat.sub_eq_zero_of_le h
    exact ⟨hL.symm, fun p hp => by omega⟩
  | c + 1, j, h => by
    have hc : L ≤ (j + 1 + c) * S := by rwa [Nat.add_assoc, Nat.add_comm 1]
    obtain ⟨ht, hat⟩ := stepRuns_at g hS c (j + 1) hc
    have hj : (j + 1) * S = j * S + S := Nat.succ_mul j S
    have hcons : stepRuns g S L j (c + 1) = (g j, min S (L - j * S)) :: stepRuns g S L (j + 1) c := by
      rw [stepRuns, List.range'_succ]
      rfl
    rw [hcons]
    refine ⟨?_, fun p hp => ?_⟩
    · rw [total_eq_runLen] at ht ⊢
      rw [runLen_cons, ht]
      omega
    · rw [Runs.at_]
      split
      next h1 => rw [Nat.div_eq_of_lt (by omega), Nat.add_zero]
      next h1 =>
        have hdiv : p / S = (p - S) / S + 1 := Nat.div_eq_sub_div hS (by omega)
        rw [show min S (L - j * S) = S by omega, hat (p - S) (by omega), hdiv, Nat.add_assoc, Nat.add_comm 1]

/-- VIOTA steps up by one after every S elements. -/
theorem iotaRuns_at (fmt a : Nat) {L S : Nat} (hS : 0 < S) : Runs.total (iotaRuns fmt a L S) = L ∧
    ∀ p < L, Runs.at_ (iotaRuns fmt a L S) p = wrapTo (fmtWidth fmt) (intVal fmt a + (p / S : Nat)) := by
  have hc : L ≤ (0 + (L + S - 1) / S) * S := by
    have := Nat.lt_div_mul_add (a := L + S - 1) hS
    rw [Nat.zero_add]
    omega
  have hrange : iotaRuns fmt a L S = stepRuns (fun j => wrapTo (fmtWidth fmt) (intVal fmt a + j)) S L 0 ((L + S - 1) / S) := by
    rw [iotaRuns, upto, List.range_eq_range', stepRuns]
  rw [hrange]
  simpa using stepRuns_at (fun j => wrapTo (fmtWidth fmt) (intVal fmt a + j)) hS _ 0 hc

/-! ### What one iteration delivers (R214 to R216, R85) -/

theorem lengthOk_of {n : Nat} (h1 : 1 ≤ n) (h2 : n ≤ 65536) : lengthOk n = true := by simp [lengthOk, h1, h2]

/-- The origin of a tile pool window is the same in every state: no relocation register moves it (R32). -/
theorem originAt_tp {x : Desc} (h : x.space = spTp) (s t : State) (r : EngRef) (c : Counters) : originAt s r x c = originAt t r x c := by
  simp only [originAt, baseAddr, h, spTp]

section
variable {s : State} {r : EngRef} {f : InFlight} {b : LBlk} {k x : Nat} {a v : Runs} {h1 h2 : Hot}

theorem bcastBody_eq (ha : operandSeq s r f b.a b.fmt (b.counters k) = .ok ([(x, 1)], h1)) (hl : lengthOk b.b.base = true) :
    bcastBody b s r f k = finishVec s r b b.fmt b.b.base (b.counters k) [(x, b.b.base)] h1 := by
  simp [bcastBody, ha, hl, Runs.total, broadcast]

theorem iotaBody_eq (ha : operandSeq s r f b.a b.fmt (b.counters k) = .ok ([(x, 1)], h1)) :
    iotaBody b s r f k = finishVec s r b b.fmt (bits b.b.base 0 16 + 1) (b.counters k)
      (iotaRuns b.fmt x (bits b.b.base 0 16 + 1) (bits b.b.base 16 16 + 1)) h1 := by
  simp [iotaBody, ha, Runs.total]

theorem vrunBody_eq (ha : operandSeq s r f b.a b.fmt (b.counters k) = .ok (a, h1))
    (hv : operandSeq s r f b.b 8 (b.counters k) b.fmt = .ok (v, h2)) (ht : a.total = v.total)
    (hl : lengthOk (Runs.total ((alignRuns a v).map fun ((x, n), m) => (x, n * m))) = true) :
    vrunBody b s r f k = finishPlain s r b b.fmt (b.counters k) ((alignRuns a v).map fun ((x, n), m) => (x, n * m)) (h1 ++ h2) := by
  simp only [vrunBody, ha, hv]
  rw [if_neg (by simp [ht, hl])]

theorem vlenBody_eq (ha : operandSeq s r f b.a b.fmt (b.counters k) = .ok (a, h1)) (hl : lengthOk b.b.base = true) :
    vlenBody b s r f k = finishPlain s r b b.fmt (b.counters k) (takeRuns a b.b.base ++ [(0, b.b.base - a.total)]) h1 := by
  simp [vlenBody, ha, hl]

theorem vstBody_eq (ha : operandSeq s r f b.a b.fmt (b.counters k) = .ok (a, h1)) (ht : a.total = b.d.count) :
    vstBody b s r f k = storeWindow s r b b.fmt (b.counters k) a h1 := by
  simp [vstBody, ha, ht]

theorem pk4Body_eq (ha : operandSeq s r f b.a b.fmt (b.counters k) = .ok (a, h1)) (ht : a.total = b.d.count ∨ a.total = 1) :
    pk4Body b s r f k =
      storeWindow s r b 7 (b.counters k) (mapRuns (icvt b.fmt 7 (b.sat == 1)) (broadcast b.d.count a)) h1 := by
  simp only [pk4Body, ha]
  rw [if_neg (by tauto)]

theorem vldrBody_eq {l : List Nat} (hl : readOperand s r f b.a 64 (b.counters k) = .ok (l, h1))
    (ht : Runs.total (l.map recordRun) ≤ 65536) : vldrBody b s r f k =
      .ok { tile := [.vreg b.d.base { runs := l.map recordRun, tag := b.fmt, valid := true }], hot := h1 } := by
  simp only [vldrBody, hl]
  rw [if_neg (by omega)]

/-- The writes of VSTR: the records of a register's runs, and its status word where B is given (R216). -/
def runImage (s : State) (r : EngRef) (b : LBlk) (ctr : Counters) (g : VReg) : List TileWrite :=
  (elemBits b.d (originAt s r b.d ctr) 64).zipWith (fun a (v, n) => .tp a.toNat 64 (runRecord v n)) g.runs ++
    if b.b.space = spNone then [] else [.tp (8 * (originAt s r b.b ctr).toNat) 64 (statusWord g)]

theorem runImage_congr (hd : b.d.space = spTp) (hb : b.b.space = spNone ∨ b.b.space = spTp) (s t : State) (r : EngRef) (ctr : Counters)
    (g : VReg) : runImage s r b ctr g = runImage t r b ctr g := by
  unfold runImage
  rw [originAt_tp hd s t]
  rcases hb with hb | hb
  · rw [if_pos hb, if_pos hb]
  · rw [originAt_tp hb s t]

theorem vstrBody_eq {g : VReg} (hg : (s.ctx r).vreg b.a.base = g) (hr : g.rc ≤ b.d.seg + 1) :
    vstrBody b s r f k = .ok { tile := runImage s r b (b.counters k) g } := by
  subst hg
  unfold vstrBody
  dsimp only
  rw [if_neg (by omega)]
  rfl

end

end Sys2Proof.Machine

open Sys2Proof Sys2Proof.Machine

/-- Settles O4: each form issues and runs its one iteration, which delivers what its body gives. -/
theorem constructionForms : Obligations.ConstructionForms := by
  intro b s a v x l g h1 h2 o
  refine ⟨?bcast, ?iota, ?run, ?len, ?store, ?pack, ?loadRuns, ?storeRuns⟩
  case bcast =>
    intro ⟨hi, hn⟩ ha hlo hhi ⟨htags, ho⟩
    exact congrArg _ (State.runVec_one hi hn htags nofun fun p hp => (bcastBody_eq (ha p hp) (lengthOk_of hlo hhi)).trans (ho p hp))
  case iota =>
    obtain ⟨ht, hat⟩ := iotaRuns_at b.fmt x (L := bits b.b.base 0 16 + 1) (Nat.succ_pos (bits b.b.base 16 16))
    refine ⟨_, ht, hat, fun ⟨hi, hn⟩ ha ⟨htags, ho⟩ => ?_⟩
    exact congrArg _ (State.runVec_one hi hn htags nofun fun p hp => (iotaBody_eq (ha p hp)).trans (ho p hp))
  case run =>
    intro ⟨hi, hn⟩ ha hv ht hlo hhi ⟨htags, ho⟩
    exact congrArg _ (State.runVec_one hi hn htags nofun fun p hp =>
      (vrunBody_eq (ha p hp) (hv p hp) ht (lengthOk_of hlo hhi)).trans (ho p hp))
  case len =>
    intro ⟨hi, hn⟩ ha hlo hhi ⟨htags, ho⟩
    exact congrArg _ (State.runVec_one hi hn htags nofun fun p hp => (vlenBody_eq (ha p hp) (lengthOk_of hlo hhi)).trans (ho p hp))
  case store =>
    intro ⟨hi, hn⟩ ha ht ⟨htags, ho⟩
    exact congrArg _ (State.runVec_one hi hn htags nofun fun p hp => (vstBody_eq (ha p hp) ht).trans (ho p hp))
  case pack =>
    intro ⟨hi, hn⟩ ha ht ⟨htags, ho⟩
    exact congrArg _ (State.runVec_one hi hn htags nofun fun p hp => (pk4Body_eq (ha p hp) ht).trans (ho p hp))
  case loadRuns =>
    intro ⟨hi, hn⟩ htags hl ht
    exact congrArg _ (State.runVec_one hi hn htags nofun fun p hp => vldrBody_eq (hl p hp) ht)
  case storeRuns =>
    intro ⟨hi, hn⟩ htags hg hd hb hr
    exact congrArg _ (State.runVec_one hi hn htags nofun fun p hp =>
      (vstrBody_eq (hg p hp) hr).trans (by rw [runImage_congr hd hb p.1 s]; rfl))
end

section
/-! PROOFS. Contribution runs (O6). -/

namespace Sys2Proof.Machine

section
variable {α : Type}

/-! ### Runs of a list and their places -/

theorem runLen_append (l k : List (α × Nat)) : runLen (l ++ k) = runLen l + runLen k := by simp [runLen]

/-- The elements of the run that follows some runs. -/
theorem runAt_append_cons {v : α} {n : Nat} {k : List (α × Nat)} :
    ∀ {l : List (α × Nat)} {p : Nat}, runLen l ≤ p → p < runLen l + n → runAt (l ++ (v, n) :: k) p = some v
  | [], p, _, h2 => by rw [List.nil_append, runAt, if_pos (by simpa using h2)]
  | (w, m) :: l, p, h1, h2 => by
    rw [runLen_cons] at h1 h2
    rw [List.cons_append, runAt, if_neg (by omega)]
    exact runAt_append_cons (by omega) (by omega)

/-- The run that holds a position. -/
theorem exists_run_of_runAt : ∀ {l : List (α × Nat)} {p : Nat} {v : α}, runAt l p = some v →
    ∃ pre n post, l = pre ++ (v, n) :: post ∧ runLen pre ≤ p ∧ p < runLen pre + n
  | (w, n) :: l, p, v, h => by
    rw [runAt] at h
    split at h
    next hp =>
      obtain rfl := Option.some.inj h
      exact ⟨[], n, l, rfl, Nat.zero_le p, by simpa using hp⟩
    next hp =>
      obtain ⟨pre, c, post, rfl, h1, h2⟩ := exists_run_of_runAt h
      exact ⟨(w, n) :: pre, c, post, rfl, by rw [runLen_cons]; omega, by rw [runLen_cons]; omega⟩

/-! ### Merged lists -/

/-- No run is empty, and no two neighbours have equal values. -/
structure Merged (l : List (α × Nat)) : Prop where
  pos   : ∀ x ∈ l, 0 < x.2
  chain : l.IsChain fun x y => x.1 ≠ y.1

section
variable {pre post : List (α × Nat)} {v : α} {c : Nat}

theorem Merged.count_pos (h : Merged (pre ++ (v, c) :: post)) : 0 < c := h.pos (v, c) (by simp)

theorem Merged.neighbours_ne {w : α} {n : Nat} (h : Merged (pre ++ (w, n) :: (v, c) :: post)) : w ≠ v :=
  (List.isChain_append_cons_cons.mp h.chain).2.1

/-- Before a run of a merged list stands another value. -/
theorem Merged.runAt_before (h : Merged (pre ++ (v, c) :: post)) (hq : 0 < runLen pre) :
    runAt (pre ++ (v, c) :: post) (runLen pre - 1) ≠ some v := by
  obtain rfl | ⟨l, ⟨w, n⟩, rfl⟩ := List.eq_nil_or_concat' pre
  · exact absurd hq (Nat.lt_irrefl 0)
  · rw [List.append_assoc, List.singleton_append] at h ⊢
    have hn : 0 < n := h.count_pos
    have hlen : runLen (l ++ [(w, n)]) = runLen l + n := by simp [runLen_append]
    rw [runAt_append_cons (by omega) (by omega)]
    exact fun hw => h.neighbours_ne (Option.some.inj hw)

/-- After a run of a merged list stands another value, or none. -/
theorem Merged.runAt_after (h : Merged (pre ++ (v, c) :: post)) : runAt (pre ++ (v, c) :: post) (runLen pre + c) ≠ some v := by
  cases post with
  | nil =>
    rw [runAt_eq_none (by simp [runLen_append])]
    exact nofun
  | cons x post =>
    obtain ⟨w, n⟩ := x
    rw [List.append_cons] at h ⊢
    have hn : 0 < n := h.count_pos
    have hlen : runLen (pre ++ [(v, c)]) = runLen pre + c := by simp [runLen_append]
    rw [runAt_append_cons (by omega) (by omega)]
    rw [← List.append_cons] at h
    exact fun hw => h.neighbours_ne (Option.some.inj hw).symm

end

variable [DecidableEq α]

theorem merged_consRun {v : α} {n : Nat} (hn : 0 < n) : ∀ {l : List (α × Nat)}, Merged l → Merged (consRun v n l)
  | [], _ => ⟨by simpa [consRun] using hn, .singleton _⟩
  | (w, m) :: l, ⟨hpos, hchain⟩ => by
    obtain ⟨-, hl⟩ := List.forall_mem_cons.mp hpos
    rw [consRun]
    split
    next =>
      refine ⟨List.forall_mem_cons.mpr ⟨Nat.add_pos_left hn m, hl⟩, ?_⟩
      cases hchain with
      | singleton => exact .singleton _
      | cons_cons hne hchain => exact .cons_cons hne hchain
    next hvw => exact ⟨List.forall_mem_cons.mpr ⟨hn, hpos⟩, .cons_cons hvw hchain⟩

theorem merged_mergeRuns : ∀ l : List (α × Nat), Merged (mergeRuns l)
  | [] => ⟨nofun, .nil⟩
  | (v, n) :: l => by
    rw [mergeRuns]
    split
    next => exact merged_mergeRuns l
    next hn => exact merged_consRun (Nat.pos_of_ne_zero hn) (merged_mergeRuns l)

end

/-! ### The runs whose flags are set -/

section
variable {v c q : Nat}

theorem contribFrom_append (k : List ((Nat × Bool) × Nat)) : ∀ (l : List ((Nat × Bool) × Nat)) (p : Nat),
    contribFrom p (l ++ k) = contribFrom p l ++ contribFrom (p + runLen l) k
  | [], _ => rfl
  | ((v, on), n) :: l, p => by
    rw [List.cons_append, contribFrom, contribFrom, contribFrom_append k l, runLen_cons, Nat.add_assoc]
    cases on <;> rfl

/-- What is taken of a list starting at position p: its runs with the flag set, each with the place where it begins. -/
theorem mem_contribFrom {l : List ((Nat × Bool) × Nat)} {p : Nat} :
    (v, c, q) ∈ contribFrom p l ↔ ∃ pre post, l = pre ++ ((v, true), c) :: post ∧ q = p + runLen pre := by
  constructor
  · intro h
    induction l generalizing p with
    | nil => cases h
    | cons x l ih =>
      obtain ⟨⟨w, on⟩, n⟩ := x
      have hrest : (v, c, q) ∈ contribFrom (p + n) l →
          ∃ pre post, ((w, on), n) :: l = pre ++ ((v, true), c) :: post ∧ q = p + runLen pre := fun h => by
        obtain ⟨pre, post, rfl, rfl⟩ := ih h
        exact ⟨((w, on), n) :: pre, post, rfl, by rw [runLen_cons, Nat.add_assoc]⟩
      cases on with
      | false => exact hrest h
      | true =>
        rcases List.mem_cons.mp h with heq | h
        · cases heq
          exact ⟨[], l, rfl, rfl⟩
        · exact hrest h
  · rintro ⟨pre, post, rfl, rfl⟩
    rw [contribFrom_append]
    exact List.mem_append_right _ List.mem_cons_self

theorem mem_contribRuns {l : List ((Nat × Bool) × Nat)} : (v, c, q) ∈ contribRuns l ↔
    ∃ pre post, mergeRuns l = pre ++ ((v, true), c) :: post ∧ q = runLen pre := by
  simp only [contribRuns, mem_contribFrom, Nat.zero_add]

theorem contribFrom_pairwise : ∀ (l : List ((Nat × Bool) × Nat)) (p : Nat),
    (contribFrom p l).Pairwise fun x y => x.2.2 + x.2.1 ≤ y.2.2
  | [], _ => .nil
  | ((v, false), n) :: l, p => contribFrom_pairwise l (p + n)
  | ((v, true), n) :: l, p => by
    refine .cons (fun (w, c, q) hy => ?_) (contribFrom_pairwise l (p + n))
    obtain ⟨pre, -, -, rfl⟩ := mem_contribFrom.mp hy
    exact Nat.le_add_right _ _

end

/-! ### A sequence with the flags of its filter mask (R225) -/

section
variable {a : Runs} {m : Option Runs} {p v : Nat}

/-- The elements of a sequence, each with its flag under the filter mask. -/
def flagged (a : Runs) (m : Option Runs) : List ((Nat × Bool) × Nat) :=
  mapRuns (fun (v, on) => (v, on == 1)) (alignRuns a (maskOr a.total m))

theorem contributions_eq (a : Runs) (m : Option Runs) : contributions a m = contribRuns (flagged a m) := rfl

theorem total_maskOr {n : Nat} (hm : ∀ r, m = some r → r.total = n) : (maskOr n m).total = n := by
  cases m with
  | none => exact Nat.add_zero n
  | some r => exact hm r rfl

variable (hm : ∀ r, m = some r → r.total = a.total)
include hm

theorem runLen_flagged : runLen (flagged a m) = a.total := by
  rw [flagged, runLen_mapRuns, runLen_alignRuns, ← total_eq_runLen, ← total_eq_runLen, total_maskOr hm, Nat.min_self]

/-- An element of a sequence carries its flag where the mask holds 1. -/
theorem runAt_flagged_eq_some (hp : p < a.total) :
    runAt (mergeRuns (flagged a m)) p = some (v, true) ↔ a.at_ p = v ∧ (maskOr a.total m).at_ p = 1 := by
  obtain ⟨x, hx⟩ := Option.isSome_iff_exists.mp (runAt_isSome (l := a) hp)
  obtain ⟨on, hon⟩ := Option.isSome_iff_exists.mp (runAt_isSome (l := maskOr a.total m) (hp.trans_eq (total_maskOr hm).symm))
  simp [runAt_mergeRuns, flagged, runAt_mapRuns, runAt_alignRuns, at_eq_runAt, hx, hon]

end

end Sys2Proof.Machine

open Sys2Proof Sys2Proof.Machine

/-- Settles O6: the contribution runs are the runs with the flag set of a merged list, so a run's neighbours differ from it in value
or flag, and a selected element lies in one of them. -/
theorem contributionRuns : Obligations.ContributionRuns := by
  intro a m hm
  refine ⟨fun v c q h => ?maximal, fun p hp hon => ?covering, contribFrom_pairwise _ 0⟩
  case maximal =>
    obtain ⟨pre, post, hl, rfl⟩ := mem_contribRuns.mp (contributions_eq a m ▸ h)
    have hmerged : Merged (pre ++ ((v, true), c) :: post) := hl ▸ merged_mergeRuns (flagged a m)
    have hc : 0 < c := hmerged.count_pos
    have hlen : runLen pre + c ≤ a.total := by
      rw [← runLen_flagged hm, ← runLen_mergeRuns (flagged a m), hl, runLen_append, runLen_cons]
      omega
    refine ⟨hc, hlen, fun p h1 h2 => ?_, fun hq => not_and_or.mp fun hsel => ?_, fun hq => not_and_or.mp fun hsel => ?_⟩
    · exact (runAt_flagged_eq_some hm (by omega)).mp (hl ▸ runAt_append_cons h1 h2)
    · exact hmerged.runAt_before hq (hl ▸ (runAt_flagged_eq_some hm (by omega)).mpr hsel)
    · exact hmerged.runAt_after (hl ▸ (runAt_flagged_eq_some hm hq).mpr hsel)
  case covering =>
    obtain ⟨pre, c, post, hl, h1, h2⟩ := exists_run_of_runAt ((runAt_flagged_eq_some hm hp).mpr ⟨rfl, hon⟩)
    exact ⟨a.at_ p, c, runLen pre, mem_contribRuns.mpr ⟨pre, post, hl, rfl⟩, h1, h2⟩
end

section
/-! PROOFS. Reductions (O5). -/

namespace Sys2Proof.Machine

/-! ### Forms of one iteration whose body delivers a result (R199 to R201) -/

section
variable {s : State} {i : Instr} {b : LBlk} {body : Body} {tag n : Nat} {y : Runs} {h : Hot} {o : IterOut}

/-- A form whose body finishes with a result to which no mask applies. -/
theorem State.runVec_plain (hi : s.IssuesOnce i)
    (ht : ∀ x, i = .vrcot x → anyBadTol (s.seenBy s.ref (s.nextIndex s.ref)) s.ref (wouldBe s s.ref i) b = false)
    (ho : s.DeliversPlain i b tag y h o)
    (hb : ∀ p ∈ s.views i, body p.1 s.ref p.2 0 = finishPlain p.1 s.ref b tag (b.counters 0) y h) : runVec i b body s = s.ran i none o :=
  State.runVec_one hi.1 hi.2 ho.1 ht fun p hp => (hb p hp).trans (ho.2 p hp)

/-- A form whose body finishes with a masked result. -/
theorem State.runVec_masked (hi : s.IssuesOnce i)
    (ht : ∀ x, i = .vrcot x → anyBadTol (s.seenBy s.ref (s.nextIndex s.ref)) s.ref (wouldBe s s.ref i) b = false)
    (ho : s.Delivers i b tag n y h o)
    (hb : ∀ p ∈ s.views i, body p.1 s.ref p.2 0 = finishVec p.1 s.ref b tag n (b.counters 0) y h) : runVec i b body s = s.ran i none o :=
  State.runVec_one hi.1 hi.2 ho.1 ht fun p hp => (hb p hp).trans (ho.2 p hp)

end

/-! ### The reductions (R224 to R227) -/

theorem exec_reductionForm {e : ReductionForm} (he : e ∈ reductionForms) (b : LBlk) (s : State) :
    exec (e.ins b) s = .next (runVec (e.ins b) b (reduceBody b (e.tag b) (e.F b)) s) :=
  exec_nestForm (.vec e.ins fun b => reduceBody b (e.tag b) (e.F b))
    (List.mem_append_right _ (List.mem_append_left _ (List.mem_append_right _ (List.mem_map_of_mem he)))) b s

theorem reductionForm_ne_vrcot : ∀ e ∈ reductionForms, ∀ b x, e.ins b ≠ .vrcot x := by
  simp only [reductionForms, List.forall_mem_cons, List.not_mem_nil, false_imp_iff, implies_true, and_true]
  and_intros <;> exact nofun

section
variable {s : State} {r : EngRef} {f : InFlight} {b : LBlk} {k : Nat} {a : Runs} {m : Option Runs} {h : Hot}

/-- What a form that filters A sees of it (R225). -/
theorem filtered_eq (ha : operandSeq s r f b.a b.fmt (b.counters k) = .ok (a, h)) (hm : maskSeq s r b a.total = .ok m) :
    filtered s r f b k = .ok (flagged a m, h) := by
  simp only [filtered, ha, hm, flagged]

theorem reduceBody_eq {tag : Nat} {F : List (Nat × Nat × Nat) → Nat} (ha : operandSeq s r f b.a b.fmt (b.counters k) = .ok (a, h))
    (hm : maskSeq s r b a.total = .ok m) :
    reduceBody b tag F s r f k = finishPlain s r b tag (b.counters k) [(F (contributions a m), 1)] h := by
  simp only [reduceBody, filtered_eq ha hm, contributions_eq]

end

end Sys2Proof.Machine

open Sys2Proof Sys2Proof.Machine

/-- Settles O5: a reduction of one iteration delivers the one element that its body computes. -/
theorem reductionForms : Obligations.ReductionForms := by
  intro e he b s a m h o hi ha hm ho
  rw [exec_reductionForm he b s]
  exact congrArg _ (State.runVec_plain hi (fun x hx => absurd hx (reductionForm_ne_vrcot e he b x)) ho
    fun p hp => reduceBody_eq (ha p hp) (hm p hp))
end

section
/-! PROOFS. Selection, scans, compress and expand, gathers, coalescing, top-k, histograms, dot products, quantisation (O7). -/

namespace Sys2Proof.Machine

/-! ### Elements of mapped and selected sequences -/

theorem at_mapRuns_of_lt (g : Nat → Nat) {l : Runs} {p : Nat} (hp : p < l.total) : Runs.at_ (mapRuns g l) p = g (l.at_ p) := by
  obtain ⟨v, hv⟩ := Option.isSome_iff_exists.mp (runAt_isSome (l := l) hp)
  simp [at_eq_runAt, runAt_mapRuns, hv]

/-- What VSEL takes: A where the selector holds 1, B elsewhere (R223). -/
def selected (a v m : Runs) : Runs :=
  mapRuns (fun ((x, z), on) => if on = 1 then x else z) (alignRuns (alignRuns (broadcast m.total a) (broadcast m.total v)) m)

theorem selected_at {a v m : Runs} (ha : a.total = m.total ∨ a.total = 1) (hv : v.total = m.total ∨ v.total = 1) :
    (selected a v m).total = m.total ∧ ∀ p < m.total,
      (selected a v m).at_ p = if m.at_ p = 1 then (broadcast m.total a).at_ p else (broadcast m.total v).at_ p :=
  aligned3 m.total _ _ m (total_broadcast ha) (total_broadcast hv) rfl fun x z on => if on = 1 then x else z

/-- What a form with a scale computes: G of each element and its scale (R83). -/
def scaled (G : Nat → Nat → Nat) (a v : Runs) : Runs := mapRuns (fun (x, z) => G x z) (alignRuns a (broadcast a.total v))

theorem scaled_at (G : Nat → Nat → Nat) {a v : Runs} (hv : v.total = a.total ∨ v.total = 1) :
    (scaled G a v).total = a.total ∧ ∀ p < a.total, (scaled G a v).at_ p = G (a.at_ p) ((broadcast a.total v).at_ p) :=
  aligned2 rfl (total_broadcast hv) G

/-! ### Elements without fault (R83, R230) -/

theorem badIndex_eq_none {len : Nat} : ∀ {l : Runs}, (∀ x ∈ l, x.1 < len ∨ x.1 = 0xFFFFFFFF) → ∀ p, badIndex len p l = none
  | [], _, _ => rfl
  | (x, n) :: l, h, p => by
    obtain ⟨hx, hl⟩ := List.forall_mem_cons.mp h
    rw [badIndex, if_neg fun ⟨hlen, hnull⟩ => hx.elim (Nat.not_lt.mpr hlen) hnull]
    exact badIndex_eq_none hl (p + n)

theorem badScaleAt_eq_none : ∀ {l : Runs}, (∀ x ∈ l, 0x00800000 ≤ x.1 ∧ x.1 < 0x7F800000) → ∀ p, badScaleAt p l = none
  | [], _, _ => rfl
  | (x, n) :: l, h, p => by
    obtain ⟨hx, hl⟩ := List.forall_mem_cons.mp h
    rw [badScaleAt, if_pos (by simpa [scaleOk] using hx)]
    exact badScaleAt_eq_none hl (p + n)

/-! ### What one iteration delivers -/

section
variable {s : State} {r : EngRef} {f : InFlight} {b : LBlk} {k n : Nat} {a v m : Runs} {fm : Option Runs} {h1 h2 : Hot}

section
variable (ha : operandSeq s r f b.a b.fmt (b.counters k) = .ok (a, h1))
include ha

theorem vselBody_eq (hv : operandSeq s r f b.b b.fmt (b.counters k) = .ok (v, h2)) (hm : selectorSeq s r b = m)
    (hta : a.total = m.total ∨ a.total = 1) (htv : v.total = m.total ∨ v.total = 1) :
    vselBody b s r f k = finishPlain s r b b.fmt (b.counters k) (selected a v m) (h1 ++ h2) := by
  simp only [vselBody, ha, hv, hm]
  rw [if_pos ⟨hta, htv⟩]
  rfl

theorem scanBody_eq (hm : maskSeq s r b a.total = .ok fm) (ht : ∀ l, fm = some l → l.total = a.total) :
    scanBody b s r f k = finishVec s r b b.fmt a.total (b.counters k) (scanFrom b a.total 0 none (contributions a fm)) h1 := by
  have hlen : ((flagged a fm).map (·.2)).sum = a.total := runLen_flagged ht
  simp only [scanBody, filtered_eq ha hm, hlen, contributions_eq]

theorem compBody_eq (hm : selectorSeq s r b = m) (ht : m.total = a.total) :
    compBody b s r f k = finishPlain s r b b.fmt (b.counters k)
      ((alignRuns a m).filterMap fun ((v, on), n) => if on = 1 then some (v, n) else none) h1 := by
  simp only [compBody, ha, hm]
  rw [if_neg (not_not.mpr ht)]

theorem expdBody_eq (hm : selectorSeq s r b = m) (ht : onesOf m = 0 ∨ a.total = onesOf m ∨ a.total = 1) :
    expdBody b s r f k = finishVec s r b b.fmt m.total (b.counters k) (dealRuns (broadcast (onesOf m) a) m) h1 := by
  simp only [expdBody, ha, hm]
  rw [if_neg (by tauto)]

theorem gathBody_eq (hv : operandSeq s r f b.b 8 (b.counters k) = .ok (v, h2)) (hx : ∀ p ∈ v, p.1 < a.total ∨ p.1 = 0xFFFFFFFF) :
    gathBody b s r f k = finishVec s r b b.fmt v.total (b.counters k) (mapRuns (gatherAt a) v) (h1 ++ h2) := by
  simp only [gathBody, ha, hv, badIndex_eq_none hx, Option.map_none, elementFault]

theorem rcoBody_eq : rcoBody b s r f k = finishPlain s r b b.fmt (b.counters k) a h1 := by
  simp only [rcoBody, ha]

theorem rcotBody_eq (hv : operandSeq s r f b.b b.fmt (b.counters k) = .ok ([(n, 1)], h2)) (ht : badTol b.fmt n = false) :
    rcotBody b s r f k = finishPlain s r b b.fmt (b.counters k) (coalesce b.fmt n (a.headD (0, 1)).1 a) (h1 ++ h2) := by
  simp [rcotBody, ha, hv, ht, Runs.total]

theorem topkBody_eq (hm : maskSeq s r b a.total = .ok fm) (hn : lengthOperand s r f b k = .ok n) :
    topkBody b s r f k = finishPlain s r b 8 (b.counters k)
      (((topPositions b.fmt (contributions a fm)).take n).map fun p => (p, 1)) h1 := by
  simp only [topkBody, filtered_eq ha hm, hn, contributions_eq]

theorem histBody_eq (hm : maskSeq s r b a.total = .ok fm) (hn : lengthOperand s r f b k = .ok n) :
    histBody b s r f k = finishPlain s r b b.fmt (b.counters k)
      ((upto n).map fun j => ((((contributions a fm).filter (·.1 == j)).map (·.2.1)).sum, 1)) h1 := by
  simp only [histBody, filtered_eq ha hm, hn, contributions_eq]

theorem dotBody_eq (hv : operandSeq s r f b.b b.fmt (b.counters k) = .ok (v, h2)) (hl : resultLen [a.total, v.total] = some n)
    (hm : maskSeq s r b n = .ok fm) :
    dotBody b s r f k = finishPlain s r b b.dfmt (b.counters k)
      [((alignRuns (alignRuns (broadcast n a) (broadcast n v)) (maskOr n fm)).foldl
        (fun acc (((x, z), on), c) => if on = 1 then repeatTerm b.fmt (b.sat == 1) x z c acc else acc) 0, 1)] (h1 ++ h2) := by
  simp only [dotBody, ha, hv, hl, hm]

theorem scaledBody_eq {G : Nat → Nat → Nat} (hv : operandSeq s r f b.b 1 (b.counters k) b.fmt = .ok (v, h2))
    (ht : v.total = a.total ∨ v.total = 1) (hs : ∀ p ∈ v, 0x00800000 ≤ p.1 ∧ p.1 < 0x7F800000) :
    scaledBody b G s r f k = finishVec s r b b.dfmt a.total (b.counters k) (scaled G a v) (h1 ++ h2) := by
  simp only [scaledBody, ha, hv, badScaleAt_eq_none hs, Option.map_none, elementFault]
  rw [if_neg (by tauto)]
  rfl

end

theorem lengthOperand_eq (hv : operandSeq s r f b.b 8 (b.counters k) b.fmt = .ok ([(n, 1)], h2)) (hlo : 1 ≤ n) (hhi : n ≤ 65536) :
    lengthOperand s r f b k = .ok n := by
  simp [lengthOperand, hv, lengthOk_of hlo hhi, Runs.total]

/-- The one tolerance of a block of one iteration (R231). -/
theorem anyBadTol_one (hb : b.iterations = 1) (hv : operandSeq s r f b.b b.fmt (b.counters 0) = .ok ([(n, 1)], h2)) :
    anyBadTol s r f b = badTol b.fmt n := by
  simp [anyBadTol, hb, upto, hv]

end

/-- A form with a scale, one iteration of it (R83). -/
theorem State.runScaled {s : State} {b : LBlk} {a v : Runs} {h1 h2 : Hot} {i : Instr} {G : Nat → Nat → Nat} {o : IterOut}
    (hi : s.IssuesOnce i) (hi' : ∀ x, i ≠ .vrcot x) (ha : s.Reads i b.a b.fmt (b.counters 0) a h1)
    (hv : s.Reads i b.b 1 (b.counters 0) v h2 b.fmt) (ht : v.total = a.total ∨ v.total = 1)
    (hs : ∀ p ∈ v, 0x00800000 ≤ p.1 ∧ p.1 < 0x7F800000)
    (ho : s.Delivers i b b.dfmt a.total (scaled G a v) (h1 ++ h2) o) : runVec i b (scaledBody b G) s = s.ran i none o :=
  State.runVec_masked hi (fun x hx => absurd hx (hi' x)) ho fun p hp => scaledBody_eq (ha p hp) (hv p hp) ht hs

end Sys2Proof.Machine

open Sys2Proof Sys2Proof.Machine

/-- Settles O7: each form issues and runs its one iteration, which delivers what its body gives: element by element for selection,
gathers and scales. What the rules leave open (the filter of a broadcast VDOT, the sign modifier on a scale, the tolerance of
integers) is the model's reading (log 29). -/
theorem permutationForms : Obligations.PermutationForms := by
  refine ⟨fun b s a v m fm n h1 h2 o =>
    ⟨?select, ?scan, ?compress, ?expand, ?gather, ?coalesce, ?tolerance, ?topk, ?histogram, ?dot⟩,
    fun b s a v h1 h2 o ht hs => ⟨?quantise, ?dequantise⟩⟩
  case select =>
    intro hi hm ha hv hta htv
    exact ⟨selected a v m, selected_at hta htv, fun ho => congrArg _ (State.runVec_plain hi nofun ho
      fun p hp => vselBody_eq (ha p hp) (hv p hp) (hm p hp) hta htv)⟩
  case scan =>
    intro hi ha hm ho ht
    exact congrArg _ (State.runVec_masked hi nofun ho fun p hp => scanBody_eq (ha p hp) (hm p hp) ht)
  case compress =>
    intro hi ha hm ht ho
    exact congrArg _ (State.runVec_plain hi nofun ho fun p hp => compBody_eq (ha p hp) (hm p hp) ht)
  case expand =>
    intro hi ha hm ht ho
    exact congrArg _ (State.runVec_masked hi nofun ho fun p hp => expdBody_eq (ha p hp) (hm p hp) ht)
  case gather =>
    intro hi ha hv hx
    exact ⟨mapRuns (gatherAt a) v, ⟨total_mapRuns _ v, fun p hp => at_mapRuns_of_lt (gatherAt a) hp⟩, fun ho =>
      congrArg _ (State.runVec_masked hi nofun ho fun p hp => gathBody_eq (ha p hp) (hv p hp) hx)⟩
  case coalesce =>
    intro hi ha ho
    exact congrArg _ (State.runVec_plain hi nofun ho fun p hp => rcoBody_eq (ha p hp))
  case tolerance =>
    intro hi ha hn ht ho
    have hok : anyBadTol (s.seenBy s.ref (s.nextIndex s.ref)) s.ref (wouldBe s s.ref (.vrcot b)) b = false :=
      (anyBadTol_one hi.2 (hn _ List.mem_cons_self)).trans ht
    exact congrArg _ (State.runVec_plain hi (fun _ _ => hok) ho fun p hp => rcotBody_eq (ha p hp) (hn p hp) ht)
  case topk =>
    intro hi ha hm hn hlo hhi ho
    exact congrArg _ (State.runVec_plain hi nofun ho
      fun p hp => topkBody_eq (ha p hp) (hm p hp) (lengthOperand_eq (hn p hp) hlo hhi))
  case histogram =>
    intro hi ha hm hn hlo hhi ho
    exact congrArg _ (State.runVec_plain hi nofun ho
      fun p hp => histBody_eq (ha p hp) (hm p hp) (lengthOperand_eq (hn p hp) hlo hhi))
  case dot =>
    intro hi ha hv hl hm ho
    exact congrArg _ (State.runVec_plain hi nofun ho fun p hp => dotBody_eq (ha p hp) (hv p hp) hl (hm p hp))
  case quantise =>
    intro hi ha hv
    exact ⟨scaled _ a v, scaled_at _ ht, fun ho => congrArg _ (State.runScaled hi nofun ha hv ht hs ho)⟩
  case dequantise =>
    intro hi ha hv
    exact ⟨scaled _ a v, scaled_at _ ht, fun ho => congrArg _ (State.runScaled hi nofun ha hv ht hs ho)⟩
end

section
/-! PROOFS. The matrix forms: what one step adds to its cells, and what one iteration of a cell form moves (O8, O9). -/

namespace Sys2Proof.Machine

/-- An MXE block of one iteration that passes its checks and whose body delivers o has run (R88, R242, R250). -/
theorem State.runMat_one {s : State} {i : Instr} {b : LBlk} {body : Body}
    {reads : State → EngRef → InFlight → Nat → List Touch} {o : IterOut} (hi : s.IssuesOnce i)
    (hc : matCheck i b s s.ref = .ok none) (ho : body (s.reading i none) s.ref (s.newEntry i none) 0 = .ok o) :
    s.runBlock { check := matCheck i b, body := body, reads := reads } i = s.ran i none o :=
  State.runBlock_one hi.1 hi.2 hc ho

/-! ### The products of a step (R240, R244 to R246) -/

/-- The pairs of each row of A with each column of B, up to n of them. -/
def densePairs (n : Nat) (rows cols : List (List Nat)) : List (List (Nat × Nat)) :=
  rows.flatMap fun x => cols.map fun y => (x.zip y).take n

/-- The pairs at the positions that the metadata of each column keeps, of v stored values, up to n of them. -/
def keptPairs (v n : Nat) (ms : List Nat) (rows cols : List (List Nat)) : List (List (Nat × Nat)) :=
  rows.flatMap fun x => (cols.zip ms).map fun (y, m) => (((keptPositions v m).map fun p => x.getD p 0).zip y).take n

/-- The pairs of each output position and channel: the vectors that its taps reach, with the channel's taps. -/
def channelPairs (b : LBlk) (vecs taps : List (List Nat)) : List (List (Nat × Nat)) :=
  (upto (b.d.ext2 + 1)).flatMap fun p => (upto (b.a.seg + 1)).map fun c => (upto (keff b (b.b.seg + 1))).map fun t =>
    ((vecs.getD (p * (bits b.cx 8 2 + 1) + t * (bits b.cx 10 3 + 1)) []).getD c 0, (taps.getD c []).getD t 0)

/-- The complex pairs of each row of A with each column of B, up to n of them. -/
def complexPairs (n : Nat) (rows cols : List (List Nat)) : List (List ((Nat × Nat) × (Nat × Nat))) :=
  rows.flatMap fun x => cols.map fun y => ((pairUp x).zip (pairUp y)).take n

/-- The two cells of an output of MMC, p and q, with its complex terms added in order. -/
def complexSum (c : Ctx) (b : LBlk) (p q : Nat) (l : List ((Nat × Nat) × (Nat × Nat))) : List TileWrite :=
  let z := l.foldl (fun acc (x, y) => macComplex (fmtOf b.fmt) (bits b.cx 8 1 == 1) acc x y) (c.cell p, c.cell q)
  [.acc p z.1, .acc q z.2]

/-- Each pair of D cells in order takes its accumulated complex terms. -/
def accumulateComplex (s : State) (r : EngRef) (b : LBlk) (ctr : Counters) (pairs : List (List ((Nat × Nat) × (Nat × Nat)))) :
    List TileWrite :=
  ((pairUp ((cellsAt b.d ctr).map cellKey)).zipWith (fun (p, q) l => complexSum (s.ctx r) b p q l) pairs).flatMap id

section
variable {b : LBlk} {s : State} {r : EngRef} {f : InFlight} {k fb : Nat} {rows cols : List (List Nat)} {h1 h2 : Hot}

theorem mmaBody_eq (ha : operandRows s r f b.a b.fmt (b.counters k) = .ok (rows, h1))
    (hb : operandRows s r f b.b b.fmt (b.counters k) = .ok (cols, h2)) :
    mmaBody b s r f k = .ok (wrote
      (accumulate s r b b.fmt (b.counters k) (densePairs (keff b (stepRows b.a).1) rows cols)) (h1 ++ h2)) := by
  rw [mmaBody, ha]
  dsimp only
  rw [hb]
  rfl

theorem mmasBody_kept (ha : operandRows s r f b.a b.fmt (b.counters k) = .ok (rows, h1))
    (hb : operandRows s r f b.b (fmtB 7 1 b) (b.counters k) = .ok (cols, h2)) (hc : cform b = 0)
    (hm : (lineMeta s r b (b.counters k)).all (metadataOk (b.b.seg + 1)) = true) :
    mmasBody b s r f k = .ok (wrote (accumulate s r b (fmtB 7 1 b) (b.counters k)
      (keptPairs (b.b.seg + 1) (keff b (b.b.seg + 1)) (lineMeta s r b (b.counters k)) rows cols)) (h1 ++ h2)) := by
  unfold mmasBody
  dsimp only
  rw [ha]
  dsimp only
  rw [hb]
  dsimp only
  rw [if_pos hc, hm]
  rfl

theorem mmasBody_dense (ha : operandRows s r f b.a b.fmt (b.counters k) = .ok (rows, h1))
    (hb : operandRows s r f b.b (fmtB 7 1 b) (b.counters k) = .ok (cols, h2)) (hc : cform b ≠ 0) :
    mmasBody b s r f k = .ok (wrote (accumulate s r b (fmtB 7 1 b) (b.counters k)
      (densePairs (keff b (b.b.seg + 1)) rows cols)) (h1 ++ h2)) := by
  unfold mmasBody
  dsimp only
  rw [ha]
  dsimp only
  rw [hb]
  exact if_neg hc

theorem mmdBody_eq (ha : operandRows s r f b.a b.fmt (b.counters k) = .ok (rows, h1))
    (hb : operandRows s r f b.b b.fmt (b.counters k) = .ok (cols, h2)) :
    mmdBody b s r f k = .ok (wrote (accumulate s r b b.fmt (b.counters k) (channelPairs b rows cols)) (h1 ++ h2)) := by
  rw [mmdBody, ha]
  dsimp only
  rw [hb]
  rfl

theorem mmcBody_eq (ha : operandRows s r f b.a b.fmt (b.counters k) = .ok (rows, h1))
    (hb : operandRows s r f b.b b.fmt (b.counters k) = .ok (cols, h2)) :
    mmcBody b s r f k = .ok (wrote
      (accumulateComplex s r b (b.counters k) (complexPairs (keff b (b.b.seg + 1) / 2) rows cols)) (h1 ++ h2)) := by
  rw [mmcBody, ha]
  dsimp only
  rw [hb]
  rfl

end

/-! ### Moving and draining cells (R247 to R250) -/

/-- The writes that give the cells of an ac window some values, in order. -/
def cellWrites (x : Desc) (ctr : Counters) (vals : List Nat) : List TileWrite :=
  (cellsAt x ctr).zipWith (fun p v => .acc (cellKey p) v) vals

/-- The writes of a drain under a record: its elements to D, then, under ZAC, zero to each cell read (R249, R250). -/
def drainOutput (b : LBlk) (s : State) (r : EngRef) (d : Drain) (ctr : Counters) : List TileWrite :=
  (elemBits b.d (originAt s r b.d ctr) (memWidth b.dfmt)).zipWith (fun a v => .tp a.toNat (memWidth b.dfmt) v)
    (((linePos b.a).zip (cellVals s r b.a ctr)).map fun ((l, e), x) => drainElem s r b d l e x) ++
  if drnZAC b then (cellsAt b.a ctr).map fun p => .acc (cellKey p) 0 else []

section
variable {b : LBlk} {s : State} {r : EngRef} {f : InFlight} {k : Nat}

theorem aczBody_eq :
    aczBody b s r f k = .ok (wrote ((cellsAt b.d (b.counters k)).map fun p => .acc (cellKey p) 0) []) := rfl

theorem acrBody_eq : acrBody b s r f k = .ok (wrote
    ((elemBits b.d (originAt s r b.d (b.counters k)) 32).zipWith (fun a v => .tp a.toNat 32 v) (cellVals s r b.a (b.counters k))) []) :=
  rfl

theorem acmvBody_eq :
    acmvBody b s r f k = .ok (wrote (cellWrites b.d (b.counters k) (cellVals s r b.a (b.counters k))) []) := rfl

theorem acwBody_eq {l : List Nat} {h : Hot} (hl : readOperand s r f b.a 32 (b.counters k) = .ok (l, h)) :
    acwBody b s r f k = .ok (wrote (cellWrites b.d (b.counters k)
      (if b.a.space = spIm then (cellsAt b.d (b.counters k)).map fun _ => l.headD 0 else l)) h) := by
  rw [acwBody, hl]
  rfl

theorem drnBody_eq {o : Int} {w : Nat} (ho : o = originAt s r b.b (b.counters k))
    (hw : w = (s.ctx r).mediumBits spTp (8 * o).toNat 512)
    (hrec : lateTouch s r f { space := spTp, lo := o, hi := o + 64, write := false } = .ok ()) (hok : drainFault b w = none)
    (hwin : (drainWindows b (drainOf w)).forM (lateTouch s r f) = .ok ()) :
    drnBody b s r f k = .ok (wrote (drainOutput b s r (drainOf w) (b.counters k)) []) := by
  subst ho hw
  unfold drnBody
  dsimp only
  rw [hrec]
  dsimp only
  rw [hok]
  dsimp only
  rw [hwin]
  rfl

end
end Sys2Proof.Machine

open Sys2Proof Sys2Proof.Machine

/-- Settles O8: a step form of one iteration passes its checks, reads its rows and columns, and adds to each cell the products
that its shape pairs. -/
theorem stepForms : Obligations.StepForms := by
  intro b s rows cols h1 h2
  refine ⟨?mma, ?mmas, ?mmd, ?mmc⟩
  case mma =>
    intro hi ⟨hc, ha, hb⟩
    exact congrArg _ (State.runMat_one hi hc (mmaBody_eq ha hb))
  case mmas =>
    intro hi ⟨hc, ha, hb⟩
    refine ⟨?_, fun hdense => congrArg _ (State.runMat_one hi hc (mmasBody_dense ha hb hdense))⟩
    rintro ms rfl hkept hm
    exact congrArg _ (State.runMat_one hi hc (mmasBody_kept ha hb hkept hm))
  case mmd =>
    intro hi ⟨hc, ha, hb⟩
    exact congrArg _ (State.runMat_one hi hc (mmdBody_eq ha hb))
  case mmc =>
    intro hi ⟨hc, ha, hb⟩
    exact congrArg _ (State.runMat_one hi hc (mmcBody_eq ha hb))

/-- Settles O9: a cell form of one iteration that passes its checks delivers what its body moves, at the origin that a tile pool window
has in every state; DRN does once its record passes its own checks. -/
theorem cellForms : Obligations.CellForms := by
  intro b s l h
  refine ⟨?acz, ?acr, ?acw, ?acmv, ?drn⟩
  case acz =>
    intro hi hc
    exact congrArg _ (State.runMat_one hi hc aczBody_eq)
  case acr =>
    intro hi hc hd
    rw [originAt_tp hd s (s.reading (.acr b) none)]
    exact congrArg _ (State.runMat_one hi hc acrBody_eq)
  case acw =>
    intro hi hc hl
    exact congrArg _ (State.runMat_one hi hc (acwBody_eq hl))
  case acmv =>
    intro hi hc
    exact congrArg _ (State.runMat_one hi hc acmvBody_eq)
  case drn =>
    intro x o w hx ho hw hi hc hrec hok hwin
    subst hx
    exact congrArg _ (State.runMat_one hi hc (drnBody_eq ho hw hrec hok hwin))
end

section
/-! PROOFS. The window and transform forms (O10). -/

namespace Sys2Proof.Machine

/-! ### Forms of one iteration whose result goes to a register or a pool window (R254, R260) -/

section
variable {s : State} {i : Instr} {b : LBlk} {body : Body} {n : Nat} {y : Runs} {h : Hot} {o : IterOut}

/-- A VXE block whose tags are right, which has no tolerance, and whose body delivers a result passes its checks (R76). -/
theorem vecCheck_ok (hg : s.TagsOk i b) (hv : ∀ x, i ≠ .vrcot x) (ho : ∀ p ∈ s.views i, body p.1 s.ref p.2 0 = .ok o) :
    (vecBehaviour i b body).check s s.ref = .ok none := by
  have ht : tagsOk (s.seenBy s.ref (s.nextIndex s.ref)) s.ref i b = true := hg
  have ho' := ho _ List.mem_cons_self
  unfold vecBehaviour
  simp only [ht, ho', Bool.not_true, Bool.false_eq_true, if_false]

/-- Such a block issues and runs, wherever in the tile media its iteration reads. -/
theorem State.runVec_any {reads : State → EngRef → InFlight → Nat → List Touch} (hi : s.IssuesOnce i) (hv : ∀ x, i ≠ .vrcot x)
    (ho : s.DeliversAny i b n y h o) (hb : ∀ p ∈ s.views i, body p.1 s.ref p.2 0 = finishAny p.1 s.ref b n 0 y h) :
    s.runBlock { vecBehaviour i b body with reads := reads } i = s.ran i none o := by
  obtain ⟨hissues, hone⟩ := hi
  obtain ⟨htags, hfin⟩ := ho
  have hbody : ∀ p ∈ s.views i, body p.1 s.ref p.2 0 = .ok o := fun p hp => (hb p hp).trans (hfin p hp)
  exact State.runBlock_one hissues hone (vecCheck_ok htags hv hbody) (hbody _ (List.mem_cons_of_mem _ List.mem_cons_self))

end

/-! ### Windows of a map (R255, R259) -/

/-- The writes of WINL: each element of the windows to its place in D. -/
def layWindows (s : State) (r : EngRef) (b : LBlk) (q : WinRec) (k : Nat) : List TileWrite :=
  (winlElems s r b q k).map fun (l, e, v) =>
    .tp (elemBit b.d (originAt s r b.d (b.counters k)) (memWidth b.fmt) l e).toNat (memWidth b.fmt) v

/-- D agrees with the record of WINL: operand rows in mode 0, tap lines in mode 1. -/
theorem winlShape_iff {b : LBlk} {q : WinRec} : winlShape b q = true ↔
    if q.mode = 0 then b.d.seg + 1 = q.kh * q.kw * (b.a.seg + 1) ∧ b.d.ext2 + 1 = q.np
    else b.d.seg + 1 = b.a.seg + 1 ∧ b.d.ext2 + 1 = q.np * (q.kh * q.kw) := by
  unfold winlShape
  by_cases hm : q.mode = 0 <;> simp [hm]

theorem wpoolShape_of {b : LBlk} {q : WinRec} (hd : b.d.space = spTp → b.d.count = q.np * (b.a.seg + 1)) :
    wpoolShape b q = true := by
  by_cases ht : b.d.space = spTp
  · simp [wpoolShape, hd ht]
  · simp [wpoolShape, ht]

section
variable {s : State} {r : EngRef} {f : InFlight} {b : LBlk} {q : WinRec} {k : Nat}

theorem winlBody_eq (hq : readWindow s r f b false k = .ok q) (hs : winlShape b q = true) :
    winlBody b s r f k = .ok (wrote (layWindows s r b q k) []) := by
  simp only [winlBody, hq, hs]
  rfl

theorem wpoolBody_eq (hq : readWindow s r f b true k = .ok q) (hs : wpoolShape b q = true) :
    wpoolBody b s r f k = finishAny s r b (q.np * (b.a.seg + 1)) k (wpoolElems s r b q k) [] := by
  simp only [wpoolBody, hq, hs]
  rfl

end

/-! ### Complex results (R260 to R263) -/

/-- Complex elements as a sequence, real parts before imaginary parts. -/
def complexRuns (l : List (Nat × Nat)) : Runs := runsOf (l.flatMap fun (x, z) => [x, z])

/-- The butterflies of half-size h, group by group. -/
def butterflies (b : LBlk) (h : Nat) (l : List (Nat × Nat)) : List (Nat × Nat) :=
  (chunks (2 * h) (l.length / (2 * h)) l).flatMap (butterfly b h)

/-- Each element times its twiddle in a row of the transform. -/
def twiddled (b : LBlk) (row : Nat) (l : List (Nat × Nat)) : List (Nat × Nat) :=
  (l.zip (upto l.length)).map fun (x, j) =>
    let w := twiddle (bits b.cx 0 5) (row * j % 2 ^ bits b.cx 0 5)
    complexMul b.rm (b.sat == 1) false x (if bitAt b.cx 5 then (w.1, flipPart w.2) else w)

/-- The products of the elements of l with those of m, or with its one element. -/
def complexProducts (b : LBlk) (l m : List (Nat × Nat)) : List (Nat × Nat) :=
  (l.zip (if m.length = l.length then m else l.map fun _ => m.headD (0, 0))).map fun (x, z) =>
    complexMul b.rm (b.sat == 1) (bitAt b.cx 0) x z

/-- A function that keeps the length of pieces of S elements keeps that of a list of such pieces. -/
theorem length_flatMap_chunks {α β : Type} {S : Nat} {g : List α → List β} (hg : ∀ l, l.length = S → (g l).length = S) :
    ∀ (n : Nat) (l : List α), l.length = S * n → ((chunks S n l).flatMap g).length = l.length
  | 0, l, hl => by simp [chunks, hl]
  | n + 1, l, hl => by
    rw [Nat.mul_succ] at hl
    have hhead : (l.take S).length = S := by rw [List.length_take]; omega
    have htail : (l.drop S).length = S * n := by rw [List.length_drop]; omega
    rw [chunks, List.flatMap_cons, List.length_append, hg _ hhead, length_flatMap_chunks hg n _ htail]
    omega

theorem length_butterfly {b : LBlk} {h : Nat} {l : List (Nat × Nat)} (hl : l.length = 2 * h) : (butterfly b h l).length = 2 * h := by
  simp only [butterfly, List.length_append, List.length_map, List.length_zip, List.length_take, List.length_drop]
  omega

theorem length_butterflies {b : LBlk} {h : Nat} {l : List (Nat × Nat)} (hl : l.length % (2 * h) = 0) :
    (butterflies b h l).length = l.length :=
  length_flatMap_chunks (fun _ => length_butterfly) _ l (Nat.mul_div_cancel' (Nat.dvd_of_mod_eq_zero hl)).symm

theorem length_twiddled {b : LBlk} {row : Nat} {l : List (Nat × Nat)} : (twiddled b row l).length = l.length := by
  simp [twiddled, upto]

theorem length_complexProducts {b : LBlk} {l m : List (Nat × Nat)} : (complexProducts b l m).length = l.length := by
  by_cases hm : m.length = l.length <;> simp [complexProducts, hm]

section
variable {s : State} {r : EngRef} {f : InFlight} {b : LBlk} {k : Nat} {l m : List (Nat × Nat)} {h h1 h2 : Hot}

theorem finishComplex_eq (hd : b.d.space = spTp → b.d.count = 2 * l.length) :
    finishComplex s r b k l h = finishAny s r b (2 * l.length) k (complexRuns l) h :=
  if_neg fun ⟨ht, hc⟩ => hc (hd ht)

theorem bflyBody_eq (ha : complexSeq s r f b.a (b.counters k) = .ok (l, h)) (hn : l.length % (2 * 2 ^ bits b.cx 0 4) = 0) :
    bflyBody b s r f k = finishComplex s r b k (butterflies b (2 ^ bits b.cx 0 4) l) h := by
  simp only [bflyBody, ha]
  exact if_neg (not_not.mpr hn)

/-- The row of an iteration is its number from B on, or B's own under RFIX. -/
theorem twdBody_eq (ha : complexSeq s r f b.a (b.counters k) = .ok (l, h)) :
    twdBody b s r f k = finishComplex s r b k (twiddled b (if bitAt b.cx 6 then b.b.base else b.b.base + k) l) h := by
  simp only [twdBody, ha]
  rfl

theorem cmulBody_eq (ha : complexSeq s r f b.a (b.counters k) = .ok (l, h1)) (hb : complexSeq s r f b.b (b.counters k) = .ok (m, h2))
    (hm : m.length = l.length ∨ m.length = 1) :
    cmulBody b s r f k = finishComplex s r b k (complexProducts b l m) (h1 ++ h2) := by
  simp only [cmulBody, ha, hb]
  exact if_neg (not_and_or.mpr (hm.imp not_not.mpr not_not.mpr))

end

/-- A transform of one iteration whose body finishes with as many complex elements as its window holds issues and runs. -/
theorem State.runComplex {s : State} {i : Instr} {b : LBlk} {body : Body} {n : Nat} {out : List (Nat × Nat)} {h : Hot} {o : IterOut}
    (hi : s.IssuesOnce i) (hv : ∀ x, i ≠ .vrcot x) (hn : out.length = n) (hd : b.d.space = spTp → b.d.count = 2 * n)
    (ho : s.DeliversAny i b (2 * n) (complexRuns out) h o)
    (hb : ∀ p ∈ s.views i, body p.1 s.ref p.2 0 = finishComplex p.1 s.ref b 0 out h) : runVec i b body s = s.ran i none o := by
  subst hn
  exact State.runVec_any (reads := fun _ _ _ _ => []) hi hv ho fun p hp => (hb p hp).trans (finishComplex_eq hd)

end Sys2Proof.Machine

open Sys2Proof Sys2Proof.Machine

/-- Settles O10: a form of one iteration passes its checks, and its body delivers the windows, or as many complex elements as it
reads. -/
theorem windowForms : Obligations.WindowForms := by
  intro b s q y l m h1 h2 o
  refine ⟨?winl, ?wpool, ?vbfly, ?vtwd, ?vcmul⟩
  case winl =>
    intro ⟨hi, hn⟩ hq hs
    exact congrArg _ (State.runBlock_one hi hn rfl (winlBody_eq hq (winlShape_iff.mpr hs)))
  case wpool =>
    intro hi hq hd hy ho
    exact congrArg _ (State.runVec_any hi nofun ho fun p hp => (wpoolBody_eq (hq p hp) (wpoolShape_of hd)).trans (by rw [hy p hp]))
  case vbfly =>
    rintro hi ha hl rfl hd ho
    exact congrArg _ (State.runComplex hi nofun (length_butterflies hl) hd ho fun p hp => bflyBody_eq (ha p hp) hl)
  case vtwd =>
    rintro hi ha rfl hd ho
    have hrow : (if bitAt b.cx 6 then b.b.base else b.b.base + 0) = b.b.base := ite_self _
    exact congrArg _ (State.runComplex (out := twiddled b b.b.base l) hi nofun length_twiddled hd ho
      fun p hp => (twdBody_eq (ha p hp)).trans (by rw [hrow]))
  case vcmul =>
    rintro hi ha hb hm rfl hd ho
    exact congrArg _ (State.runComplex (out := complexProducts b l m) hi nofun length_complexProducts hd ho
      fun p hp => cmulBody_eq (ha p hp) (hb p hp) hm)
end

section
/-! PROOFS. The invariant: reset meets it (O59), and the basic updates, records and faults keep it. -/

namespace Sys2Proof.Machine

variable {s : State}

/-! ### Setters keep the invariant -/

theorem State.Inv.setSlot (h : s.Inv) (t k : Nat) (x : Slot) : (s.setSlot t k x).Inv := { h with slots := Map.rising_set _ h.slots _ _ }
theorem State.Inv.updSlot (h : s.Inv) (t k : Nat) (f : Slot → Slot) : (s.updSlot t k f).Inv := h.setSlot _ _ _
theorem State.Inv.setCtx (h : s.Inv) (r : EngRef) (c : Ctx) : (s.setCtx r c).Inv := h.updSlot _ _ _
theorem State.Inv.updCtx (h : s.Inv) (r : EngRef) (f : Ctx → Ctx) : (s.updCtx r f).Inv := h.setCtx _ _
theorem State.Inv.setChain (h : s.Inv) (r : EngRef) (x : Chain) : (s.setChain r x).Inv := h.updCtx _ _
theorem State.Inv.updChain (h : s.Inv) (r : EngRef) (f : Chain → Chain) : (s.updChain r f).Inv := h.setChain _ _
theorem State.Inv.setTask (h : s.Inv) (n : Nat) (x : Task) : (s.setTask n x).Inv := { h with tasks := Map.rising_set _ h.tasks _ _ }
theorem State.Inv.updTask (h : s.Inv) (n : Nat) (f : Task → Task) : (s.updTask n f).Inv := h.setTask _ _
theorem State.Inv.setPasid (h : s.Inv) (n : Nat) (x : Pasid) : (s.setPasid n x).Inv := { h with pasids := Map.rising_set _ h.pasids _ _ }
theorem State.Inv.setTile (h : s.Inv) (n : Nat) (x : Tile) : (s.setTile n x).Inv := { h with tiles := Map.rising_set _ h.tiles _ _ }
theorem State.Inv.setDie (h : s.Inv) (n : Nat) (x : FaultUnit) : (s.setDie n x).Inv := { h with dies := Map.rising_set _ h.dies _ _ }
theorem State.Inv.setLaunch (h : s.Inv) (n : Nat) (x : Launch) : (s.setLaunch n x).Inv :=
  { h with launches := Map.rising_set _ h.launches _ _ }
theorem State.Inv.setPoint (h : s.Inv) (n : Nat) (x : Point) : (s.setPoint n x).Inv := { h with points := Map.rising_set _ h.points _ _ }
theorem State.Inv.setQueue (h : s.Inv) (n : Nat) (x : Queue) : (s.setQueue n x).Inv := { h with queues := Map.rising_set _ h.queues _ _ }
theorem State.Inv.setModel (h : s.Inv) (n : Nat) (x : Model) : (s.setModel n x).Inv := { h with models := Map.rising_set _ h.models _ _ }
theorem State.Inv.withPerc (h : s.Inv) (p : Percolator) : State.Inv { s with perc := p } := { h with }
theorem State.Inv.updPerc (h : s.Inv) (f : Percolator → Percolator) : (s.updPerc f).Inv := { h with }
theorem State.Inv.withMgmt (h : s.Inv) (m : Management) : State.Inv { s with mgmt := m } := { h with }
theorem State.Inv.setPoison (h : s.Inv) (p : Place) (n : Nat) (b : Bool) : (s.setPoison p n b).Inv := { h with }

/-- A hart stays legal where every other one is. -/
theorem State.Inv.setHart (h : s.Inv) (c : Nat) {x : Hart} (hx : x.Legal) : (s.setHart c x).Inv :=
  { h with
    harts := Map.rising_set _ h.harts _ _
    legal := fun k => by
      rw [State.hartAt, State.setHart, Map.get_set _ h.harts]
      split
      · exact hx
      · exact h.legal k }

theorem State.Inv.tierMem (h : s.Inv) (t : Tier) : (s.tierMem t).wf = true := by
  cases t
  · exact h.hbm
  · exact h.lpddr
  · exact h.cxl
  · exact h.host

theorem State.Inv.setTierMem (h : s.Inv) (t : Tier) {m : Memory} (hm : m.wf = true) : (s.setTierMem t m).Inv := by
  cases t
  · exact { h with hbm := hm }
  · exact { h with lpddr := hm }
  · exact { h with cxl := hm }
  · exact { h with host := hm }

theorem State.Inv.putTier (h : s.Inv) (t : Tier) (i w v : Nat) : (s.setTierMem t (Memory.putBits (s.tierMem t) i w v)).Inv :=
  h.setTierMem t (Memory.wf_putBits (h.tierMem t) i w v)

theorem State.Inv.log (h : s.Inv) (e : ThymeEvent) : (s.log e).Inv := { h with thyme := List.length_take_le _ _ }

/-! ### The reset state -/

theorem Hart.legal_reset : ({} : Hart).Legal :=
  ⟨.inr (.inr rfl), by decide, by decide, by decide, trivial, fun _ => ⟨Nat.two_pow_pos 64, fun _ => rfl⟩⟩

/-! ### Choices and repetitions -/

theorem State.Inv.ite {t : State} {c : Prop} [Decidable c] (h : s.Inv) (ht : t.Inv) : (if c then s else t).Inv := by
  split
  · exact h
  · exact ht

/-- What every round of a loop keeps, the loop keeps. -/
theorem State.Inv.foldl {α : Type} {f : State → α → State} (hf : ∀ s x, s.Inv → (f s x).Inv) :
    ∀ (l : List α) {s : State}, s.Inv → (l.foldl f s).Inv
  | [], _, h => h
  | x :: l, _, h => State.Inv.foldl hf l (hf _ x h)

/-- A state that may be missing. -/
theorem State.Inv.getD {o : Option State} (h : s.Inv) (ho : ∀ t, o = some t → t.Inv) : (o.getD s).Inv := by
  cases o with
  | none => exact h
  | some t => exact ho t rfl

/-! ### Memory and poison -/

theorem State.Inv.putUnit (h : s.Inv) (p : Place) (unit v : Nat) : (s.putUnit p unit v).Inv := by
  cases p with
  | tier t => exact h.putTier t _ _ _
  | clusterPool => exact { h with clusterPool := Memory.wf_putBits h.clusterPool _ _ _ }
  | diePool => exact { h with diePool := Memory.wf_putBits h.diePool _ _ _ }
  | launchPage => exact h
  | peer => exact h

theorem State.Inv.writeBits (h : s.Inv) (p : Place) (bit w v : Nat) : (s.writeBits p bit w v).Inv := by
  cases p with
  | tier t =>
    simp only [State.writeBits]
    split
    · exact (h.putTier _ _ _ _).putTier _ _ _ _
    · exact h.putTier _ _ _ _
  | clusterPool => exact { h with clusterPool := Memory.wf_putBits h.clusterPool _ _ _ }
  | diePool => exact { h with diePool := Memory.wf_putBits h.diePool _ _ _ }
  | launchPage => exact h
  | peer => exact h

theorem State.Inv.cleanSector (h : s.Inv) (p : Place) (k : Nat) : (s.cleanSector p k).Inv := by
  cases p with
  | tier t => exact State.Inv.ite ((h.setPoison _ _ _).log _) h
  | _ => exact h

theorem State.Inv.cleanSectors (h : s.Inv) (p : Place) (a n : Nat) : (s.cleanSectors p a n).Inv :=
  State.Inv.foldl (fun _ k h => h.cleanSector p k) _ h

theorem State.Inv.writePart (h : s.Inv) {whole : Bool} {pasid va n v : Nat} {t : State} (ht : s.writePart whole pasid va n v = some t) :
    t.Inv := by
  unfold State.writePart at ht
  split at ht
  · cases ht
  · rw [Option.ite_none_left_eq_some] at ht
    cases ht.2
    refine State.Inv.writeBits ?_ _ _ _ _
    exact State.Inv.ite (State.Inv.foldl (fun _ k h => h.cleanSector _ k) _ h) (h.cleanSectors _ _ _)

theorem State.Inv.writeVa (h : s.Inv) {whole : Bool} {pasid va n v : Nat} {t : State} (ht : s.writeVa pasid va n v whole = some t) :
    t.Inv := by
  unfold State.writeVa at ht
  dsimp only at ht
  split at ht
  · exact h.writePart ht
  · obtain ⟨u, hu, ht⟩ := Option.bind_eq_some_iff.mp ht
    exact (h.writePart hu).writePart ht

/-! ### Time, records and stops -/

theorem State.Inv.tick (h : s.Inv) (dt : Nat) : (s.tick dt).Inv := by
  unfold State.tick
  split
  · exact h
  · exact { h with slots := Map.rising_mapVals h.slots _ fun _ => rfl, cycle := Nat.mod_lt _ (by decide) }

theorem State.Inv.storeRecord (h : s.Inv) (die k : Nat) (f : FaultRec) : (s.storeRecord die k f).Inv :=
  (h.cleanSectors (.tier .lpddr) _ 64).setTierMem .lpddr (Memory.wf_putNat 64 _ _ h.lpddr)

theorem State.Inv.withFaultQueues (h : s.Inv) (q : Map (List (Nat × Nat))) (n : Map Nat) :
    State.Inv { s with faultQueues := q, faultIrqs := n } := { h with }

theorem State.Inv.placeRecord (h : s.Inv) (die cluster : Nat) (f : FaultRec) : (s.placeRecord die cluster f).Inv :=
  State.Inv.log (State.Inv.withFaultQueues ((h.setDie _ _).storeRecord _ _ _) _ _) _

theorem State.Inv.inTurn (h : s.Inv) (die : Nat) (f : FaultRec) : (s.inTurn die f).Inv := State.Inv.ite (h.tick 1) h

theorem State.Inv.emitRecord (h : s.Inv) (die cluster : Nat) (f : FaultRec) : (s.emitRecord die cluster f).Inv := by
  unfold State.emitRecord
  refine State.Inv.ite (State.Inv.log ?_ _) (((h.inTurn _ _).setDie _ _).placeRecord _ _ _)
  exact { (h.inTurn die f).setDie die _ with }

theorem State.Inv.stopEngine (h : s.Inv) (r : EngRef) (kind : StopKind) (cause : Nat) (disp : Disp) (orig : Bool) (acc tag skid : Nat) :
    (s.stopEngine r kind cause disp orig acc tag skid).Inv := by
  unfold State.stopEngine
  exact (h.updSlot _ _ _).updChain _ _

theorem State.Inv.setTaskState (h : s.Inv) (n : Nat) (st : TState) : (s.setTaskState n st).Inv := by
  unfold State.setTaskState
  dsimp only
  split
  · exact State.Inv.getD (h.setTask _ _) fun _ ht => (h.setTask _ _).writeVa ht
  · exact h.setTask _ _

theorem State.Inv.raiseHalt (h : s.Inv) (pasid cause task : Nat) : (s.raiseHalt pasid cause task).Inv :=
  State.Inv.ite h ((h.setPasid _ _).log _)

theorem State.Inv.stopTask (h : s.Inv) (r : EngRef) (cause tag : Nat) : (s.stopTask r cause tag).Inv :=
  State.Inv.foldl (fun _ _ h => State.Inv.ite h (h.stopEngine _ _ _ _ _ _ _ _)) _ (h.stopEngine _ _ _ _ _ _ _ _)

theorem State.Inv.takeFault (h : s.Inv) (r : EngRef) (block : Nat) (f : BlockFault) (d : Disp) (prec : Bool := true) :
    (s.takeFault r block f d prec).Inv := by
  cases d with
  | park =>
    exact State.Inv.ite ((((h.emitRecord _ _ _).updChain _ _).updSlot _ _ _).setTaskState _ _)
      (((h.emitRecord _ _ _).updChain _ _).updSlot _ _ _)
  | halt => exact (State.Inv.ite (h.emitRecord _ _ _) ((h.emitRecord _ _ _).stopEngine _ _ _ _ _ _ _ _)).raiseHalt _ _ _
  | stop => exact State.Inv.ite (h.stopEngine _ _ _ _ _ _ _ _) (h.stopTask _ _ _)
  | note => exact h.emitRecord _ _ _

theorem State.Inv.schedulerFault (h : s.Inv) (tile slot : Nat) (c : Cause) (fva acc : Nat) : (s.schedulerFault tile slot c fva acc).Inv := by
  unfold State.schedulerFault
  dsimp only
  split
  · exact State.Inv.ite (((h.emitRecord _ _ _).updSlot _ _ _).setTaskState _ _) ((h.emitRecord _ _ _).updSlot _ _ _)
  · exact (h.emitRecord _ _ _).raiseHalt _ _ _
  · exact h.emitRecord _ _ _

theorem State.Inv.noteRecord (h : s.Inv) (die : Nat) (f : FaultRec) : (s.noteRecord die f).Inv := h.emitRecord _ _ _

end Sys2Proof.Machine

open Sys2Proof.Machine

/-- Settles O59: every table of the reset state is listed in order, and every hart is the one that no table lists. -/
theorem resetInvariant : Obligations.ResetInvariant where
  hbm := rfl
  lpddr := rfl
  cxl := rfl
  host := rfl
  clusterPool := rfl
  diePool := rfl
  supmem := rfl
  slots := trivial
  tasks := trivial
  pasids := trivial
  tiles := trivial
  launches := trivial
  points := trivial
  dies := ⟨Nat.zero_le _, Nat.le_refl _, Nat.le_refl _, Nat.le_refl _, trivial⟩
  queues := ⟨Nat.zero_le _, trivial⟩
  models := trivial
  harts := trivial
  legal := fun _ => Hart.legal_reset
  cycle := by decide
  thyme := by decide
end

section
/-! PROOFS. Homes, storage, issue and completion keep the invariant. -/

namespace Sys2Proof.Machine

variable {s : State}

/-! ### Accesses at homes -/

theorem State.Inv.sampleAccess (h : s.Inv) (p : Place) (a size : Nat) : (s.sampleAccess p a size).Inv := by
  cases p with
  | tier t => exact State.Inv.ite { h with } { h with }
  | _ => exact h

theorem State.Inv.sampleAll (h : s.Inv) (l : List (Place × Nat × Nat)) : (s.sampleAll l).Inv :=
  State.Inv.foldl (fun _ _ h => h.sampleAccess _ _ _) l h

theorem State.Inv.performOp (h : s.Inv) (p : Place) (o : HomeOp) : (s.performOp p o).1.Inv := by
  unfold State.performOp
  split
  · exact h.writeBits _ _ _ _
  · exact h.writeBits _ _ _ _

theorem State.Inv.performOps (p : Place) : ∀ (l : List HomeOp) {s : State}, s.Inv → (s.performOps p l).1.Inv
  | [], _, h => h
  | o :: l, _, h => State.Inv.performOps p l (h.performOp p o)

theorem State.Inv.remember {t : State} (ht : t.Inv) (a : Access) : (s.remember t a).Inv :=
  State.Inv.ite ht { ht with }

theorem State.Inv.serve (h : s.Inv) (a : Access) : (s.serve a).1.Inv := State.Inv.remember (State.Inv.performOps a.place a.ops h) a

theorem State.Inv.withPoison (h : s.Inv) (m : Map Bool) : State.Inv { s with poison := m } := { h with }

theorem State.Inv.performAccess (h : s.Inv) (a : Access) : (s.performAccess a).1.Inv := by
  unfold State.performAccess
  dsimp only
  split
  case' h_1 size _ => replace h := h.sampleAccess a.place (a.unit * unitBytes a.place) size
  all_goals
    split
    · split
      · exact ((h.withPoison _).log _).serve a
      · exact h
    · exact h.serve a

theorem State.Inv.performAll : ∀ (l : List Access) {s : State}, s.Inv → (s.performAll l).1.Inv
  | [], _, h => h
  | a :: l, _, h => State.Inv.performAll l (h.performAccess a)

theorem State.Inv.addFork (h : s.Inv) (r : EngRef) (block serial : Nat) (l : List Access) (pull : Option Nat := none) :
    (s.addFork r block serial l pull).Inv :=
  State.Inv.ite h { h with tiles := Map.rising_set _ h.tiles _ _ }

/-! ### Storage that checks what it delivers -/

theorem State.Inv.logOut (h : s.Inv) (tile addr kind count : Nat) : (s.logOut tile addr kind count).Inv := (h.withMgmt _).log _

theorem State.Inv.withGranulesOut (h : s.Inv) (m : Map Bool) : State.Inv { s with granulesOut := m } := { h with }

theorem State.Inv.granuleOut (h : s.Inv) (p : Place) (word : Nat) : (s.granuleOut p word).Inv :=
  State.Inv.ite h ((h.withGranulesOut _).logOut _ _ _ _)

theorem Seen.inv_dropDuplicate {x : Seen} (h : x.s.Inv) (r : EngRef) (n k : Nat) : (x.dropDuplicate r n k).s.Inv := by
  unfold Seen.dropDuplicate
  dsimp only
  split
  · dsimp only
    exact h.updCtx _ _
  · dsimp only
    exact h.updCtx _ _

theorem Seen.inv_repairOne {x : Seen} (h : x.s.Inv) (r : EngRef) (e : Failure) : (x.repairOne r e).s.Inv := by
  cases e with
  | tileWord w lasting => exact State.Inv.ite h (State.Inv.ite ((h.setTile _ _).logOut _ _ _ _) (h.log _))
  | parityBank g => exact (h.setTile _ _).logOut _ _ _ _
  | weight w lasting => exact State.Inv.ite h (h.log _)
  | cell k => exact h
  | run n i => exact State.Inv.ite (h.log _) h
  | runCopy n i => exact (Seen.inv_dropDuplicate h r n (i + 1)).log _
  | header n => exact State.Inv.ite h (h.log _)
  | headerCopy n => exact (Seen.inv_dropDuplicate h r n 0).log _
  | shared p w lasting => exact State.Inv.ite (((h.setPoison _ _ _).granuleOut _ _).log _) (h.log _)
  | sector t k lasting => exact h

theorem Seen.inv_meet (r : EngRef) (q : Reads) : ∀ (l : List Failure) {x : Seen}, x.s.Inv → (Seen.meet r q l x).2.s.Inv
  | [], _, h => h
  | e :: l, x, h => by
    unfold Seen.meet
    split
    · exact Seen.inv_meet r q l h
    · split
      · exact Seen.inv_repairOne h r e
      · exact Seen.inv_meet r q l (Seen.inv_repairOne h r e)

theorem Seen.inv_delivers {x : Seen} (h : x.s.Inv) (r : EngRef) (q : Reads) : (x.delivers r q).2.s.Inv := by
  unfold Seen.delivers
  split
  · exact h
  · exact Seen.inv_meet r q _ h

/-- A read from a state as a slot sees it. -/
theorem State.Inv.delivers (h : s.Inv) (v : Ctx) (ws : List TileWrite) (r : EngRef) (q : Machine.Reads) :
    (Seen.delivers { s := s, v := v, ws := ws } r q).2.s.Inv := Seen.inv_delivers h r q

/-! ### Issue -/

theorem State.Inv.noteHandle (h : s.Inv) (r : EngRef) (x : Desc) : (s.noteHandle r x).Inv := by
  unfold State.noteHandle
  dsimp only
  split
  · exact h
  · split
    · exact (State.Inv.ite h (h.setTile _ _)).sampleAll _
    · exact h

theorem State.Inv.startBlock (h : s.Inv) (r : EngRef) (i : Instr) (hd : Option Handle) : (s.startBlock r i hd).Inv := by
  have h0 : State.Inv (match lParts i with | some (_, _, b) => (s.noteHandle r b.a).noteHandle r b.d | none => s) := by
    split
    · exact (h.noteHandle _ _).noteHandle _ _
    · exact h
  unfold State.startBlock
  exact State.Inv.ite ((h0.updSlot _ _ _).log _) (h0.updSlot _ _ _)

theorem State.Inv.setEntry (h : s.Inv) (r : EngRef) (k : Nat) (f : InFlight) : (s.setEntry r k f).Inv := h.updChain _ _

theorem State.Inv.updEntry (h : s.Inv) (r : EngRef) (k : Nat) (f : InFlight → InFlight) : (s.updEntry r k f).Inv := by
  unfold State.updEntry
  split
  · exact h.setEntry _ _ _
  · exact h

theorem State.Inv.stepStop (h : s.Inv) (r : EngRef) : (s.stepStop r).Inv := State.Inv.ite (h.stopEngine _ _ _ _ _ _ _ _) h

theorem State.Inv.completeBlock (h : s.Inv) (r : EngRef) (k : Nat) : (s.completeBlock r k).Inv := by
  unfold State.completeBlock
  split
  · exact h
  · next f _ =>
    have h1 := State.Inv.performAll f.homes h
    dsimp only
    split
    · exact (h1.setEntry _ _ _).takeFault _ _ _ _ _
    · have h3 {c : Prop} [Decidable c] {x : Ctx} {g : Slot → Slot} {e : ThymeEvent} := 
        State.Inv.ite (c := c) (((h1.setCtx r x).updSlot r.tile r.slot g).log e) ((h1.setCtx r x).updSlot r.tile r.slot g)
      split
      · exact h3.takeFault _ _ _ _
      · exact State.Inv.ite (h3.stepStop _) h3

/-! ### Runs over the nest -/

theorem Run.inv_after {x : Run} (h : x.s.Inv) (r : EngRef) (o : IterOut) : (x.after r o).s.Inv := by
  have h2 : State.Inv (match o.guard with
      | some g => (x.s.sampleAll o.hot).updChain r fun h => { h with guard := h.guard <|> some g }
      | none => x.s.sampleAll o.hot) := by
    split
    · exact (h.sampleAll _).updChain _ _
    · exact h.sampleAll _
  unfold Run.after
  dsimp only
  split
  · exact h2.setCtx _ _
  · exact h2

theorem Run.inv_read {x : Run} (h : x.s.Inv) (beh : Behaviour) (r : EngRef) : (x.read beh r).s.Inv := Seen.inv_delivers h r _

theorem runIters_inv (beh : Behaviour) (r : EngRef) : ∀ (n : Nat) {x : Run}, x.s.Inv → (runIters beh r n x).s.Inv
  | 0, _, h => h
  | n + 1, x, h => by
    have hz := Run.inv_read h beh r
    unfold runIters
    dsimp only
    split
    · exact h
    · split
      · exact h
      · split
        · exact hz
        · split
          · exact hz
          · next o _ =>
            have hy := Run.inv_after hz r o
            split
            · exact hy
            · split
              · exact hy
              · exact runIters_inv beh r n hy

theorem State.Inv.endRun (h : s.Inv) (r : EngRef) (k : Nat) (f : InFlight) (fork : List Access) (e : Option BlockFault) :
    (s.endRun r k f fork e).Inv := by
  cases e with
  | none => exact (h.setEntry _ _ _).addFork _ _ _ _
  | some e => exact ((((State.Inv.performAll f.homes h).updCtx _ _).setEntry _ _ _).addFork _ _ _ _).takeFault _ _ _ _ _

theorem State.Inv.continueBlock (h : s.Inv) (beh : Behaviour) (r : EngRef) (k : Nat) : (s.continueBlock beh r k).Inv := by
  unfold State.continueBlock
  split
  · exact h
  · exact State.Inv.endRun (runIters_inv _ _ _ h) _ _ _ _ _

theorem State.Inv.issueStop (h : s.Inv) (r : EngRef) (e : BlockFault) : (s.issueStop r e).Inv :=
  (State.Inv.ite (h.updChain _ _) h).takeFault _ _ _ _

theorem State.Inv.breakAt (h : s.Inv) (r : EngRef) : (s.breakAt r).Inv := h.takeFault _ _ _ _

theorem State.Inv.breakOr (h : s.Inv) (r : EngRef) (e : Option BlockFault) : (s.breakOr r e).Inv := by
  cases e with
  | none => exact h.breakAt r
  | some e => exact State.Inv.ite (h.issueStop r e) (h.breakAt r)

theorem State.Inv.runBlock (h : s.Inv) (beh : Behaviour) (i : Instr) : (s.runBlock beh i).Inv := by
  unfold State.runBlock
  dsimp only
  split
  · exact State.Inv.ite (h.continueBlock _ _ _) h
  · split
    · exact h
    · exact h.breakOr _ _
    · split
      · exact h.issueStop _ _
      · split
        · exact h.issueStop _ _
        · exact State.Inv.ite ((h.startBlock _ _ _).updEntry _ _ _) ((h.startBlock _ _ _).continueBlock _ _ _)

/-- Where it is a state, the invariant holds of it. -/
def OkInv {ε : Type} (e : Except ε State) : Prop := ∀ t, e = .ok t → t.Inv

theorem OkInv.error {ε : Type} {e : ε} : OkInv (.error e) := fun _ ht => by injection ht
theorem OkInv.ok {ε : Type} (h : s.Inv) : OkInv (.ok s : Except ε State) := fun _ ht => Except.ok.inj ht ▸ h
theorem OkInv.ite {ε : Type} {c : Prop} [Decidable c] {a b : Except ε State} (ha : OkInv a) (hb : OkInv b) :
    OkInv (if c then a else b) := by
  split
  · exact ha
  · exact hb

/-- An effect keeps the invariant where it succeeds. -/
def KeepsInv (eff : State → EngRef → Nat → Except BlockFault State) : Prop := ∀ s r k, s.Inv → OkInv (eff s r k)

theorem State.Inv.runStep (h : s.Inv) {eff : State → EngRef → Nat → Except BlockFault State} (heff : KeepsInv eff) (i : Instr) :
    (s.runStep eff i).Inv := by
  unfold State.runStep
  dsimp only
  split
  · exact h
  · exact h.breakOr _ _
  · split
    · exact h.issueStop _ _
    · have hy := h.delivers (s.viewOf s.ref (s.nextIndex s.ref)) [] s.ref
      split
      · next hd =>
        have h1 := hd ▸ hy _
        exact h1.issueStop _ _
      · next hd =>
        have h1 := hd ▸ hy _
        split
        · exact h1.issueStop _ _
        · next ht => exact heff _ _ _ (h1.startBlock _ _ _) _ ht

/-- A block that completes at issue does so where its effect succeeds. -/
theorem State.Inv.runNow (h : s.Inv) {eff : State → EngRef → Nat → Except BlockFault State} (heff : KeepsInv eff) (i : Instr) :
    (s.runNow eff i).Inv := by
  refine h.runStep (fun s r k h => ?_) i
  split
  · exact .error
  · next hs => exact .ok ((heff _ _ _ h _ hs).completeBlock _ _)

end Sys2Proof.Machine
end

section
/-! PROOFS. What an answer of exec leaves of the invariant, and the blocks of one step: classes 0 to 3 and 9. -/

namespace Sys2Proof.Machine

variable {s : State}

/-- An answer that is a next state keeps the invariant. -/
def Answers (o : Host.Outcome State Fault Refusal) : Prop := ∀ t, o = .next t → t.Inv

theorem Answers.next (h : s.Inv) : Answers (.next s) := fun _ ht => Host.Outcome.next.inj ht ▸ h
theorem Answers.fault {e : Fault} : Answers (.fault e) := fun _ ht => by injection ht
theorem Answers.refused {e : Refusal} : Answers (.refused e) := fun _ ht => by injection ht
theorem Answers.ite {c : Prop} [Decidable c] {a b : Host.Outcome State Fault Refusal} (ha : Answers a) (hb : Answers b) :
    Answers (if c then a else b) := by
  split
  · exact ha
  · exact hb

/-! ### Chain control -/

theorem State.Inv.jump (h : s.Inv) (r : EngRef) (target : Nat) : (s.jump r target).Inv := h.updChain _ _

theorem State.Inv.patchWith (h : s.Inv) (r : EngRef) (k : Nat) (l : List Access) : OkInv (s.patchWith r k l) := by
  have hl := State.Inv.performAll l h
  refine .ite (.ok ((h.addFork _ _ _ _).completeBlock _ _)) (.ite (.ok (h.updEntry _ _ _)) ?_)
  split
  · exact .error
  · next hp =>
    rw [hp] at hl
    exact .ok (hl.completeBlock _ _)

theorem State.Inv.patchBytes (h : s.Inv) (r : EngRef) (k tgt n v : Nat) : OkInv (s.patchBytes r k tgt n v) := by
  rw [State.patchBytes_eq rfl]
  cases s.patchAccess r k tgt n v with
  | error e => exact .error
  | ok l => exact h.patchWith r k l

theorem State.Inv.runRaise (h : s.Inv) {eff : State → EngRef → Nat → Except BlockFault State} (heff : KeepsInv eff) (i : Instr) :
    (s.runRaise eff i).Inv := by
  unfold State.runRaise
  split
  · exact .ite (h.completeBlock _ _) h
  · exact h.runStep heff i

theorem State.Inv.raiseCause (h : s.Inv) (r : EngRef) (k : Nat) (f : BlockFault) (d : Disp) : (s.raiseCause r k f d).Inv :=
  (h.updEntry _ _ _).takeFault _ _ _ _

theorem State.Inv.offerSlot (h : s.Inv) (r : EngRef) : (s.offerSlot r).Inv := .ite (h.updSlot _ _ _) h

theorem State.Inv.cancelDangling (h : s.Inv) (r : EngRef) : (s.cancelDangling r).Inv := by
  refine .ite h (.foldl (fun s ⟨k, g⟩ h => ?_) _ h)
  refine .ite (State.Inv.updCtx ?_ _ _) ?_
  all_goals
    split
    · refine State.Inv.emitRecord ?_ _ _ _
      split
      · exact h.emitRecord _ _ _
      · exact h
    · split
      · exact h.emitRecord _ _ _
      · exact h

theorem State.Inv.withForks (h : s.Inv) (l : List Fork) : State.Inv { s with forks := l } := { h with }

section
variable (h : s.Inv) (c : Ctl)
include h

theorem answers_nop : Answers (execNop c s) := .next (h.runNow (fun _ _ _ h => .ok h) _)
theorem answers_link (a : Nat) : Answers (execLink c a s) := .next (h.runNow (fun _ _ _ h => .ok (h.jump _ _)) _)
theorem answers_brc (cond tgt imm off : Nat) : Answers (execBrc c cond tgt imm off s) :=
  .next (h.runNow (fun _ _ _ h => .ok (.ite ((State.Inv.ite (h.updChain _ _) h).jump _ _) (.ite (h.updChain _ _) h))) _)
theorem answers_brcd (tgt off : Nat) : Answers (execBrcd c tgt off s) :=
  .next (h.runNow (fun _ _ _ h => .ite (.ok h) (.ok ((h.updEntry _ _ _).jump _ _))) _)
theorem answers_patch (len tgt off : Nat) : Answers (execPatch c len tgt off s) :=
  .next (h.runStep (fun _ _ _ h => h.patchBytes _ _ _ _ _) _)
theorem answers_patchi (len tgt imm : Nat) : Answers (execPatchi c len tgt imm s) :=
  .next (h.runStep (fun _ _ _ h => h.patchBytes _ _ _ _ _) _)
theorem answers_patchv (len tgt elem vreg : Nat) : Answers (execPatchv c len tgt elem vreg s) :=
  .next (h.runStep (fun _ _ _ h => .ite .error (.ite .error (h.patchBytes _ _ _ _ _))) _)
theorem answers_endChain : Answers (execEndChain c s) :=
  .next (h.runNow (fun _ _ _ h => .ok ((h.updChain _ _).cancelDangling _)) _)
theorem answers_yieldSlot : Answers (execYieldSlot c s) :=
  .next (h.runNow (fun _ _ _ h => .ok ((State.Inv.ite (h.updCtx _ _) h).offerSlot _)) _)
theorem answers_spawn (rb roff inh : Nat) : Answers (execSpawn c rb roff inh s) :=
  .next (h.runNow (fun _ _ _ h => .ite .error (.ok (h.withForks _))) _)
theorem answers_svc (n a : Nat) : Answers (execSvc c n a s) := .next (h.runRaise (fun _ _ _ h => .ok (h.raiseCause _ _ _ _)) _)
theorem answers_trap (n a : Nat) : Answers (execTrap c n a s) := .next (h.runRaise (fun _ _ _ h => .ok (h.raiseCause _ _ _ _)) _)
theorem answers_brkp (n : Nat) : Answers (execBrkp c n s) := .next (h.runRaise (fun _ _ _ h => .ok (h.raiseCause _ _ _ _)) _)
theorem answers_flti (x v : Nat) : Answers (execFlti c x v s) := by
  unfold execFlti
  refine .next (h.runRaise (fun s r k h => ?_) _)
  refine .ite .error ?_
  split
  · exact .error
  · split
    · exact .ok (.ite ((h.takeFault _ _ _ _).updEntry _ _ _) ((h.takeFault _ _ _ _).completeBlock _ _))
    · exact .ok (h.raiseCause _ _ _ _)
end

/-! ### Streams, acquires and releases -/

theorem State.Inv.acquire (h : s.Inv) (r : EngRef) (scope : Nat) (va : Int) (n : Nat) : (s.acquire r scope va n).Inv := .ite (h.updChain _ _) h

theorem State.Inv.handOver (h : s.Inv) (r : EngRef) (k : Nat) (l : List Access) : (s.handOver r k l).Inv := h.updEntry _ _ _

theorem State.Inv.signalSlot (h : s.Inv) {pasid tile slot sem cnt : Nat} {e : Except Cause State}
    (he : s.signalSlot pasid tile slot sem cnt = some e) : OkInv e := by
  unfold State.signalSlot at he
  dsimp only at he
  obtain ⟨-, he⟩ | ⟨-, he⟩ := ite_eq_iff.mp he
  · cases he
    cases (s.slotAt tile slot).ctx.signalOne sem cnt with
    | error e => exact .error
    | ok c => exact .ok (h.setSlot _ _ _)
  · split at he
    · cases he
    · cases he
      split
      · exact .error
      · exact .ok (h.setTask _ _)

theorem State.Inv.onSlot (h : s.Inv) (r : EngRef) (e : Except Cause Ctx) : OkInv (s.onSlot r e) := by
  cases e with
  | error e => exact .error
  | ok c => exact .ok (h.setCtx _ _)

section
variable (h : s.Inv)
include h

theorem answers_sub (b : LBlk) : Answers (execSub b s) := by
  refine .next (h.runNow (fun s r k h => ?_) _)
  dsimp only
  split
  · exact .error
  · refine .ite .error ?_
    split
    · exact .error
    · exact .ite .error (.ok (h.setCtx _ _))

theorem answers_subc (b : LBlk) : Answers (execSubc b s) := by
  refine .next (h.runStep (fun s r k h => ?_) _)
  dsimp only
  split
  · exact .error
  · split
    · exact .ok (h.completeBlock _ _)
    · refine .ite (.ok ((h.setCtx _ _).updEntry _ _ _)) ?_
      split
      · exact .ok ((h.setCtx _ _).completeBlock _ _)
      · exact .error

theorem answers_pub (b : LBlk) : Answers (execPub b s) := by
  refine .next (h.runNow (fun s r k h => ?_) _)
  dsimp only
  split
  · exact .error
  · split
    · exact .error
    · exact .ite .error (.ok (h.setCtx _ _))

theorem answers_pubc (b : LBlk) : Answers (execPubc b s) := by
  refine .next (h.runStep (fun s r k h => ?_) _)
  dsimp only
  split
  · exact .error
  · exact .ite (.ok ((h.setCtx _ _).updEntry _ _ _)) (.ok ((h.setCtx _ _).completeBlock _ _))

variable (c : Ctl)

theorem answers_ldacq (wt w64 scope rb roff imm off : Nat) : Answers (execLdacq c wt w64 scope rb roff imm off s) := by
  refine .next (h.runStep (fun s r k h => ?_) _)
  refine .ite .error ?_
  split
  · exact .error
  · exact .ok (((h.acquire _ _ _ _).sampleAll _).updEntry _ _ _)

theorem answers_strel (si w64 scope rb roff imm off : Nat) : Answers (execStrel c si w64 scope rb roff imm off s) := by
  refine .next (h.runStep (fun s r k h => ?_) _)
  refine .ite .error ?_
  split
  · exact .error
  · exact .ok (h.handOver _ _ _)

theorem answers_semi (sem val : Nat) : Answers (execSemi c sem val s) :=
  .next (h.runNow (fun _ _ _ h => .ite .error (.ok (h.updCtx _ _))) _)

theorem answers_semq (sem off : Nat) : Answers (execSemq c sem off s) := .next (h.runStep (fun _ _ _ h => .ok (h.updEntry _ _ _)) _)

theorem answers_semw (dec sem cnt : Nat) : Answers (execSemw c dec sem cnt s) :=
  .next (h.runNow (fun _ _ _ h => .ite .error (.ok (.ite (h.updCtx _ _) h))) _)

theorem answers_sems (rmt slot tile sem cnt : Nat) : Answers (execSems c rmt slot tile sem cnt s) := by
  refine .next (h.runStep (fun s r k h => ?_) _)
  refine .ite .error ?_
  split
  · exact .error
  · exact .ok (h.raiseCause _ _ _ _)
  · next hs => exact .ok ((h.signalSlot hs _ rfl).completeBlock _ _)

theorem answers_regd (b2v b2w b2sem b1v b1w b1sem mode space reg len off : Nat) :
    Answers (execRegd c b2v b2w b2sem b1v b1w b1sem mode space reg len off s) := .next (h.runNow (fun _ _ _ h => h.onSlot _ _) _)

theorem answers_ringd (prod esem fsem reg ring slot64 nslot : Nat) : Answers (execRingd c prod esem fsem reg ring slot64 nslot s) :=
  .next (h.runNow (fun _ _ _ h => h.onSlot _ _) _)

theorem answers_eos (ring : Nat) : Answers (execEos c ring s) := by
  refine .next (h.runStep (fun s r k h => ?_) _)
  refine .ite .error ?_
  split
  · exact .ok (h.raiseCause _ _ _ _)
  · exact .ok ((h.setCtx _ _).completeBlock _ _)

theorem answers_bari (pt exp : Nat) : Answers (execBari c pt exp s) :=
  .next (h.runNow (fun _ _ _ h => .ite .error (.ok (h.setPoint _ _))) _)

theorem answers_bara (pt pw off : Nat) : Answers (execBara c pt pw off s) :=
  .next (h.runStep (fun _ _ _ h => .ite .error (.ok ((h.setPoint _ _).updEntry _ _ _))) _)

theorem answers_barw (pt off : Nat) : Answers (execBarw c pt off s) := .next (h.runNow (fun _ _ _ h => .ite .error (.ok h)) _)

theorem answers_fence (scope : Nat) : Answers (execFence c scope s) := .next (h.runStep (fun _ _ _ h => .ok (h.updEntry _ _ _)) _)

theorem answers_post (op scope rb roff val : Nat) : Answers (execPost c op scope rb roff val s) := by
  refine .next (h.runStep (fun s r k h => ?_) _)
  refine .ite .error ?_
  split
  · exact .error
  · exact .ok (h.handOver _ _ _)

theorem answers_join (scope rb roff thr : Nat) : Answers (execJoin c scope rb roff thr s) := by
  refine .next (h.runNow (fun s r k h => ?_) _)
  refine .ite .error ?_
  split
  · exact .error
  · exact .ok ((h.acquire _ _ _ _).sampleAll _)

end

/-! ### Ranges of pages -/

theorem State.Inv.ask (h : s.Inv) {q : Requester} {va : Nat} {t : Tier} {u : State} (hu : s.ask q va t = some u) : u.Inv := by
  unfold State.ask at hu
  dsimp only at hu
  rw [Option.ite_none_left_eq_some] at hu
  cases hu.2
  exact { h with }

theorem State.Inv.backgroundRecord (h : s.Inv) (pasid va code die : Nat) (q : Option Requester) :
    (s.backgroundRecord pasid va code die q).Inv := by
  cases q with
  | none => exact h.emitRecord _ _ _
  | some w => exact h.emitRecord _ _ _

theorem State.Inv.refuseMove (h : s.Inv) (pasid va reason die : Nat) (q : Option Requester) : (s.refuseMove pasid va reason die q).Inv := by
  cases q with
  | none => exact h.backgroundRecord pasid va (reasonCode reason) die none
  | some w => exact .ite (h.withPerc _) (h.backgroundRecord _ _ _ _ _)

theorem State.Inv.abortMotion (h : s.Inv) (pasid va reason : Nat) : (s.abortMotion pasid va reason).Inv := by
  unfold State.abortMotion
  split
  · exact h
  · next m _ =>
    have hall {s : State} (h : s.Inv) : (m.by_.foldl (fun s q => s.refuseMove pasid va reason (homeDie m.srcTier m.src) (some q)) s).Inv :=
      .foldl (fun _ _ h => h.refuseMove _ _ _ _ _) _ h
    exact .ite ((h.withPerc _).log _) (.ite ((hall ((h.withPerc _).log _)).refuseMove _ _ _ _ _) (hall ((h.withPerc _).log _)))

theorem State.Inv.detach (h : s.Inv) (n : Nat) : (s.detach n).Inv := h.withPerc _

theorem State.Inv.flushWhere (h : s.Inv) (p : Requester → Bool) : (s.flushWhere p).Inv :=
  .foldl (fun _ _ h => h.backgroundRecord _ _ _ _ _) _ (h.withPerc _)

theorem State.Inv.flushNotes (h : s.Inv) (q : Requester) : (s.flushNotes q).Inv := h.flushWhere _

theorem State.Inv.flushTask (h : s.Inv) (n : Nat) : (s.flushTask n).Inv := h.flushWhere _

theorem State.Inv.setLeaf (h : s.Inv) (w : Walk) (e : Nat) : (s.setLeaf w e).Inv := h.writeBits _ _ _ _

/-- A page's step keeps the invariant whichever way it ends. -/
def PageOut.Keeps : PageOut → Prop
  | .next s => s.Inv
  | .wait s => s.Inv
  | .fault s _ => s.Inv

theorem PageOut.Keeps.ite {c : Prop} [Decidable c] {a b : PageOut} (ha : a.Keeps) (hb : b.Keeps) : PageOut.Keeps (if c then a else b) := by
  split
  · exact ha
  · exact hb

def PageStep.Keeps (p : PageStep) : Prop := ∀ s r k j, s.Inv → (p s r k j).Keeps

theorem State.Inv.runPage (h : s.Inv) {page : PageStep} (hp : page.Keeps) (r : EngRef) (k n : Nat) : (s.runPage r k n page).Inv := by
  unfold State.runPage
  split
  · exact h
  · next f _ =>
    have h1 := hp s r k f.ctr h
    split
    · next hs => rw [hs] at h1; exact State.Inv.updEntry h1 _ _ _
    · next hs => rw [hs] at h1; exact State.Inv.updEntry h1 _ _ _
    · next hs => rw [hs] at h1; exact ((State.Inv.updCtx h1 _ _).updEntry _ _ _).takeFault _ _ _ _

theorem State.Inv.runTier (h : s.Inv) {page : Nat → PageStep} (hp : ∀ va, (page va).Keeps) (i : Instr) (rb roff n extra : Nat) :
    (s.runTier i rb roff n extra page).Inv := by
  unfold State.runTier
  dsimp only
  split
  · exact .ite (h.runPage (hp _) _ _ _) h
  · exact h.runStep (fun _ _ _ h => .ite .error (.ite .error (.ok (h.runPage (hp _) _ _ _)))) _

theorem migrPage_keeps (t : Tier) (n va : Nat) : (migrPage t n va).Keeps := by
  intro s r k j h
  unfold migrPage
  dsimp only
  split
  · exact h
  · exact h
  · refine .ite h ?_
    split
    · next hu => exact h.ask hu
    · exact h

theorem State.Inv.askPage (h : s.Inv) (q : Requester) (t : Tier) (va j : Nat) : (s.askPage q t va j).Inv := by
  unfold State.askPage
  dsimp only
  split
  · exact h
  · exact .ite h (.getD h fun _ hu => h.ask hu)

theorem migrsPage_keeps (t : Tier) (n va : Nat) : (migrsPage t n va).Keeps := by
  intro s r k j h
  have hw (l : List Nat) : (l.foldl (fun u m => u.askPage (s.requester r k true) t va m) s).Inv :=
    .foldl (fun _ _ h => h.askPage _ _ _ _) l h
  unfold migrsPage
  dsimp only
  split
  · exact (h.withPerc _).flushNotes _
  · refine .ite (hw _) ?_
    split
    · exact h.flushNotes _
    · exact .ite h (.ite (h.flushNotes _) (hw _))

theorem mpinPage_keeps (n va : Nat) : (mpinPage n va).Keeps := by
  intro s r k j h
  unfold mpinPage
  dsimp only
  split
  · exact h
  · exact .ite h (.ite h (h.setLeaf _ _))

theorem leafPage_keeps (f : Nat → Nat) (n va : Nat) : (leafPage f n va).Keeps := by
  intro s r k j h
  unfold leafPage
  dsimp only
  split
  · exact h
  · exact h
  · exact .ite (h.setLeaf _ _) h

theorem mabrtPage_keeps (n va : Nat) : (mabrtPage n va).Keeps := by
  intro s r k j h
  unfold mabrtPage
  dsimp only
  refine .ite ?_ (.ite h h)
  split
  · exact State.Inv.ite (h.abortMotion _ _ _) h
  · exact h

theorem reportUnit_keeps (h : s.Inv) (r : EngRef) (k : Nat) (w : TileWrite) (hot : Nat) : (s.reportUnit r k w hot).Keeps := h.updEntry _ _ _

theorem mhotPage_keeps (clr off n va : Nat) : (mhotPage clr off n va).Keeps := by
  intro s r k j h
  unfold mhotPage
  dsimp only
  split
  · exact reportUnit_keeps h _ _ _ _
  · exact h
  · exact .ite (reportUnit_keeps (h.withPerc _) _ _ _ _) (reportUnit_keeps h _ _ _ _)

theorem mqryPage_keeps (off n va : Nat) : (mqryPage off n va).Keeps := by
  intro s r k j h
  unfold mqryPage
  dsimp only
  split
  · exact reportUnit_keeps h _ _ _ _
  · exact h
  · exact reportUnit_keeps h _ _ _ _

end Sys2Proof.Machine
end

section
/-! PROOFS. Frames, launches, tasks and the front end keep the invariant. -/

namespace Sys2Proof.Machine

variable {s : State}

/-! ### Frames, completion objects and packets -/

theorem State.Inv.writeChunks (pasid base : Nat) : ∀ (l : List Chunk) {s : State}, s.Inv → OkInv (s.writeChunks pasid base l)
  | [], _, h => .ok h
  | (off, n, v) :: l, s, h => by
    unfold State.writeChunks
    split
    · next hs => exact State.Inv.writeChunks pasid base l (h.writeVa hs)
    · exact .error

theorem State.Inv.putObject (h : s.Inv) (pasid va v : Nat) : (s.putObject pasid va v).1.Inv := by
  unfold State.putObject
  split
  · next hs => exact h.writeVa hs
  · exact h.noteRecord _ _

theorem State.Inv.writeObject (h : s.Inv) (pasid va v : Nat) : (s.writeObject pasid va v).1.Inv := by
  unfold State.writeObject
  split
  · exact h
  · exact h.putObject _ _ _

theorem State.Inv.packetDone (h : s.Inv) (q idx : Nat) (c : Option Nat) (wrote : Bool) : (s.packetDone q idx c wrote).Inv :=
  .ite ((h.setQueue _ _).withMgmt _) (h.setQueue _ _)

/-! ### Launches and graphs -/

theorem State.Inv.newLaunch (h : s.Inv) {k : Nat} {l : Launch} {t : State} {id : Nat} (ht : s.newLaunch k l = some (t, id)) : t.Inv := by
  unfold State.newLaunch at ht
  split at ht
  · cases ht
  · cases ht
    exact h.setLaunch _ _

theorem State.Inv.failEntry (h : s.Inv) (i cause : Nat) : (s.failEntry i cause).Inv := h.setLaunch _ _

theorem State.Inv.closeEntry (h : s.Inv) (i : Nat) : (s.closeEntry i).Inv := by
  unfold State.closeEntry
  dsimp only
  split
  · exact ((h.writeObject _ _ _).setLaunch _ _).packetDone _ _ _ _
  · exact (h.writeObject _ _ _).setLaunch _ _

theorem State.Inv.graphDown (h : s.Inv) (g n : Nat) : (s.graphDown g n).Inv :=
  .ite h (.ite ((h.setLaunch _ _).closeEntry _) (h.setLaunch _ _))

theorem State.Inv.closeLaunch (h : s.Inv) (i : Nat) : (s.closeLaunch i).Inv := by
  unfold State.closeLaunch
  dsimp only
  split
  · exact h.closeEntry _
  · exact (State.Inv.ite ((h.closeEntry _).failEntry _ _) (h.closeEntry _)).graphDown _ _

theorem State.Inv.launchDown (h : s.Inv) (id : Nat) : (s.launchDown id).Inv := by
  unfold State.launchDown
  split
  · exact h
  · exact .ite ((h.setLaunch _ _).closeLaunch _) (h.setLaunch _ _)

theorem State.Inv.launchUp (h : s.Inv) (id : Nat) : (s.launchUp id).Inv := by
  unfold State.launchUp
  split
  · exact h
  · exact h.setLaunch _ _

theorem State.Inv.launchFail (h : s.Inv) (id cause : Nat) : (s.launchFail id cause).Inv := by
  unfold State.launchFail
  split
  · exact h
  · exact (h.failEntry _ _).launchDown _

/-! ### Posting, successors -/

theorem State.Inv.markRefused (h : s.Inv) (pasid va : Nat) : (s.markRefused pasid va).Inv := by
  unfold State.markRefused
  split
  · exact .getD h fun _ hs => h.writeVa hs
  · exact h

theorem State.Inv.withNextTask (h : s.Inv) (n : Nat) : State.Inv { s with nextTask := n } := { h with }

theorem State.Inv.post (h : s.Inv) (cluster : Option Nat) (pasid va : Nat) (mayPriv inherit : Bool) :
    (s.post cluster pasid va mayPriv inherit).1.Inv := by
  unfold State.post
  split
  · exact h
  · split
    · exact h
    · split
      · exact h
      · split
        · exact h
        · dsimp only
          split
          · exact h.markRefused _ _
          · exact ((h.withNextTask _).setTask _ _).setTaskState _ _

theorem State.Inv.completionRecord (h : s.Inv) (t : Task) (tile slot : Nat) (c : Cause) (remain fva : Nat) :
    (s.completionRecord t tile slot c remain fva).Inv := h.emitRecord _ _ _

theorem State.Inv.decrement (h : s.Inv) (t : Task) (tile slot pos va : Nat) : (s.decrement t tile slot pos va).Inv := by
  unfold State.decrement
  split
  · exact h.completionRecord _ _ _ _ _ _
  · dsimp only
    split
    · exact h.completionRecord _ _ _ _ _ _
    · split
      · exact h.completionRecord _ _ _ _ _ _
      · next hs =>
        have h1 := h.writeVa hs
        split
        · exact h1
        · exact .ite ((h1.updTask _ _).setTaskState _ _) (h1.updTask _ _)

theorem State.Inv.serveSuccessors (h : s.Inv) (t : Task) (tile slot : Nat) : (s.serveSuccessors t tile slot).Inv := by
  unfold State.serveSuccessors
  split
  · exact h
  · split
    · exact h.completionRecord _ _ _ _ _ _
    · exact .foldl (fun _ _ h => h.decrement _ _ _ _ _) _ h

/-! ### Saving a slot -/

theorem State.Inv.releaseSlot (h : s.Inv) (tile slot : Nat) : (s.releaseSlot tile slot).Inv := h.updSlot _ _ _

theorem State.Inv.completeDone (r : EngRef) : ∀ (n : Nat) {s : State}, s.Inv → (s.completeDone r n).Inv
  | 0, _, h => h
  | n + 1, s, h => by
    unfold State.completeDone
    split
    · exact h
    · exact State.Inv.completeDone r n (h.completeBlock _ _)

theorem State.Inv.flushEntry (h : s.Inv) (r : EngRef) (k : Nat) : (s.flushEntry r k).Inv := by
  unfold State.flushEntry
  split
  · exact h
  · next f _ =>
    have h2 := State.Inv.performAll f.homes h
    dsimp only
    split
    · exact (h2.updCtx _ _).updEntry _ _ _
    · exact ((h2.updCtx _ _).updEntry _ _ _).takeFault _ _ _ _ _

theorem State.Inv.quiesce (h : s.Inv) (tile slot : Nat) : (s.quiesce tile slot).Inv :=
  .foldl (fun _ _ h => .foldl (fun _ _ h => h.flushEntry _ _) _ (h.completeDone _ _)) _ h

theorem State.Inv.saveFault (h : s.Inv) (tile slot : Nat) (c : Cause) (va acc : Nat) : (s.saveFault tile slot c va acc).Inv :=
  (h.updSlot _ _ _).schedulerFault _ _ _ _ _

/-- The definition as a function. The kernel compares the two sides as they stand, where after `unfold` it would run the
reads and writes of a frame whose address it cannot know. -/
theorem State.saveTask_unfold : @State.saveTask = delta% @State.saveTask := rfl

/-- Likewise, of a restore. -/
theorem State.restoreTask_unfold : @State.restoreTask = delta% @State.restoreTask := rfl

theorem State.Inv.saveTask (h : s.Inv) (tile slot : Nat) (st : TState) : (s.saveTask tile slot st).Inv := by
  obtain ⟨write, hw⟩ : ∃ f, f = @State.writeChunks := ⟨_, rfl⟩
  rw [State.saveTask_unfold, ← hw]
  dsimp only
  split
  · exact h
  · next n _ =>
    split
    · exact h
    · have h1 := h.quiesce tile slot
      split
      · exact h1
      · have hz := h1.delivers ((s.quiesce tile slot).slotAt tile slot).ctx [] (engRef tile slot .lde)
          (savedReads ((s.quiesce tile slot).task n) ((s.quiesce tile slot).slotAt tile slot).ctx)
        split
        · next hd =>
          rw [hd] at hz
          exact hz.saveFault _ _ _ _ _
        · next hd =>
          rw [hd] at hz
          split
          · exact hz.saveFault _ _ _ _ _
          · next hs =>
            have h3 := State.Inv.writeChunks _ _ _ hz _ (hw ▸ hs)
            exact ((((h3.updTask _ _).releaseSlot _ _).detach _).flushTask _).setTaskState _ _

/-! ### Dispatch and restore -/

theorem State.Inv.occupy (h : s.Inv) (n tile slot : Nat) (c : Ctx) : (s.occupy n tile slot c).Inv := by
  unfold State.occupy
  exact (h.updSlot _ _ _).updTask _ _

theorem State.Inv.prepFault (h : s.Inv) (n tile slot : Nat) (e : PrepFault) : (s.prepFault n tile slot e).Inv :=
  have h2 := (h.occupy n tile slot {}).emitRecord (dieOf tile) (clusterOf tile) _
  .ite ((h2.releaseSlot _ _).setTaskState _ _) (((h2.setTaskState _ _).updSlot _ _ _).raiseHalt _ _ _)

theorem State.Inv.restoreTask (h : s.Inv) (n tile slot : Nat) : (s.restoreTask n tile slot).Inv := by
  obtain ⟨units, hu⟩ : ∃ f, f = @State.frameUnits := ⟨_, rfl⟩
  rw [State.restoreTask_unfold, ← hu]
  dsimp only
  split
  · exact h.prepFault _ _ _ _
  · exact ((h.occupy _ _ _ _).updTask _ _).setTaskState _ _

theorem State.Inv.stopForStep (h : s.Inv) (tile slot : Nat) : (s.stopForStep tile slot).Inv :=
  .foldl (fun _ _ h => .ite (h.stopEngine _ _ _ _ _ _ _ _) h) _ h

theorem State.Inv.firstDispatch (h : s.Inv) (n tile slot : Nat) : (s.firstDispatch n tile slot).Inv := by
  unfold State.firstDispatch
  split
  · exact h.prepFault _ _ _ _
  · exact (((h.occupy _ _ _ _).updTask _ _).setTaskState _ _).stopForStep _ _

theorem State.Inv.placeTask (h : s.Inv) (n tile slot : Nat) : (s.placeTask n tile slot).Inv :=
  .ite (h.restoreTask _ _ _) (h.firstDispatch _ _ _)

/-! ### Cancelling and completion -/

theorem State.Inv.dropHeld (h : s.Inv) (t : Task) : (s.dropHeld t).Inv := { h with dies := Map.rising_mapVals h.dies _ fun _ => rfl }

theorem State.Inv.dropPoints (h : s.Inv) (pasid : Nat) : (s.dropPoints pasid).Inv := by
  have hp := Map.rising_mapVals h.points (fun (k, p) => (k, if p.owner = some pasid then { p with owner := none } else p)) fun _ => rfl
  exact { h with points := Map.rising_filter hp _ }

theorem State.Inv.endJob (h : s.Inv) (pasid : Nat) : (s.endJob pasid).Inv := .ite h (h.dropPoints _)

theorem State.Inv.cancelTask (h : s.Inv) (n : Nat) : (s.cancelTask n).Inv := by
  have h1 := ((h.setTaskState n .cancelled).dropHeld (s.task n)).endJob (s.task n).pasid
  unfold State.cancelTask
  dsimp only
  split
  · exact (h1.flushTask _).updTask _ _
  · exact h1.updSlot _ _ _

theorem State.Inv.cancelWhere (h : s.Inv) (p : Task → Bool) : (s.cancelWhere p).Inv := .foldl (fun _ _ h => h.cancelTask _) _ h

theorem State.Inv.cancelLaunch (h : s.Inv) (i : Nat) : (s.cancelLaunch i).Inv := .ite h ((h.failEntry _ _).closeLaunch _)

theorem State.Inv.cancelJob (h : s.Inv) (pasid : Nat) : (s.cancelJob pasid).Inv :=
  State.Inv.setPasid (.foldl (fun _ _ h => h.cancelLaunch _) _ (h.cancelWhere _)) _ _

theorem State.Inv.finishTask (h : s.Inv) (n tile slot : Nat) : (s.finishTask n tile slot).Inv :=
  ((((h.releaseSlot _ _).setTaskState _ _).serveSuccessors _ _ _).launchDown _).endJob _

theorem State.Inv.raiseRefusal (h : s.Inv) (r : EngRef) (v : SpawnRefusal) : (s.raiseRefusal r v).Inv := (h.updChain _ _).takeFault _ _ _ _

/-! ### The front end -/

theorem State.Inv.rereadQueue (h : s.Inv) (q : Nat) : (s.rereadQueue q).Inv := h.setQueue _ _

theorem State.Inv.takeLine (h : s.Inv) (q : Nat) (dws : List Nat) : (s.takeLine q dws).Inv := .ite h ((h.setQueue _ _).rereadQueue _)

theorem State.Inv.rejectLine (h : s.Inv) (q : Nat) : (s.rejectLine q).Inv := .ite h (h.setQueue _ _)

theorem State.Inv.startPacket (h : s.Inv) (q : Nat) (dws : List Nat) (wait : Bool) : (s.startPacket q dws wait).Inv :=
  (h.setQueue _ _).writeObject _ _ _

theorem State.Inv.failPacket (h : s.Inv) (q idx cause : Nat) (dws : List Nat) : (s.failPacket q idx cause dws).Inv := by
  unfold State.failPacket
  by_cases hc : packetCobj dws % 8 = 0
  · rw [if_pos hc]
    exact (h.writeObject _ _ _).packetDone _ _ _ _
  · rw [if_neg hc]
    exact h.packetDone _ _ _ _

theorem State.Inv.endPacket (h : s.Inv) (q idx v : Nat) (dws : List Nat) : (s.endPacket q idx v dws).Inv :=
  (h.writeObject _ _ _).packetDone _ _ _ _

theorem State.Inv.withWalkers (h : s.Inv) (m : Map Nat) : State.Inv { s with walkers := m } := { h with }

theorem State.Inv.walkTo (h : s.Inv) {q i : Nat} {ty : List Nat → Bool} {t : State} {dws : List Nat} (ht : s.walkTo q ty = some (t, i, dws)) :
    t.Inv := by
  unfold State.walkTo at ht
  rw [Option.ite_none_left_eq_some] at ht
  obtain ⟨-, ht⟩ := ht
  split at ht
  · cases ht
  · rw [Option.ite_none_left_eq_some] at ht
    cases ht.2
    exact (h.withWalkers _).startPacket _ _ _

theorem answers_packetStep (h : s.Inv) {q : Nat} {ty : List Nat → Bool} {run : State → Nat → List Nat → State}
    (hrun : ∀ s i dws, s.Inv → (run s i dws).Inv) : Answers (packetStep q s ty run) := by
  refine .ite .fault ?_
  split
  · exact .next h
  · next hw => exact .next (.ite (hrun _ _ _ (h.walkTo hw)) ((h.walkTo hw).failPacket _ _ _ _))

theorem State.Inv.postFor (h : s.Inv) (pasid id va : Nat) : (s.postFor pasid id va).Inv := by
  unfold State.postFor
  dsimp only
  split
  · exact h.launchFail _ _
  · split
    · exact h.launchFail _ _
    · split
      · exact h.launchFail _ _
      · next hs =>
        have h2 := (h.writeVa hs).post none pasid va false false
        exact .ite h2 (h2.launchFail _ _)

theorem State.Inv.launchRecords (h : s.Inv) (k pasid cobj val graph : Nat) (queue : Option Nat) (idx : Nat) (l : List Nat) :
    (s.launchRecords k pasid cobj val graph queue idx l).1.Inv := by
  unfold State.launchRecords
  split
  · exact h
  · next hs => exact State.Inv.foldl (fun _ _ h => h.postFor _ _ _) _ (h.newLaunch hs)

theorem runLaunch_inv (q : Nat) (s : State) (i : Nat) (dws : List Nat) (h : s.Inv) : (runLaunch q s i dws).Inv := by
  unfold runLaunch
  dsimp only
  split
  · exact h.failPacket _ _ _ _
  · exact h.endPacket _ _ _ _
  · exact h.launchRecords _ _ _ _ _ _ _ _

theorem graphLaunch_inv (h : s.Inv) (pasid gid k : Nat) (dws : List Nat) : (graphLaunch pasid gid s k dws).Inv := by
  unfold graphLaunch
  split
  · exact h
  · dsimp only
    split
    · exact (h.writeObject _ _ _).graphDown _ _
    · exact h.writeObject _ _ _
  · exact h.launchRecords _ _ _ _ _ _ _ _

theorem runGraph_inv (q : Nat) (s : State) (i : Nat) (dws : List Nat) (h : s.Inv) : (runGraph q s i dws).Inv := by
  unfold runGraph
  dsimp only
  split
  · exact h.failPacket _ _ _ _
  · split
    · exact h
    · next hs => exact State.Inv.foldl (fun _ _ h => graphLaunch_inv h _ _ _ _) _ (h.newLaunch hs)

/-- A loop that may give up keeps the invariant where it does not. -/
theorem State.Inv.foldl_option {α : Type} {f : Option State → α → Option State} (hn : ∀ x, f none x = none)
    (hf : ∀ s x t, s.Inv → f (some s) x = some t → t.Inv) :
    ∀ (l : List α) {s t : State}, s.Inv → l.foldl f (some s) = some t → t.Inv
  | [], _, _, h, ht => Option.some.inj ht ▸ h
  | x :: l, s, t, h, ht => by
    rw [List.foldl_cons] at ht
    cases hs : f (some s) x with
    | none =>
      rw [hs, List.foldl_fixed' hn] at ht
      cases ht
    | some u => exact State.Inv.foldl_option hn hf l (hf s x u h hs) (hs ▸ ht)

theorem State.Inv.relocate (h : s.Inv) {pasid va : Nat} {args : List Nat} {t : State} (ht : s.relocate pasid args va = some t) : t.Inv := by
  unfold State.relocate at ht
  split at ht
  · cases ht
  · cases ht
    exact h
  · exact State.Inv.foldl_option (fun _ => rfl) (fun _ _ _ h hs => h.writeVa hs) _ h ht

theorem runModel_inv (q : Nat) (s : State) (i : Nat) (dws : List Nat) (h : s.Inv) : (runModel q s i dws).Inv := by
  unfold runModel
  dsimp only
  split
  · exact h.failPacket _ _ _ _
  · split
    · exact h.failPacket _ _ _ _
    · split
      · exact h.failPacket _ _ _ _
      · next hs =>
        have h1 := State.Inv.foldl_option (fun _ => rfl) (fun _ _ _ h hs => h.relocate hs) _ h hs
        exact .ite (h1.endPacket _ _ _ _) ((h1.launchRecords _ _ _ _ _ _ _ _).setModel _ _)

theorem runSignal_inv (q : Nat) (s : State) (i : Nat) (dws : List Nat) (h : s.Inv) : (runSignal q s i dws).Inv := by
  unfold runSignal
  dsimp only
  split
  · exact h.failPacket _ _ _ _
  · exact (h.putObject _ _ _).packetDone _ _ _ _

theorem runWait_inv (q : Nat) (s : State) (i : Nat) (dws : List Nat) (h : s.Inv) : (runWait q s i dws).Inv := by
  unfold runWait
  split
  · exact h.failPacket _ _ _ _
  · exact h

theorem answers_waitPacketComplete (h : s.Inv) (q : Nat) : Answers (execWaitPacketComplete q s) := by
  refine .ite .fault ?_
  split
  · exact .next h
  · split
    · exact .next h
    · exact .next (.ite (h.packetDone _ _ _ _) h)

end Sys2Proof.Machine
end

section
/-! PROOFS. The sequencer, completion, streams, schedulers and the Percolator keep the invariant. -/

namespace Sys2Proof.Machine

variable {s : State}

/-! ### Harts -/

theorem Hart.Legal.setReg {x : Hart} (h : x.Legal) (n v : Nat) : (x.setReg n v).Legal := by
  obtain ⟨hmode, hpc, hmt, hst, hr, hregs⟩ := h
  unfold Hart.setReg
  split
  · exact ⟨hmode, hpc, hmt, hst, hr, hregs⟩
  · next hn =>
    refine ⟨hmode, hpc, hmt, hst, Map.rising_set 0 hr _ _, fun k => ?_⟩
    rw [Map.get_set 0 hr]
    split
    · next hk => exact ⟨Nat.mod_lt _ (by norm_num), fun h0 => absurd (hk ▸ h0) hn⟩
    · exact hregs k

theorem Hart.Legal.withPc {x : Hart} (h : x.Legal) {p : Nat} (hp : p < 2 ^ 64) : Hart.Legal { x with pc := p } := by
  obtain ⟨hmode, -, hmt, hst, hr, hregs⟩ := h
  exact ⟨hmode, hp, hmt, hst, hr, hregs⟩

theorem Hart.Legal.trap {x : Hart} (h : x.Legal) (cause tval : Nat) : (x.trap cause tval).Legal := by
  obtain ⟨-, -, hmt, hst, hr, hregs⟩ := h
  unfold Hart.trap
  split
  · exact ⟨.inr (.inl rfl), (Nat.div_mul_le_self _ _).trans_lt hst, hmt, hst, hr, hregs⟩
  · exact ⟨.inr (.inr rfl), (Nat.div_mul_le_self _ _).trans_lt hmt, hmt, hst, hr, hregs⟩

theorem State.Inv.retireX (h : s.Inv) (rd v : Nat) : (s.retireX rd v).Inv :=
  h.setHart _ (((h.legal _).setReg _ _).withPc (Nat.mod_lt _ (by norm_num)))

theorem State.Inv.trapX (h : s.Inv) (w : Nat) : (s.trapX w).Inv := h.setHart _ ((h.legal _).trap _ _)

/-! ### The sequencer -/

theorem answers_blockFetch (h : s.Inv) (r : EngRef) : Answers (execBlockFetch r s) := by
  refine .ite .fault (.ite (.next h) ?_)
  split
  · exact .next h
  · exact .next (h.updChain _ _)

theorem answers_encodingFault (h : s.Inv) (r : EngRef) : Answers (execEncodingFault r s) := by
  refine .ite .fault ?_
  split
  · exact .next h
  · split
    · exact .next h
    · exact .ite (.next (h.issueStop _ _)) (.next h)

theorem State.Inv.grant (h : s.Inv) (r : EngRef) : (s.grant r).Inv := .foldl (fun _ _ h => h.updSlot _ _ _) _ (h.setTile _ _)

theorem answers_slotAged (h : s.Inv) (r : EngRef) : Answers (execSlotAged r s) := .ite .fault (.ite (.next (h.updSlot _ _ _)) (.next h))

/-- A turn, if there is one, is taken in a state that meets the invariant. -/
def TurnInv (o : Option (Instr × State)) : Prop := ∀ i t, o = some (i, t) → t.Inv

theorem TurnInv.none : TurnInv none := fun _ _ ht => absurd ht.symm (Option.some_ne_none _)
theorem TurnInv.some (h : s.Inv) {i : Instr} : TurnInv (some (i, s)) := fun _ _ ht => (Prod.mk.inj (Option.some.inj ht)).2 ▸ h
theorem TurnInv.ite {c : Prop} [Decidable c] {a b : Option (Instr × State)} (ha : TurnInv a) (hb : TurnInv b) :
    TurnInv (if c then a else b) := by
  split
  · exact ha
  · exact hb

theorem State.Inv.headTurn (h : s.Inv) (r : EngRef) : TurnInv (s.headTurn r) := by
  unfold State.headTurn
  dsimp only
  split
  · exact .some h
  · split
    · exact .some h
    · exact .ite (.some h) (.ite (.some h) (.ite (.some h) (.ite (.some h) (.ite (.some (h.grant r)) .none))))

theorem State.Inv.sequence (h : s.Inv) (r : EngRef) : TurnInv (s.sequence r) := by
  unfold State.sequence
  split
  · exact .some h
  · exact h.headTurn r

theorem State.Inv.watchHead (h : s.Inv) (r : EngRef) : (s.watchHead r).Inv := by
  unfold State.watchHead
  split
  · exact h
  · split
    · exact h
    · split
      · exact h
      · exact .ite h ((h.sampleAll _).updChain _ _)

/-! ### Completion of blocks -/

theorem State.Inv.homePart (h : s.Inv) (r : EngRef) (k : Nat) (f : InFlight) : (s.homePart r k f).Inv := by
  unfold State.homePart
  dsimp only
  split
  · exact ((State.Inv.performAll _ h).setEntry _ _ _).takeFault _ _ _ _ _
  · exact (State.Inv.performAll _ h).setEntry _ _ _

theorem answers_blockComplete (h : s.Inv) (r : EngRef) (k : Nat) : Answers (execBlockComplete r k s) := by
  refine .ite .fault ?_
  split
  · exact .next h
  · refine .ite (.next h) ?_
    split
    · exact .ite (.next (h.homePart _ _ _)) (.ite (.next h) (.next (h.completeBlock _ _)))
    · exact .ite (.next h) (.ite (.next (h.completeBlock _ _)) (.next (h.updEntry _ _ _)))
    · exact .next (.ite (h.homePart _ _ _) h)
    · exact .next h

/-! ### Forks -/

theorem State.Inv.deliverLines (h : s.Inv) (l : List Access) : (s.deliverLines l).Inv := by
  refine .foldl (fun t x h => ?_) _ h
  dsimp only
  split
  · exact h.takeLine _ _
  · exact .ite (h.rejectLine _) h

theorem State.Inv.forkFault (h : s.Inv) (f : Fork) (e : BlockFault) : (s.forkFault f e).Inv :=
  .ite (h.takeFault _ _ _ _ _) ((h.emitRecord _ _ _).raiseHalt _ _ _)

theorem State.Inv.performForked (h : s.Inv) (f : Fork) (a : Access) : (s.performForked f a).Inv := by
  refine .ite h (.ite (h.forkFault _ _) ?_)
  have ha := h.performAccess a
  split
  · next hp =>
    rw [hp] at ha
    exact ha
  · next hp =>
    rw [hp] at ha
    exact .ite ha (State.Inv.forkFault ha _ _)

theorem State.Inv.freeAccesses (h : s.Inv) (tile n : Nat) : (s.freeAccesses tile n).Inv := h.setTile _ _

theorem answers_forkJoin (h : s.Inv) (k : Nat) : Answers (execForkJoin k s) := by
  unfold execForkJoin
  split
  · exact .next h
  · split
    · exact .next h
    · exact .next (.deliverLines (.foldl (fun _ _ h => h.performForked _ _) _ ((h.withForks _).freeAccesses _ _)) _)

theorem State.Inv.updTaskCtx (h : s.Inv) (n : Nat) (f : Ctx → Ctx) : (s.updTaskCtx n f).Inv := by
  unfold State.updTaskCtx
  split
  · exact h.updSlot _ _ _
  · exact h.updTask _ _

theorem answers_spawnAccept (h : s.Inv) (k : Nat) : Answers (execSpawnAccept k s) := by
  unfold execSpawnAccept
  split
  · exact .next h
  · split
    · exact .next h
    · have h1 := (h.withForks (s.forks.eraseIdx k)).post
      dsimp only
      split
      · split
        · exact .next ((h1 _ _ _ _ _).launchUp _)
        · exact .next (h1 _ _ _ _ _)
      · exact .ite (.next h) (.next ((h1 _ _ _ _ _).updTaskCtx _ _))

theorem answers_spawnRefusalRaise (h : s.Inv) (r : EngRef) : Answers (execSpawnRefusalRaise r s) := by
  refine .ite .fault ?_
  split
  · exact .next h
  · exact .next (.ite (h.raiseRefusal _ _) h)

theorem answers_taskComplete (h : s.Inv) (n : Nat) : Answers (execTaskComplete n s) := by
  unfold execTaskComplete
  split
  · exact .next h
  · refine .ite (.next h) ?_
    split
    · exact .next (h.raiseRefusal _ _)
    · exact .next (h.finishTask _ _ _)

/-! ### Guards and rings -/

theorem answers_guardFaultRaise (h : s.Inv) (r : EngRef) : Answers (execGuardFaultRaise r s) := by
  refine .ite .fault ?_
  split
  · exact .ite (.next (h.takeFault _ _ _ _ _)) (.next h)
  · exact .next h

theorem answers_ringSlotTake (h : s.Inv) (r : EngRef) : Answers (execRingSlotTake r s) := by
  refine .ite .fault ?_
  dsimp only
  split
  · exact .next h
  · exact .ite (.next h) (.next (((h.updSlot _ _ _).updChain _ _).updEntry _ _ _))

theorem State.Inv.skipHead (h : s.Inv) (r : EngRef) (i : Instr) : (s.skipHead r i).Inv := h.updChain _ _

theorem answers_ringEndSkip (h : s.Inv) (r : EngRef) : Answers (execRingEndSkip r s) := by
  refine .ite .fault ?_
  dsimp only
  split
  · exact .ite (.next h) (.next ((h.updChain _ _).completeBlock _ _))
  · split
    · exact .next (.ite (h.skipHead _ _) h)
    · exact .next h

/-! ### Streams -/

theorem State.Inv.streamTook (h : s.Inv) (r : EngRef) (x : Stream) (sem : Nat) (c : Ctx) : (s.streamTook r x sem c).Inv := h.updSlot _ _ _

theorem State.Inv.updRing (h : s.Inv) (r : EngRef) (n : Nat) (f : Ring → Ring) : (s.updRing r n f).Inv := h.updCtx _ _

theorem State.Inv.streamFault (h : s.Inv) (r : EngRef) (x : Stream) (e : BlockFault) : (s.streamFault r x e).Inv :=
  .ite (.ite (((h.emitRecord _ _ _).updSlot _ _ _).setTaskState _ _) ((h.emitRecord _ _ _).updSlot _ _ _)) ((h.emitRecord _ _ _).raiseHalt _ _ _)

theorem State.Inv.delivered (h : s.Inv) (r : EngRef) (n : Nat) (x : Stream) (ws : List TileWrite) : (s.delivered r n x ws).Inv := by
  unfold State.delivered
  dsimp only
  split
  · exact h
  · split
    · exact (h.setCtx _ _).streamFault _ _ _
    · split
      · exact h.setCtx _ _
      · split
        · exact h.setCtx _ _
        · exact (h.setCtx _ _).streamFault _ _ _

theorem answers_subTileDelivery (h : s.Inv) (tile slot ring : Nat) : Answers (execSubTileDelivery tile slot ring s) := by
  refine .ite .fault ?_
  dsimp only
  split
  · exact .next h
  · split
    · refine .ite (.next h) ?_
      split
      · exact .next h
      · have h1 := h.streamTook (engRef tile slot .lde)
        split
        · exact .next (((h1 _ _ _).updRing _ _ _).streamFault _ _ _)
        · exact .next (((h1 _ _ _).sampleAll _).delivered _ _ _ _)
    · exact .next h

theorem State.Inv.holdPull (h : s.Inv) (r : EngRef) (ring : Nat) (x : Stream) (e : BlockFault) : (s.holdPull r ring x e).Inv :=
  (h.updRing _ _ _).streamFault _ _ _

theorem answers_pubSlotDrain (h : s.Inv) (tile slot ring : Nat) : Answers (execPubSlotDrain tile slot ring s) := by
  refine .ite .fault ?_
  dsimp only
  split
  · exact .next h
  · next g _ =>
    split
    · next x reg _ _ =>
      refine .ite (.next h) (.ite (.next (h.updRing _ _ _)) ?_)
      split
      · exact .next h
      · next c1 x1 k _ =>
        have hq := (h.streamTook (engRef tile slot .ste) x g.fsem c1).delivers c1 [] (engRef tile slot .ste)
          (slotReads g reg k ((tileCount x.body.d * memWidth x.handle.fmt + 7) / 8))
        split
        · next hp =>
          rw [hp] at hq
          exact .next (State.Inv.holdPull hq _ _ _ _)
        · next hp =>
          rw [hp] at hq
          split
          · exact .next (State.Inv.holdPull hq _ _ _ _)
          · have h2 := fun b n l => State.Inv.addFork hq (engRef tile slot .ste) b n l (some ring)
            split
            · exact .next ((h2 _ _ _).streamFault _ _ _)
            · exact .next (((h2 _ _ _).setCtx _ _).updRing _ _ _)
    · exact .next h

theorem State.Inv.withClusterTlb (h : s.Inv) (m : Map (List TlbEntry)) : State.Inv { s with clusterTlb := m } := { h with }
theorem State.Inv.withCarafeTlb (h : s.Inv) (m : Map (List TlbEntry)) : State.Inv { s with carafeTlb := m } := { h with }

theorem answers_pageWalk (h : s.Inv) (tile pasid va : Nat) : Answers (execPageWalk tile pasid va s) := by
  refine .ite .fault ?_
  split
  · exact .next h
  · exact .next (.ite (((h.setTile _ _).withClusterTlb _).withCarafeTlb _) ((h.setTile _ _).withClusterTlb _))

theorem answers_accessEntryFreed (h : s.Inv) (tile : Nat) : Answers (execAccessEntryFreed tile s) := by
  refine .ite .fault ?_
  split
  · exact .next h
  · split
    · exact .next h
    · split
      · exact .next ((h.withForks _).setTile _ _)
      · exact .next h

end Sys2Proof.Machine
end

section
/-! PROOFS. The schedulers' steps and the Percolator's keep the invariant. -/

namespace Sys2Proof.Machine

variable {s : State}

/-! ### Dispatch, save, park -/

theorem State.Inv.dispatchOf (h : s.Inv) (st : TState) : (s.dispatchOf st).Inv := by
  unfold State.dispatchOf
  split
  · exact .ite (h.placeTask _ _ _) h
  · exact h

theorem answers_contextSave (h : s.Inv) (tile slot : Nat) : Answers (execContextSave tile slot s) :=
  .ite .fault (.next (.ite (h.saveTask _ _ _) h))

theorem answers_taskPark (h : s.Inv) (tile slot : Nat) : Answers (execTaskPark tile slot s) :=
  .ite .fault (.next (.ite (h.saveTask _ _ _) h))

theorem answers_budgetExhausted (h : s.Inv) (tile slot : Nat) : Answers (execBudgetExhausted tile slot s) :=
  .ite .fault (.next (.ite (h.schedulerFault _ _ _ _ _) h))

theorem answers_watchdog (h : s.Inv) (tile slot : Nat) : Answers (execWatchdog tile slot s) :=
  .ite .fault (.next (.ite (h.schedulerFault _ _ _ _ _) h))

/-! ### Halts and cancels -/

theorem State.Inv.haltTask (h : s.Inv) (n : Nat) : (s.haltTask n).Inv := by
  unfold State.haltTask
  dsimp only
  split
  · exact (h.setTaskState _ _).flushTask _
  · exact (h.setTaskState _ _).updSlot _ _ _

theorem answers_haltLine (h : s.Inv) (pasid : Nat) : Answers (execHaltLine pasid s) :=
  .next (.ite (.foldl (fun _ _ h => h.haltTask _) _ (h.setPasid _ _)) h)

theorem State.Inv.partWrites (h : s.Inv) (r : EngRef) : (s.partWrites r).Inv := by
  refine .foldl (fun t j h => ?_) _ h
  dsimp only
  split
  · exact h
  · exact (State.Inv.performAll _ h).updCtx _ _

theorem State.Inv.finishBlocks (r : EngRef) : ∀ (n : Nat) {s : State}, s.Inv → (s.finishBlocks r n).Inv
  | 0, _, h => h
  | n + 1, s, h => by
    unfold State.finishBlocks
    split
    · exact h
    · exact State.Inv.finishBlocks r n (h.completeBlock _ _)

theorem State.Inv.dropWaiting (h : s.Inv) (r : EngRef) : (s.dropWaiting r).Inv := h.withForks _

theorem answers_engineStop (h : s.Inv) (r : EngRef) : Answers (execEngineStop r s) := by
  refine .ite .fault ?_
  dsimp only
  split
  · exact .next h
  · have h0 := State.Inv.finishBlocks r (s.chain r).inflight.length h
    refine .ite (.next h) (.ite (.next h) (.next (.flushWhere (.updChain (.dropWaiting (.partWrites ?_ _) _) _ _) _)))
    exact .ite h0 (h0.stopEngine _ _ _ _ _ _ _ _)

theorem answers_slotRelease (h : s.Inv) (tile slot : Nat) : Answers (execSlotRelease tile slot s) :=
  .ite .fault (.next (.ite (h.releaseSlot _ _) h))

theorem State.Inv.unhold (h : s.Inv) (f : FaultRec) : (s.unhold f).Inv := by
  unfold State.unhold
  split
  · exact h
  · dsimp only
    split
    · exact .ite (h.updSlot _ _ _) h
    · exact h

theorem answers_heldRecordWrite (h : s.Inv) (die : Nat) : Answers (execHeldRecordWrite die s) := by
  refine .ite .fault (.ite (.next h) ?_)
  dsimp only
  split
  · exact .next h
  · exact .next (((h.setDie _ _).placeRecord _ _ _).unhold _)

/-! ### The Percolator's own requests -/

theorem answers_hotnessDecay (h : s.Inv) : Answers (execHotnessDecay s) := .ite (.next h) (.next (h.updPerc _))

theorem State.Inv.freeFrame (h : s.Inv) (t : Tier) (a : Nat) : (s.freeFrame t a).Inv := h.updPerc _

theorem State.Inv.askOwn (h : s.Inv) (pasid va : Nat) (w : Walk) (t : Tier) : (s.askOwn pasid va w t).Inv := .ite h (h.updPerc _)

theorem answers_promotion (h : s.Inv) (pasid va : Nat) : Answers (execPromotion pasid va s) := by
  unfold execPromotion
  split
  · exact .next h
  · exact .ite (.next (h.askOwn _ _ _ _)) (.next h)

theorem answers_demotion (h : s.Inv) (pasid va : Nat) : Answers (execDemotion pasid va s) := by
  unfold execDemotion
  split
  · exact .next h
  · exact .ite (.next (h.askOwn _ _ _ _)) (.next h)

/-! ### Migrations -/

theorem answers_migrationAccept (h : s.Inv) (idx : Nat) : Answers (execMigrationAccept idx s) := by
  unfold execMigrationAccept
  split
  · exact .next h
  · dsimp only
    split
    · exact .next h
    · exact .next (h.updPerc _)
    · exact .next ((h.updPerc _).updPerc _)
    · exact .next ((h.updPerc _).refuseMove _ _ _ _ _)
    · exact .next (((h.updPerc _).updPerc _).setLeaf _ _)

theorem State.Inv.setMotion (h : s.Inv) (k : Nat) (m : Motion) : (s.setMotion k m).Inv := h.updPerc _

theorem State.Inv.copyChunk (h : s.Inv) (m : Motion) (c : Nat) : (s.copyChunk m c).Inv := by
  unfold State.copyChunk
  exact State.Inv.cleanSectors (h.setTierMem _ (Memory.wf_putNat chunkBytes _ _ (h.tierMem _))) _ _ _

theorem answers_chunkCopy (h : s.Inv) (idx : Nat) : Answers (execChunkCopy idx s) := by
  unfold execChunkCopy
  split
  · exact .next h
  · split
    · exact .ite (.next (h.abortMotion _ _ _)) (.next ((h.copyChunk _ _).setMotion _ _))
    · exact .next h

theorem State.Inv.putLeaf (h : s.Inv) (m : Motion) (e : Nat) : (s.putLeaf m e).Inv := h.writeBits _ _ _ _

theorem State.Inv.leafFault (h : s.Inv) (m : Motion) : (s.leafFault m).Inv := (h.emitRecord _ _ _).raiseHalt _ _ _

theorem State.Inv.clearMot (h : s.Inv) (m : Motion) : (s.clearMot m).Inv := .ite (h.leafFault _) (h.putLeaf _ _)

theorem answers_commit (h : s.Inv) (idx : Nat) : Answers (execCommit idx s) := by
  unfold execCommit
  split
  · exact .next h
  · exact .ite (.next h) (.ite (.next ((h.leafFault _).abortMotion _ _ _)) (.ite (.next (h.abortMotion _ _ _))
      (.next (((h.setMotion _ _).putLeaf _ _).log _))))

theorem State.Inv.shoot (h : s.Inv) (f : List TlbEntry → List TlbEntry) : (s.shoot f).Inv :=
  { h with tiles := Map.rising_filter (Map.rising_mapVals h.tiles _ fun _ => by rfl) _ }

theorem State.Inv.passAccesses (h : s.Inv) (m : Motion) : (s.passAccesses m).Inv := { h with slots := Map.rising_mapVals h.slots _ fun _ => rfl }

theorem answers_migrationRelease (h : s.Inv) (idx : Nat) : Answers (execMigrationRelease idx s) := by
  unfold execMigrationRelease
  split
  · exact .next h
  · exact .ite (.next h) (.next (((((h.clearMot _).shoot _).passAccesses _).updPerc _).freeFrame _ _))

theorem answers_migrationAbort (h : s.Inv) (idx reason : Nat) : Answers (execMigrationAbort idx reason s) := by
  unfold execMigrationAbort
  split
  · exact .next h
  · exact .next (.ite (h.abortMotion _ _ _) h)

theorem answers_abortComplete (h : s.Inv) (idx : Nat) : Answers (execAbortComplete idx s) := by
  unfold execAbortComplete
  split
  · exact .next h
  · exact .ite (.next h) (.next (((h.clearMot _).updPerc _).freeFrame _ _))

end Sys2Proof.Machine
end

section
/-! PROOFS. The X-forms keep the invariant. -/

namespace Sys2Proof.Machine

variable {s : State}

/-! ### What an X-form does -/

/-- What an X-form leaves, where it does not fail, meets the invariant. -/
def XKeeps (o : XOut) : Prop := ∀ t v, o = .ok (t, v) → t.Inv

theorem XKeeps.error {c : Nat} : XKeeps (.error c) := fun _ _ ht => by injection ht
theorem XKeeps.ok (h : s.Inv) {v : Nat} : XKeeps (.ok (s, v)) := fun _ _ ht => (Prod.mk.inj (Except.ok.inj ht)).1 ▸ h
theorem XKeeps.ite {c : Prop} [Decidable c] {a b : XOut} (ha : XKeeps a) (hb : XKeeps b) : XKeeps (if c then a else b) := by
  split
  · exact ha
  · exact hb
theorem XKeeps.map {α : Type} {e : Except Nat α} {f : α → State × Nat} (hf : ∀ a, (f a).1.Inv) : XKeeps (e.map f) := by
  cases e with
  | error c => exact .error
  | ok a => exact .ok (hf a)

theorem State.Inv.xrun (h : s.Inv) {i : Instr} {rd : Nat} {o : XOut} (ho : XKeeps o) : Answers (s.xrun i rd o) := by
  refine .ite (.next (h.trapX _)) ?_
  split
  · exact .next (h.retireX _ _)
  · exact .next ((ho _ _ rfl).retireX _ _)

theorem State.Inv.xrunTo (h : s.Inv) {i : Instr} {rd a : Nat} {o : XOut} (ho : XKeeps o) : Answers (s.xrunTo i rd a o) := by
  unfold State.xrunTo
  dsimp only
  split
  · exact h.xrun ho
  · exact .ite (.next (h.setHart _ ((h.legal _).trap _ _))) (h.xrun ho)

/-! ### Launches, graphs and jobs -/

theorem answers_lnnew (h : s.Inv) (rd rs1 : Nat) : Answers (execLnnew rd rs1 s) := by
  refine h.xrun ?_
  unfold State.lnnew
  dsimp only
  refine .ite .error (.ite .error (.ite .error (.ite .error (.ite .error ?_))))
  split
  · exact .error
  · next hn =>
    split
    · exact .ok ((h.newLaunch hn).setLaunch _ _)
    · exact .ok (h.newLaunch hn)

theorem answers_lncnt (h : s.Inv) (rd rs1 : Nat) : Answers (execLncnt rd rs1 s) := h.xrun (.map fun _ => h)

theorem answers_grcnt (h : s.Inv) (rd rs1 : Nat) : Answers (execGrcnt rd rs1 s) := h.xrun (.map fun _ => h)

theorem State.Inv.cancelLaunchTasks (h : s.Inv) (i : Nat) : (s.cancelLaunchTasks i).Inv := (h.cancelWhere _).cancelLaunch _

theorem answers_lncncl (h : s.Inv) (rd rs1 : Nat) : Answers (execLncncl rd rs1 s) := by
  refine h.xrun ?_
  split
  · exact .error
  · exact .ite .error (.ok (h.cancelLaunchTasks _))

theorem State.Inv.cancelGraph (h : s.Inv) (g : Nat) : (s.cancelGraph g).Inv := .foldl (fun _ _ h => h.cancelLaunchTasks _) _ h

theorem answers_grcncl (h : s.Inv) (rd rs1 : Nat) : Answers (execGrcncl rd rs1 s) := by
  refine h.xrun ?_
  split
  · exact .error
  · exact .ite .error (.ok (h.cancelGraph _))

theorem answers_jbcnt (h : s.Inv) (rd rs1 : Nat) : Answers (execJbcnt rd rs1 s) := h.xrun (.map fun _ => h)

theorem answers_jbcncl (h : s.Inv) (rd rs1 : Nat) : Answers (execJbcncl rd rs1 s) := h.xrun (.map fun _ => h.cancelJob _)

/-! ### Semaphores and rendezvous points -/

theorem answers_semrd (h : s.Inv) (rd rs1 : Nat) : Answers (execSemrd rd rs1 s) := by
  refine h.xrun ?_
  split
  · exact .error
  · exact .map fun _ => h

theorem State.Inv.semSet (h : s.Inv) (x : Selector) (v : Nat) : (s.semSet x v).Inv := by
  unfold State.semSet
  split
  · exact h
  · exact h.updSlot _ _ _
  · exact (h.setTask _ _).getD fun _ ht => (h.setTask _ _).writeVa ht

theorem answers_semwr (h : s.Inv) (rd rs1 rs2 : Nat) : Answers (execSemwr rd rs1 rs2 s) := by
  refine h.xrun ?_
  split
  · exact .error
  · split
    · exact .error
    · exact .ite .error (.ok (h.semSet _ _))

theorem answers_semsig (h : s.Inv) (rd rs1 rs2 : Nat) : Answers (execSemsig rd rs1 rs2 s) := by
  refine .ite (.next h) (h.xrun ?_)
  split
  · exact .error
  · split
    · exact .error
    · exact .error
    · exact .error
    · next hs => exact .ok (h.signalSlot hs _ rfl)

theorem answers_barini (h : s.Inv) (rd rs1 rs2 : Nat) : Answers (execBarini rd rs1 rs2 s) := h.xrun (.map fun _ => h.setPoint _ _)

theorem answers_bararv (h : s.Inv) (rd rs1 : Nat) : Answers (execBararv rd rs1 s) := by
  refine h.xrun ?_
  split
  · exact .error
  · exact .ite (.ok (h.setPoint _ _)) .error

theorem State.Inv.barwt (h : s.Inv) {x v : Nat} {o : XOut} (ho : s.barwt x v = some o) : XKeeps o := by
  unfold State.barwt at ho
  split at ho
  · exact Option.some.inj ho ▸ .error
  · split at ho
    · exact Option.some.inj ho ▸ .error
    · split at ho
      · exact Option.some.inj ho ▸ .ok h
      · cases ho

theorem answers_barwt (h : s.Inv) (rd rs1 rs2 : Nat) : Answers (execBarwt rd rs1 rs2 s) := by
  unfold execBarwt
  split
  · next ho => exact h.xrun (h.barwt ho)
  · exact .ite (.next (h.trapX _)) (.next h)

/-! ### Faults, translation, discovery -/

theorem State.Inv.supWrite (h : s.Inv) (a : Nat) (dws : List Nat) : (s.supWrite a dws).Inv :=
  have hw : ∀ (l : List (Nat × Nat)) (m : Memory), m.wf = true → (l.foldl (fun m (k, v) => Memory.putNat m (a + 8 * k) 8 v) m).wf = true :=
    fun l => l.recOn (fun _ hm => hm) fun _ _ ih _ hm => ih _ (Memory.wf_putNat 8 _ _ hm)
  { h with supmem := hw _ _ h.supmem }

theorem State.Inv.freePlace (h : s.Inv) (die place : Nat) : (s.freePlace die place).Inv := h.setDie _ _

theorem answers_fqpop (h : s.Inv) (rd rs1 : Nat) : Answers (execFqpop rd rs1 s) := by
  refine h.xrunTo (.ite .error ?_)
  split
  · exact .error
  · exact .ok (((h.supWrite _ _).withFaultQueues _ _).freePlace _ _)

theorem answers_fbrd (h : s.Inv) (rd rs1 : Nat) : Answers (execFbrd rd rs1 s) := h.xrun (.ite .error (.ok h))

theorem answers_stoprd (h : s.Inv) (rd rs1 rs2 : Nat) : Answers (execStoprd rd rs1 rs2 s) := by
  refine h.xrunTo ?_
  split
  · exact .error
  · refine .ite .error ?_
    split
    · exact .error
    · exact .ite (.ok (h.supWrite _ _)) .error

theorem answers_tlbinv (h : s.Inv) (rd rs1 rs2 : Nat) : Answers (execTlbinv rd rs1 rs2 s) := by
  refine h.xrun ?_
  split
  · exact .error
  · exact .ite .error (.ok (h.shoot _))

theorem State.Inv.withTiles (h : s.Inv) {m : Map Tile} (hm : m.rising) : State.Inv { s with tiles := m } := { h with tiles := hm }

theorem State.Inv.handleInvalidate (h : s.Inv) (pasid index : Nat) (all : Bool) : (s.handleInvalidate pasid index all).Inv := by
  unfold State.handleInvalidate
  dsimp only
  have h1 := h.withTiles (Map.rising_filter (Map.rising_mapVals h.tiles (fun (k, t) =>
    (k, { t with handles := t.handles.filter fun x => !(x.pasid == pasid && (all || x.index == index)) })) fun _ => rfl) fun (_, t) => decide (t ≠ {}))
  split
  · split
    · exact h1.setPasid _ _
    · exact h1
  · exact h1

theorem answers_hinv (h : s.Inv) (rd rs1 rs2 : Nat) : Answers (execHinv rd rs1 rs2 s) :=
  h.xrun (.ite .error (.map fun _ => h.handleInvalidate _ _ _))

theorem answers_caprd (h : s.Inv) (rd rs1 : Nat) : Answers (execCaprd rd rs1 s) := h.xrun (.ite .error (.ok h))

theorem answers_cycrd (h : s.Inv) (rd : Nat) : Answers (execCycrd rd s) := h.xrun (.ok h)

theorem answers_thyrd (h : s.Inv) (rd rs1 rs2 : Nat) : Answers (execThyrd rd rs1 rs2 s) := by
  refine h.xrunTo (.ite .error ?_)
  split
  · exact .error
  · exact .ok (h.supWrite _ _)

theorem answers_pclcfg (h : s.Inv) (rd rs1 rs2 : Nat) : Answers (execPclcfg rd rs1 rs2 s) :=
  .ite (.next (h.trapX _)) (h.xrun (.ok (.ite h (h.updPerc _))))

/-! ### Tasks and contexts -/

theorem answers_tkpost (h : s.Inv) (rd rs1 rs2 : Nat) : Answers (execTkpost rd rs1 rs2 s) := by
  refine .ite (.next (h.trapX _)) ?_
  split
  · exact .next (h.retireX _ _)
  · exact .next ((h.post _ _ _ _ _).retireX _ _)

theorem answers_tkcncl (h : s.Inv) (rd rs1 rs2 : Nat) : Answers (execTkcncl rd rs1 rs2 s) := by
  refine h.xrun ?_
  split
  · exact .error
  · exact .ite .error (.ok ((h.cancelTask _).launchFail _ _))

theorem answers_tkstat (h : s.Inv) (rd rs1 rs2 : Nat) : Answers (execTkstat rd rs1 rs2 s) := h.xrun (.map fun _ => h)

theorem State.Inv.lateFault (h : s.Inv) (n : Nat) (f : LateFault) : (s.lateFault n f).Inv := (h.emitRecord _ _ _).raiseHalt _ _ _

theorem State.Inv.resumeTask (h : s.Inv) (n : Nat) (skip : Bool) : (s.resumeTask n skip).Inv := by
  unfold State.resumeTask
  dsimp only
  split
  · exact (h.updTask _ _).setTaskState _ _
  · exact .foldl (fun _ _ h => h.lateFault _ _) _ (((h.updTask _ _).updTask _ _).setTaskState _ _)

theorem answers_tkrsm (h : s.Inv) (rd rs1 rs2 : Nat) : Answers (execTkrsm rd rs1 rs2 s) := by
  refine h.xrun ?_
  split
  · exact .error
  · exact .ite .error (.ok (h.resumeTask _ _))

theorem answers_tkpark (h : s.Inv) (rd rs1 rs2 : Nat) : Answers (execTkpark rd rs1 rs2 s) := by
  refine .ite (.next h) (h.xrun ?_)
  split
  · exact .error
  · split
    · exact .ite .error (.ok (.ite (h.schedulerFault _ _ _ _ _) ((h.schedulerFault _ _ _ _ _).saveTask _ _ _)))
    · exact .ite (.ok (h.setTaskState _ _)) .error

theorem answers_ctxsv (h : s.Inv) (rd rs1 rs2 : Nat) : Answers (execCtxsv rd rs1 rs2 s) := by
  refine .ite (.next (h.trapX _)) ?_
  split
  · exact .next (h.retireX _ _)
  · split
    · exact .next (h.retireX _ _)
    · exact .ite (.next (h.retireX _ _)) (.ite (.next h) (.next ((h.saveTask _ _ _).retireX _ _)))

theorem answers_ctxrs (h : s.Inv) (rd rs1 rs2 : Nat) : Answers (execCtxrs rd rs1 rs2 s) := by
  refine h.xrun ?_
  split
  · exact .error
  · exact .ite .error (.ite .error (.ite .error (.ite .error (.ok (h.placeTask _ _ _)))))

/-! ### Control -/

theorem answers_stepctl (h : s.Inv) (rd rs1 rs2 : Nat) : Answers (execStepctl rd rs1 rs2 s) :=
  h.xrun (.map fun _ => by dsimp only; exact (h.updTaskCtx _ _).updTask _ _)

theorem answers_wdset (h : s.Inv) (rd rs1 rs2 : Nat) : Answers (execWdset rd rs1 rs2 s) := by
  refine h.xrun ?_
  split
  · exact .error
  · exact .ite .error (.ok (h.setSlot _ _ _))

theorem State.Inv.setBudget (h : s.Inv) (n units : Nat) : (s.setBudget n units).Inv := by
  have h1 := h.updTaskCtx n
  unfold State.setBudget
  dsimp only
  split
  · exact (h1 _).getD fun _ ht => (h1 _).writeVa ht
  · exact .ite ((h1 _).updTask _ _) (h1 _)

theorem answers_budset (h : s.Inv) (rd rs1 rs2 : Nat) : Answers (execBudset rd rs1 rs2 s) := h.xrun (.map fun _ => h.setBudget _ _)

end Sys2Proof.Machine
end

section
/-! PROOFS. The front end's events, the administrative queue, the module's events and its resets keep the invariant. -/

namespace Sys2Proof.Machine

variable {s : State}

/-! ### Events of the front end -/

theorem answers_ringSlotReread (h : s.Inv) (q : Nat) : Answers (execRingSlotReread q s) := .ite .fault (.next (.ite (h.rereadQueue _) h))

theorem answers_launchLine (h : s.Inv) (q : Nat) (dws : List Nat) : Answers (execLaunchLine q dws s) := .ite .fault (.next (h.takeLine _ _))

theorem answers_partialLaunchLine (h : s.Inv) (q : Nat) : Answers (execPartialLaunchLine q s) := .ite .fault (.next (h.rejectLine _))

theorem answers_launchPageOtherWrite (h : s.Inv) (q off : Nat) : Answers (execLaunchPageOtherWrite q off s) := .ite .fault (.next h)

/-! ### Commands of the administrative queue -/

theorem answers_adminStep (h : s.Inv) {ty : List Nat → Bool} {run : State → Nat → List Nat → State}
    {finish : State → Nat → List Nat → Option State} (hrun : ∀ s i dws, s.Inv → (run s i dws).Inv)
    (hfin : ∀ i dws t, finish s i dws = some t → t.Inv) : Answers (adminStep s ty run finish) := by
  unfold adminStep
  split
  · next hs =>
    obtain ⟨p, -, hp⟩ := List.exists_of_findSome?_eq_some hs
    exact .next (hfin _ _ _ hp)
  · exact answers_packetStep h hrun

/-- A command that ends as it starts. -/
theorem answers_command (h : s.Inv) {ty : List Nat → Bool} {run : State → Nat → List Nat → State} (hrun : ∀ s i dws, s.Inv → (run s i dws).Inv) :
    Answers (adminStep s ty run) :=
  answers_adminStep h hrun fun _ _ _ ht => absurd ht.symm (Option.some_ne_none _)

theorem State.Inv.adminDone (h : s.Inv) (i v : Nat) (dws : List Nat) : (s.adminDone i v dws).Inv := h.endPacket _ _ _ _

theorem State.Inv.adminFail (h : s.Inv) (i : Nat) (c : Cause) (dws : List Nat) : (s.adminFail i c dws).Inv := h.failPacket _ _ _ _

theorem State.Inv.adminBad (h : s.Inv) (i : Nat) (dws : List Nat) : (s.adminBad i dws).Inv := h.adminFail _ _ _

theorem runPasnew_inv (s : State) (i : Nat) (dws : List Nat) (h : s.Inv) : (runPasnew s i dws).Inv :=
  .ite (h.adminBad _ _) ((h.setPasid _ _).adminDone _ _ _)

theorem answers_pasnew (h : s.Inv) : Answers (execPasnew s) := by
  unfold execPasnew
  exact answers_command h runPasnew_inv

theorem runHset_inv (s : State) (i : Nat) (dws : List Nat) (h : s.Inv) : (runHset s i dws).Inv :=
  .ite (h.adminBad _ _) ((h.setPasid _ _).adminDone _ _ _)

/-! ### PASDEL -/

theorem State.Inv.endUnstarted (h : s.Inv) (q i : Nat) (dws : List Nat) : (s.endUnstarted q i dws).Inv := (h.setQueue _ _).failPacket _ _ _ _

theorem State.Inv.killQueue (h : s.Inv) (q : Nat) (ring : Bool) : (s.killQueue q ring).Inv := by
  have h0 : State.Inv (if ring then s.rereadQueue q else s) := .ite (h.rereadQueue _) h
  have h2 := fun x l => State.Inv.foldl (f := fun s (p : Nat × List Nat) => s.endUnstarted q p.1 p.2) (fun _ _ h => h.endUnstarted _ _ _) l (h0.setQueue q x)
  exact .ite ((h2 _ _).setQueue _ _) (.foldl (fun _ _ h => h.failPacket _ _ _ _) _ ((h2 _ _).setQueue _ _))

theorem State.Inv.endQueue (h : s.Inv) (p q : Nat) : (s.endQueue p q).Inv := (State.Inv.ite (h.killQueue _ _) h).noteRecord _ _

theorem State.Inv.dropRecords (h : s.Inv) (p : Nat) : (s.dropRecords p).Inv :=
  .foldl (fun _ _ h => h.freePlace _ _) _ { h with dies := Map.rising_mapVals h.dies _ fun _ => rfl }

theorem State.Inv.endMoves (h : s.Inv) (p : Nat) : (s.endMoves p).Inv := .foldl (fun _ _ h => h.abortMotion _ _ _) _ (h.updPerc _)

theorem State.Inv.dropForks (h : s.Inv) (p : Nat) : (s.dropForks p).Inv := h.withForks _

theorem State.Inv.recount (h : s.Inv) : s.recount.Inv :=
  h.withTiles (Map.rising_filter (Map.rising_mapVals h.tiles _ fun _ => by rfl) _)

theorem runPasdel_inv (s : State) (i : Nat) (dws : List Nat) (h : s.Inv) : (runPasdel s i dws).Inv :=
  .ite (h.adminBad _ _) (State.Inv.recount (((State.Inv.foldl (fun _ _ h => h.endQueue _ _) _ h).endMoves _).cancelJob _ |>.dropForks _))

theorem State.Inv.tlbInvalidate (h : s.Inv) (pasid va : Nat) (all : Bool) : (s.tlbInvalidate pasid va all).Inv := h.shoot _

theorem State.Inv.withGranules (h : s.Inv) (m n : Map Nat) : State.Inv { s with granules := m, granuleFrom := n } := { h with }

theorem State.Inv.releaseGranules (h : s.Inv) (p : Nat) : (s.releaseGranules p).Inv := h.withGranules _ _

theorem State.Inv.endPasid (h : s.Inv) (p : Nat) : (s.endPasid p).Inv :=
  (((((h.dropRecords _).dropPoints _).tlbInvalidate _ _ _).handleInvalidate _ _ _).releaseGranules _).setPasid _ _

theorem finishPasdel_inv (h : s.Inv) {i : Nat} {dws : List Nat} {t : State} (ht : finishPasdel s i dws = some t) : t.Inv := by
  unfold finishPasdel at ht
  dsimp only at ht
  split at ht
  · exact Option.some.inj ht ▸ h.cancelJob _
  · split at ht
    · exact Option.some.inj ht ▸ (h.endPasid _).adminDone _ _ _
    · cases ht

/-! ### Queues -/

theorem State.Inv.endSplice (h : s.Inv) (l : List Nat) : (s.endSplice l).Inv := by
  unfold State.endSplice
  split
  · exact h
  · exact h.setQueue _ _

theorem State.Inv.withRunLists (h : s.Inv) (m : Map (List Nat)) : State.Inv { s with runLists := m } := { h with }

theorem insertQueue_inv (s : State) (i : Nat) (dws : List Nat) (h : s.Inv) : (insertQueue s i dws).Inv := by
  unfold insertQueue
  split
  · exact h.adminBad _ _
  · exact .ite (h.adminBad _ _) ((((h.setQueue _ _).endSplice _).withRunLists _).adminDone _ _ _)

theorem runQnew_inv (s : State) (i : Nat) (dws : List Nat) (h : s.Inv) : (runQnew s i dws).Inv := .ite h (insertQueue_inv s i dws h)

theorem finishQnew_inv (h : s.Inv) {i : Nat} {dws : List Nat} {t : State} (ht : finishQnew s i dws = some t) : t.Inv := by
  unfold finishQnew at ht
  split at ht
  · cases ht
  · exact Option.some.inj ht ▸ insertQueue_inv s i dws h

theorem runQdel_inv (s : State) (i : Nat) (dws : List Nat) (h : s.Inv) : (runQdel s i dws).Inv :=
  .ite (h.adminBad _ _) (((((State.Inv.ite (h.killQueue _ _) h).setQueue _ _).endSplice _).withRunLists _).adminDone _ _ _)

/-! ### GRANT -/

theorem State.Inv.settleEntry (h : s.Inv) (r : EngRef) (k : Nat) : (s.settleEntry r k).Inv := by
  unfold State.settleEntry
  split
  · exact h
  · have h1 := fun l => State.Inv.performAll l h
    dsimp only
    split
    · exact (h1 _).updEntry _ _ _
    · exact ((h1 _).updEntry _ _ _).takeFault _ _ _ _ _

theorem State.Inv.settlePools (h : s.Inv) : s.settlePools.Inv :=
  .foldl (fun _ _ h => .foldl (fun _ _ h => .foldl (fun _ _ h => h.settleEntry _ _) _ h) _ h) _ h

theorem State.Inv.zeroGranule (h : s.Inv) (p : Place) (a : Nat) : (s.zeroGranule p a).Inv := by
  unfold State.zeroGranule
  dsimp only
  split
  · exact { h with clusterPool := Map.wf_filter 0 h.clusterPool _ }
  · exact { h with diePool := Map.wf_filter 0 h.diePool _ }
  · exact h.withPoison _

theorem State.Inv.grantOne (h : s.Inv) (p : Place) (a owner : Nat) : (s.grantOne p a owner).Inv :=
  (State.Inv.ite (h.zeroGranule _ _) h).withGranules _ _

theorem runGrant_inv (s : State) (i : Nat) (dws : List Nat) (h : s.Inv) : (runGrant s i dws).Inv := by
  unfold runGrant
  dsimp only
  split
  · exact h.adminBad _ _
  · exact .ite (h.adminBad _ _) ((State.Inv.foldl (fun _ _ h => h.grantOne _ _ _) _ h.settlePools).adminDone _ _ _)

/-! ### Model slots -/

theorem State.Inv.withLpddr (h : s.Inv) {m : Memory} (hm : m.wf = true) : State.Inv { s with lpddr := m } := { h with lpddr := hm }

theorem State.Inv.placeImage (h : s.Inv) (a : Nat) (img : List Nat) : (s.placeImage a img).Inv :=
  have hw : ∀ (l : List (Nat × Nat)) (m : Memory), m.wf = true → (l.foldl (fun m (k, v) => Memory.putNat m (a + 8 * k) 8 v) m).wf = true :=
    fun l => l.recOn (fun _ hm => hm) fun _ _ ih _ hm => ih _ (Memory.wf_putNat 8 _ _ hm)
  (h.withLpddr (hw _ _ h.lpddr)).cleanSectors _ _ _

theorem State.Inv.loadObject (h : s.Inv) {va slot version : Nat} {t : State} {l : List Nat} (ht : s.loadObject va slot version = some (t, l)) :
    t.Inv := by
  unfold State.loadObject at ht
  split at ht
  · rw [Option.ite_none_left_eq_some] at ht
    obtain ⟨-, ht⟩ := ht
    split at ht
    · cases ht
    · dsimp only at ht
      rw [Option.ite_none_left_eq_some] at ht
      obtain ⟨-, ht⟩ := ht
      split at ht
      · cases ht
      · obtain ⟨img, -, hi⟩ := Option.map_eq_some_iff.mp ht
        exact (Prod.mk.inj hi).1 ▸ h.placeImage _ _
  · cases ht

theorem runMload_inv (s : State) (i : Nat) (dws : List Nat) (h : s.Inv) : (runMload s i dws).Inv := by
  refine .ite (h.adminBad _ _) ?_
  split
  · exact h.adminBad _ _
  · next hl => exact .ite (h.adminFail _ _ _) (((h.loadObject hl).setModel _ _).adminDone _ _ _)

theorem finishMunld_inv (h : s.Inv) {i : Nat} {dws : List Nat} {t : State} (ht : finishMunld s i dws = some t) : t.Inv := by
  unfold finishMunld at ht
  split at ht
  · cases ht
  · exact Option.some.inj ht ▸ (h.setModel _ _).adminDone _ _ _

theorem runMunld_inv (s : State) (i : Nat) (dws : List Nat) (h : s.Inv) : (runMunld s i dws).Inv :=
  .ite (h.adminBad _ _) (.ite (h.adminFail _ _ _) (h.getD fun _ ht => finishMunld_inv h ht))

/-! ### Dump buffer, firmware, attestation -/

theorem runDumpreg_inv (s : State) (i : Nat) (dws : List Nat) (h : s.Inv) : (runDumpreg s i dws).Inv :=
  .ite (h.adminBad _ _) ((h.withMgmt _).adminDone _ _ _)

theorem runFwupd_inv (s : State) (i : Nat) (dws : List Nat) (h : s.Inv) : (runFwupd s i dws).Inv :=
  .ite (h.adminBad _ _) ((h.withMgmt _).adminDone _ _ _)

theorem State.Inv.writeDws : ∀ (l : List Nat) {s t : State} {pasid va : Nat}, s.Inv → s.writeDws pasid va l = some t → t.Inv
  | [], _, _, _, _, h, ht => Option.some.inj ht ▸ h
  | _ :: l, _, _, _, _, h, ht => by
    obtain ⟨u, hu, ht⟩ := Option.bind_eq_some_iff.mp ht
    exact State.Inv.writeDws l (h.writeVa hu) ht

theorem runAttest_inv (s : State) (i : Nat) (dws : List Nat) (h : s.Inv) : (runAttest s i dws).Inv := by
  unfold runAttest
  split
  · exact h.adminBad _ _
  · split
    · exact h.adminBad _ _
    · next hw => exact (h.writeDws _ hw).adminDone _ _ _

/-! ### Resets -/

/-- A table with one entry for each number below another, in order. -/
theorem Map.rising_upto {α : Type} (f : Nat → α) (n : Nat) : Map.rising ((upto n).map fun k => (k, f k)) := by
  have hr : ∀ m k, Map.risingFrom k ((List.range' k m).map fun j => (j, f j)) := by
    intro m
    induction m with
    | zero => exact fun _ => trivial
    | succ m ih => exact fun k => ⟨Nat.le_refl _, ih (k + 1)⟩
  rw [upto, List.range_eq_range']
  exact hr n 0

theorem State.rising_selfTest (s : State) {l : Map Tile} (hl : l.rising) : Map.rising (s.selfTest l) := by
  unfold State.selfTest
  split
  · generalize numTiles = n
    exact Map.rising_upto (fun k => { Map.get {} l k with hashed := true }) n
  · exact hl

theorem State.Inv.warm (h : s.Inv) : s.warm.Inv := by
  unfold State.warm
  refine State.Inv.log ?_ _
  exact { h with
    slots := resetInvariant.slots, tasks := resetInvariant.tasks, pasids := resetInvariant.pasids
    tiles := s.rising_selfTest (Map.rising_filter (Map.rising_mapVals h.tiles _ fun _ => by rfl) _)
    launches := resetInvariant.launches, points := resetInvariant.points, dies := resetInvariant.dies
    queues := ⟨Nat.zero_le _, trivial⟩, models := resetInvariant.models, harts := resetInvariant.harts
    legal := fun _ => Hart.legal_reset }

theorem State.Inv.cold (h : s.Inv) : s.cold.Inv :=
  { h with
    hbm := resetInvariant.hbm, lpddr := resetInvariant.lpddr, clusterPool := resetInvariant.clusterPool, diePool := resetInvariant.diePool
    slots := resetInvariant.slots, tasks := resetInvariant.tasks, pasids := resetInvariant.pasids
    tiles := s.rising_selfTest trivial
    launches := resetInvariant.launches, points := resetInvariant.points, dies := resetInvariant.dies
    queues := ⟨Nat.zero_le _, trivial⟩, models := resetInvariant.models, harts := resetInvariant.harts
    legal := fun _ => Hart.legal_reset, thyme := resetInvariant.thyme }

theorem State.Inv.cancelAll (h : s.Inv) : s.cancelAll.Inv := .foldl (fun _ _ h => h.cancelJob _) _ h

theorem finishWreset_inv (h : s.Inv) {i : Nat} {dws : List Nat} {t : State} (ht : finishWreset s i dws = some t) : t.Inv := by
  unfold finishWreset at ht
  split at ht
  · exact Option.some.inj ht ▸ h.cancelAll
  · split at ht
    · exact Option.some.inj ht ▸ (h.adminDone _ _ _).warm
    · cases ht

/-! ### Storage, ports, mailboxes -/

theorem State.Inv.updMgmt (h : s.Inv) (f : Management → Management) : (s.updMgmt f).Inv := h.withMgmt _

theorem State.Inv.poisonSector (h : s.Inv) (t : Tier) (k : Nat) : (s.poisonSector t k).Inv := by
  unfold State.poisonSector
  exact (((h.setPoison _ _ _).log _).logOut _ _ _ _).updMgmt _

theorem State.Inv.sectorFails (h : s.Inv) (t : Tier) (k : Nat) (lasting : Bool) : (s.sectorFails t k lasting).Inv :=
  .ite h (.ite (h.poisonSector _ _) (h.log _))

theorem State.Inv.meetSectors (h : s.Inv) : s.meetSectors.Inv := by
  refine .foldl (fun t e h => ?_) _ h
  cases e with
  | sector t k lasting => exact .ite (h.sectorFails _ _ _) h
  | _ => exact h

theorem State.Inv.scrubFinds (h : s.Inv) (t : Tier) (k : Nat) (c : Bool) : (s.scrubFinds t k c).Inv := .ite (h.updMgmt _) (h.sectorFails _ _ _)

theorem answers_scrub (h : s.Inv) (t : Tier) (k : Nat) (c : Bool) : Answers (execScrub t k c s) :=
  .ite .fault (.ite (.next h) (.next ((h.scrubFinds _ _ _).updMgmt _)))

theorem State.Inv.fabricFault (h : s.Inv) (n : Nat) (c : Cause) (va : Nat) : (s.fabricFault n c va).Inv := (h.emitRecord _ _ _).raiseHalt _ _ _

theorem answers_linkFailure (h : s.Inv) (pasid task : Nat) (noPath : Bool) (va : Nat) : Answers (execLinkFailure pasid task noPath va s) :=
  .ite (.next (h.fabricFault _ _ _)) (.next h)

theorem answers_peerWindowAccess (h : s.Inv) (t : Tier) (addr op width value : Nat) : Answers (execPeerWindowAccess t addr op width value s) := by
  refine .ite .fault (.ite (.next h) ?_)
  split
  · exact .next h
  · dsimp only
    exact .next (h.performAccess _)

theorem State.Inv.core3Acts (h : s.Inv) : s.core3Acts.Inv := .ite (h.updMgmt _) h

theorem State.Inv.testFirmware (h : s.Inv) : s.testFirmware.Inv := .ite (h.setTile _ _) h

theorem answers_mailboxMessage (h : s.Inv) (pair : Nat) (reply : Bool) : Answers (execMailboxMessage pair reply s) :=
  .ite .fault (.ite (.next h) (.next ((State.Inv.ite h.core3Acts h).testFirmware.updMgmt _)))

theorem answers_powerMeasurement (h : s.Inv) : Answers (execPowerMeasurement s) := .next (.ite h (h.updMgmt _))

/-! ### Fatal errors -/

theorem State.Inv.dumpAll (h : s.Inv) : s.dumpAll.Inv := by
  unfold State.dumpAll
  dsimp only
  split
  · exact (State.Inv.foldl (fun _ _ h => h.getD fun _ ht => h.writeVa ht) _ h).updMgmt _
  · exact (h.updMgmt _).updMgmt _

theorem State.Inv.fatal (h : s.Inv) (location kind : Nat) : (s.fatal location kind).Inv := by
  unfold State.fatal
  exact (State.Inv.foldl (fun _ _ h => h.raiseHalt _ _ _) _ (h.log _)).dumpAll.updMgmt _

end Sys2Proof.Machine
end

section
/-! PROOFS. Every instruction and every turn keeps the invariant (O60). -/

namespace Sys2Proof.Machine

variable {s : State}

/-- A block over its nest: those of streams by their own lemmas, the others as runs of their form. -/
theorem answers_lForm (h : s.Inv) {i : Instr} (hl : (lParts i).isSome = true) : Answers (exec i s) := by
  by_cases hs : ∀ b, i ≠ .sub b ∧ i ≠ .subc b ∧ i ≠ .pub b ∧ i ≠ .pubc b
  · obtain ⟨e, he, b, rfl⟩ := exists_nestForm hl hs
    rw [exec_nestForm e he b s]
    exact .next (h.runBlock _ _)
  · push Not at hs
    obtain ⟨b, hb⟩ := hs
    by_cases h1 : i = .sub b
    · exact h1 ▸ answers_sub h b
    · by_cases h2 : i = .subc b
      · exact h2 ▸ answers_subc h b
      · by_cases h3 : i = .pub b
        · exact h3 ▸ answers_pub h b
        · exact hb h1 h2 h3 ▸ answers_pubc h b

/-- The blocks of the S-form. -/
theorem answers_sForm (h : s.Inv) {i : Instr} (hs : (sParts i).isSome = true) : Answers (exec i s) := by
  cases i with
  | nop => exact answers_nop h _
  | endChain => exact answers_endChain h _
  | link => exact answers_link h _ _
  | brc => exact answers_brc h _ _ _ _ _
  | brcd => exact answers_brcd h _ _ _
  | patch => exact answers_patch h _ _ _ _
  | patchi => exact answers_patchi h _ _ _ _
  | patchv => exact answers_patchv h _ _ _ _ _
  | yieldSlot => exact answers_yieldSlot h _
  | spawn => exact answers_spawn h _ _ _ _
  | svc => exact answers_svc h _ _ _
  | trap => exact answers_trap h _ _ _
  | brkp => exact answers_brkp h _ _
  | flti => exact answers_flti h _ _ _
  | ldacq => exact answers_ldacq h _ _ _ _ _ _ _ _
  | strel => exact answers_strel h _ _ _ _ _ _ _ _
  | semi => exact answers_semi h _ _ _
  | semq => exact answers_semq h _ _ _
  | semw => exact answers_semw h _ _ _ _
  | sems => exact answers_sems h _ _ _ _ _ _
  | regd => exact answers_regd h _ _ _ _ _ _ _ _ _ _ _ _
  | ringd => exact answers_ringd h _ _ _ _ _ _ _ _
  | eos => exact answers_eos h _ _
  | bari => exact answers_bari h _ _ _
  | bara => exact answers_bara h _ _ _ _
  | barw => exact answers_barw h _ _ _
  | fence => exact answers_fence h _ _
  | post => exact answers_post h _ _ _ _ _ _
  | join => exact answers_join h _ _ _ _ _
  | migr => exact .next (h.runTier (migrPage_keeps _ _) _ _ _ _ _)
  | migrs => exact .next (h.runTier (migrsPage_keeps _ _) _ _ _ _ _)
  | mpin => exact .next (h.runTier (mpinPage_keeps _) _ _ _ _ _)
  | munpin => exact .next (h.runTier (leafPage_keeps _ _) _ _ _ _ _)
  | madv => exact .next (h.runTier (leafPage_keeps _ _) _ _ _ _ _)
  | mabrt => exact .next (h.runTier (mabrtPage_keeps _) _ _ _ _ _)
  | mhot => exact .next (h.runTier (mhotPage_keeps _ _ _) _ _ _ _ _)
  | mqry => exact .next (h.runTier (mqryPage_keeps _ _) _ _ _ _ _)
  | _ => exact absurd hs Bool.false_ne_true

/-- The instructions of the supervisors. -/
theorem answers_xForm (h : s.Inv) {i : Instr} (hx : (xParts i).isSome = true) : Answers (exec i s) := by
  cases i with
  | tkpost => exact answers_tkpost h _ _ _
  | tkcncl => exact answers_tkcncl h _ _ _
  | tkstat => exact answers_tkstat h _ _ _
  | tkrsm => exact answers_tkrsm h _ _ _
  | tkpark => exact answers_tkpark h _ _ _
  | lnnew => exact answers_lnnew h _ _
  | lncnt => exact answers_lncnt h _ _
  | lncncl => exact answers_lncncl h _ _
  | grcnt => exact answers_grcnt h _ _
  | grcncl => exact answers_grcncl h _ _
  | jbcnt => exact answers_jbcnt h _ _
  | jbcncl => exact answers_jbcncl h _ _
  | semrd => exact answers_semrd h _ _
  | semwr => exact answers_semwr h _ _ _
  | semsig => exact answers_semsig h _ _ _
  | barini => exact answers_barini h _ _ _
  | bararv => exact answers_bararv h _ _
  | barwt => exact answers_barwt h _ _ _
  | fqpop => exact answers_fqpop h _ _
  | fbrd => exact answers_fbrd h _ _
  | stoprd => exact answers_stoprd h _ _ _
  | ctxsv => exact answers_ctxsv h _ _ _
  | ctxrs => exact answers_ctxrs h _ _ _
  | tlbinv => exact answers_tlbinv h _ _ _
  | hinv => exact answers_hinv h _ _ _
  | stepctl => exact answers_stepctl h _ _ _
  | wdset => exact answers_wdset h _ _ _
  | budset => exact answers_budset h _ _ _
  | caprd => exact answers_caprd h _ _
  | cycrd => exact answers_cycrd h _
  | thyrd => exact answers_thyrd h _ _ _
  | pclcfg => exact answers_pclcfg h _ _ _
  | _ => exact absurd hx Bool.false_ne_true

/-- The events of the part. -/
theorem answers_event (h : s.Inv) {i : Instr} (he : isEvent i = true) : Answers (exec i s) := by
  cases i with
  | blockFetch => exact answers_blockFetch h _
  | encodingFault => exact answers_encodingFault h _
  | blockComplete => exact answers_blockComplete h _ _
  | forkJoin => exact answers_forkJoin h _
  | spawnAccept => exact answers_spawnAccept h _
  | spawnRefusalRaise => exact answers_spawnRefusalRaise h _
  | guardFaultRaise => exact answers_guardFaultRaise h _
  | ringSlotTake => exact answers_ringSlotTake h _
  | ringEndSkip => exact answers_ringEndSkip h _
  | subTileDelivery => exact answers_subTileDelivery h _ _ _
  | pubSlotDrain => exact answers_pubSlotDrain h _ _ _
  | pageWalk => exact answers_pageWalk h _ _ _
  | accessEntryFreed => exact answers_accessEntryFreed h _
  | hotnessSample => exact .next (h.updPerc _)
  | hotnessDecay => exact answers_hotnessDecay h
  | promotion => exact answers_promotion h _ _
  | demotion => exact answers_demotion h _ _
  | migrationAccept => exact answers_migrationAccept h _
  | chunkCopy => exact answers_chunkCopy h _
  | commit => exact answers_commit h _
  | migrationRelease => exact answers_migrationRelease h _
  | migrationAbort => exact answers_migrationAbort h _ _
  | abortComplete => exact answers_abortComplete h _
  | taskDispatch => exact .next (h.dispatchOf _)
  | taskRestore => exact .next (h.dispatchOf _)
  | contextSave => exact answers_contextSave h _ _
  | taskPark => exact answers_taskPark h _ _
  | taskComplete => exact answers_taskComplete h _
  | budgetExhausted => exact answers_budgetExhausted h _ _
  | watchdog => exact answers_watchdog h _ _
  | slotAged => exact answers_slotAged h _
  | haltLine => exact answers_haltLine h _
  | engineStop => exact answers_engineStop h _
  | slotRelease => exact answers_slotRelease h _ _
  | heldRecordWrite => exact answers_heldRecordWrite h _
  | scrub => exact answers_scrub h _ _ _
  | linkFailure => exact answers_linkFailure h _ _ _ _
  | fatalError => exact .next (h.fatal _ _).warm
  | temperatureTrip => exact .next ((h.fatal _ _).updMgmt _)
  | powerMeasurement => exact answers_powerMeasurement h
  | coldReset => exact .next h.cold
  | warmReset => exact .next h.warm
  | recoveryImage => exact .next (.ite h (h.updMgmt _))
  | launchLine => exact answers_launchLine h _ _
  | launchPageOtherWrite q off => exact answers_launchPageOtherWrite h q off
  | ringSlotReread => exact answers_ringSlotReread h _
  | mailboxMessage => exact answers_mailboxMessage h _ _
  | launchPacket => exact answers_packetStep h (runLaunch_inv _)
  | graphPacket => exact answers_packetStep h (runGraph_inv _)
  | modelPacket => exact answers_packetStep h (runModel_inv _)
  | signalPacket => exact answers_packetStep h (runSignal_inv _)
  | waitPacket => exact answers_packetStep h (runWait_inv _)
  | waitPacketComplete => exact answers_waitPacketComplete h _
  | pasnew => exact answers_pasnew h
  | pasdel => exact answers_adminStep h runPasdel_inv fun _ _ _ ht => finishPasdel_inv h ht
  | qnew => exact answers_adminStep h runQnew_inv fun _ _ _ ht => finishQnew_inv h ht
  | qdel => exact answers_command h runQdel_inv
  | hset => exact answers_command h runHset_inv
  | grant => exact answers_command h runGrant_inv
  | mload => exact answers_command h runMload_inv
  | munld => exact answers_adminStep h runMunld_inv fun _ _ _ ht => finishMunld_inv h ht
  | dumpreg => exact answers_command h runDumpreg_inv
  | fwupd => exact answers_command h runFwupd_inv
  | attest => exact answers_command h runAttest_inv
  | wreset => exact answers_adminStep h (fun _ _ _ h => h.cancelAll) fun _ _ _ ht => finishWreset_inv h ht
  | peerWindowAccess => exact answers_peerWindowAccess h _ _ _ _ _
  | partialLaunchLine => exact answers_partialLaunchLine h _
  | illegalInstruction => exact .next (h.trapX _)
  | _ => exact absurd he Bool.false_ne_true

/-- Every instruction keeps the invariant, whatever state it runs in. -/
theorem State.Inv.exec (h : s.Inv) (i : Instr) : Answers (Machine.exec i s) := by
  cases hl : (lParts i).isSome
  · cases hs : (sParts i).isSome
    · cases hx : (xParts i).isSome
      · refine answers_event h ?_
        unfold isEvent
        rw [← Option.not_isSome, ← Option.not_isSome, ← Option.not_isSome, hl, hs, hx]
        rfl
      · exact answers_xForm h hx
    · exact answers_sForm h hs
  · exact answers_lForm h hl

/-! ### Turns -/

theorem State.Inv.begin (h : s.Inv) (p : Pending) (rest : List Pending) : (s.begin p rest).Inv := by
  have ht := h.tick p.dt
  exact State.Inv.meetSectors { ht with }

theorem answers_engineTurn (h : s.Inv) (r : EngRef) : Answers (engineTurn r s) := by
  refine .ite .fault ?_
  have ht := State.Inv.watchHead (s := { s with ref := r }) { h with } r
  dsimp only
  split
  · next hq => exact (ht.sequence r _ _ hq).exec _
  · exact .next ht

theorem answers_supervisorTurn (h : s.Inv) (c : Nat) : Answers (supervisorTurn c s) := by
  refine .ite .fault ?_
  split
  · exact State.Inv.exec (s := { s with hart := c }) { h with } _
  · exact .refused

theorem answers_eventTurn (h : s.Inv) (i : Instr) : Answers (eventTurn i s) := .ite (h.exec i) .fault

theorem State.Inv.step (h : s.Inv) : Answers (Machine.step s) := by
  unfold Machine.step
  dsimp only
  refine .ite (.next (h.begin _ _)) ?_
  split
  · exact answers_eventTurn (h.begin _ _) _
  · split
    · exact answers_engineTurn (h.begin _ _) _
    · exact answers_supervisorTurn (h.begin _ _) _
    · exact answers_eventTurn (h.begin _ _) _

end Sys2Proof.Machine

open Sys2Proof.Machine

/-- Settles O60: every instruction keeps the invariant from any state that meets it, and so does what a turn does before it. -/
theorem stepInvariant : Obligations.StepInvariant := fun _ t h => h.step t
end

section
/-! PROOFS. The resets, the state they leave, and the front end's lines (O47, O58, O48). -/

namespace Sys2Proof.Machine

/-! ### Booting -/

theorem Management.boot_warmResets (m : Management) (x : Image) : (m.boot x).warmResets = m.warmResets := by
  unfold Management.boot
  split <;> rfl

theorem Management.boot_powered (m : Management) (x : Image) : (m.boot x).powered = m.powered := by
  unfold Management.boot
  split <;> rfl

/-! ### What a warm and a cold reset leave -/

theorem State.keepsMemory_warm (s : State) : s.KeepsMemory s.warm :=
  ⟨fun m _ => by cases m <;> rfl, fun _ => rfl, fun _ => rfl, fun _ => rfl⟩

theorem State.warm_warmResets (s : State) : s.warm.mgmt.warmResets = s.mgmt.warmResets + 1 := Management.boot_warmResets _ _

theorem State.cold_powered (s : State) : s.cold.mgmt.powered = true := Management.boot_powered _ _

/-! ### The machine right after reset -/

theorem State.reset_queue (q : Nat) : (State.reset.queue q).present = decide (q = 0) := by
  rcases Nat.eq_zero_or_pos q with rfl | hq
  · rfl
  · have hq' : q ≠ 0 := Nat.ne_of_gt hq
    simp [State.queue, State.reset, Map.get, hq']

/-- A die's fault unit is empty after reset, of the four dies and of any other number. -/
theorem State.reset_die (d : Nat) : ∃ b, State.reset.die d = { base := b } := by
  have hm : State.reset.dies = [(0, { base := faultBase 0 }), (1, { base := faultBase 1 }), (2, { base := faultBase 2 }), (3, { base := faultBase 3 })] := rfl
  rcases d with _ | _ | _ | _ | d
  · exact ⟨faultBase 0, rfl⟩
  · exact ⟨faultBase 1, rfl⟩
  · exact ⟨faultBase 2, rfl⟩
  · exact ⟨faultBase 3, rfl⟩
  · refine ⟨0, ?_⟩
    rw [State.die, hm]
    rfl

section
variable {s : State} {q : Nat}

/-! ### Launch lines -/

/-- A queue after a line with a SEQT. -/
theorem State.takeLine_live (hr : s.mgmt.ready = true) (hp : (s.queue q).present = true) (hl : (s.queue q).live = true) (dws : List Nat) :
    s.takeLine q dws = (s.setQueue q
      (if (s.queue q).head + 2 ^ (s.queue q).log < seqt dws then { s.queue q with rej := ((s.queue q).rej + 1) % 2 ^ 32 }
       else if seqt dws ≤ (s.queue q).tail then s.queue q
       else if seqt dws - 1 = (s.queue q).tail then
        { s.queue q with tail := seqt dws, fetched := (s.queue q).fetched.filter (fun (k, _) => k != (s.queue q).tail) ++ [((s.queue q).tail, dws)] }
       else { s.queue q with tail := seqt dws })).rereadQueue q := by
  unfold State.takeLine
  dsimp only
  rw [if_neg (by simp [hr, hp, hl])]
  congr 2
  refine if_congr Iff.rfl rfl ?_
  by_cases ht : seqt dws ≤ (s.queue q).tail
  · rw [if_pos ht, if_neg (Nat.not_lt.mpr ht)]
  · rw [if_neg ht, if_pos (Nat.lt_of_not_le ht)]
    by_cases hn : seqt dws - 1 = (s.queue q).tail
    · rw [if_pos hn, if_pos hn]
    · rw [if_neg hn, if_neg hn]

theorem State.takeLine_dead (hl : (s.queue q).live = false) (dws : List Nat) : s.takeLine q dws = s := if_pos (by simp [hl])

theorem State.takeLine_noFirmware (hr : s.mgmt.ready = false) (dws : List Nat) : s.takeLine q dws = s := if_pos (by simp [hr])

theorem State.rejectLine_ready (hr : s.mgmt.ready = true) : s.rejectLine q = s.setQueue q { s.queue q with rej := ((s.queue q).rej + 1) % 2 ^ 32 } :=
  if_neg (by simp [hr])

theorem State.rejectLine_noFirmware (hr : s.mgmt.ready = false) : s.rejectLine q = s := if_pos (by simp [hr])

end

end Sys2Proof.Machine

open Sys2Proof Sys2Proof.Machine

/-- Settles O47: each field of the two states as the resets write it. -/
theorem resets : Obligations.Resets := fun s =>
  ⟨⟨s.keepsMemory_warm, rfl, rfl, rfl, rfl, rfl, rfl, rfl, rfl, rfl, rfl, rfl, s.warm_warmResets⟩,
    ⟨rfl, rfl, rfl, rfl, rfl, rfl, rfl, rfl, rfl, rfl, rfl, rfl, rfl, s.cold_powered⟩⟩

/-- Settles O58: each table of the reset state read at any key. -/
theorem resetState : Obligations.ResetState := by
  refine ⟨fun _ _ => ⟨rfl, rfl⟩, fun m _ => by cases m <;> rfl, fun _ => rfl, fun _ => rfl, fun _ => rfl, State.reset_queue,
    fun d => ?_, rfl, rfl, rfl, rfl, ?_, rfl, rfl, rfl⟩
  · obtain ⟨b, hb⟩ := State.reset_die d
    rw [hb]
    exact ⟨rfl, rfl, rfl, rfl, rfl⟩
  · intro m size hm
    simp only [List.mem_cons, Prod.mk.injEq, List.not_mem_nil, or_false] at hm
    obtain ⟨rfl, rfl⟩ | ⟨rfl, rfl⟩ | ⟨rfl, rfl⟩ := hm
    · rfl
    · rfl
    · rfl

/-- Settles O48: a line, whole or in part, and a reread, in each state of its queue. -/
theorem lineEvents : Obligations.LineEvents := by
  rintro s q off dws _ _ hq rfl rfl
  have hq' := Nat.not_le.mpr hq
  have line : exec (.launchLine q dws) s = .next (s.takeLine q dws) := if_neg hq'
  have partial_ : exec (.partialLaunchLine q) s = .next (s.rejectLine q) := if_neg hq'
  have reread : exec (.ringSlotReread q) s = .next (if (s.queue q).live then s.rereadQueue q else s) := if_neg hq'
  refine ⟨fun hr hp hl => ?_, fun hl => ?_, fun hr => ?_, fun hr => ⟨?_, ?_⟩, if_neg hq', fun hl => ?_, fun hl => ?_⟩
  · rw [line, State.takeLine_live hr hp hl]
    rfl
  · rw [line, State.takeLine_dead hl]
  · rw [partial_, State.rejectLine_ready hr]
  · rw [line, State.takeLine_noFirmware hr]
  · rw [partial_, State.rejectLine_noFirmware hr]
  · rw [reread, if_pos hl]
  · rw [reread, if_neg (by simp [hl])]
end

section
/-! PROOFS. What the X-forms share: references, the retirement step, the way to run one; the Percolator's parameters
(O29, O27, O35). -/

namespace Sys2Proof.Machine

variable {s : State}

/-! ### References (R291, R292) -/

theorem bits_low (x w : Nat) : bits x 0 w = x % 2 ^ w := by rw [bits, pow_zero, Nat.div_one]

theorem State.taskRef_eq (x w : Nat) : s.taskRef x w = if bits x 52 12 ≠ 0 ∨ 2 ^ w ≤ bits x 0 32 then .error 0x10 else
    if (s.pasid (bits x 32 20)).valid = true then .ok (bits x 32 20) else .error 0x06 := by
  unfold State.taskRef pasidOf
  rw [bits_low]
  cases (s.pasid (bits x 32 20)).valid <;> rfl

theorem selector_eq (x lo : Nat) : selector x lo = if bits x 19 13 ≠ 0 ∨ bits x 52 12 ≠ 0 ∨ 2 ^ lo ≤ bits x 0 8 then .error 0x10 else
    .ok { sem := bits x 0 8, slot := bits x 8 2, tile := bits x 10 9, pasid := bits x 32 20 } := by
  have h : bits x 0 8 = x % 256 := bits_low x 8
  unfold selector pasidOf
  rw [h]

theorem State.jobRef_eq (x : Nat) : s.jobRef x = if bits x 0 32 ≠ 0 ∨ bits x 52 12 ≠ 0 then .error 0x10 else
    if (s.pasid (bits x 32 20)).valid = true then .ok (bits x 32 20) else .error 0x06 := by
  unfold State.jobRef pasidOf
  rw [bits_low]
  cases (s.pasid (bits x 32 20)).valid <;> rfl

theorem State.entryRef_eq (x : Nat) (g : Bool) : s.entryRef x g = if 2 ^ 32 ≤ x then .error 0x10 else
    if x % 2 ^ 16 ≠ 0 ∧ (s.launch (x % 2 ^ 16)).live = true ∧ (s.launch (x % 2 ^ 16)).gen = x / 2 ^ 16 ∧ (s.launch (x % 2 ^ 16)).isGraph = g then
      .ok (x % 2 ^ 16) else .error 0x01 := by
  unfold State.entryRef State.entryOf
  refine if_congr Iff.rfl rfl ?_
  simp only [Nat.reducePow]
  by_cases h : x % 65536 ≠ 0 ∧ (s.launch (x % 65536)).live = true ∧ (s.launch (x % 65536)).gen = x / 65536 ∧ (s.launch (x % 65536)).isGraph = g
  · rw [if_pos h, if_pos h]
  · rw [if_neg h, if_neg h]

theorem State.pointRef_eq (x v : Nat) : s.pointRef x v = if bits x 11 21 ≠ 0 ∨ bits x 52 12 ≠ 0 ∨ 2 ^ 16 ≤ v then .error 0x10 else
    if (s.pasid (bits x 32 20)).valid = true then .ok (64 * bits x 6 5 + bits x 0 6, bits x 32 20) else .error 0x06 := by
  unfold State.pointRef pasidOf
  rw [Nat.mul_comm 64]
  cases (s.pasid (bits x 32 20)).valid <;> rfl

/-! ### The retirement step (R291) -/

theorem State.hartAt_setHart (h : s.harts.rising) (c k : Nat) (x : Hart) : (s.setHart c x).hartAt k = if k = c then x else s.hartAt k :=
  Map.get_set _ h c k x

theorem Hart.setReg_regs (x : Hart) (n v : Nat) : x.setReg n v = { x with regs := (x.setReg n v).regs } := by
  unfold Hart.setReg
  split <;> rfl

theorem Hart.reg_setReg {x : Hart} (h : x.regs.rising) (r v n : Nat) : (x.setReg r v).reg n = if n ≠ 0 ∧ n = r then v % 2 ^ 64 else x.reg n := by
  unfold Hart.setReg Hart.reg
  by_cases hn : n = 0
  · simp [hn]
  · by_cases hr : r = 0
    · simp [hr, hn]
    · simp [hr, hn, Map.get_set 0 h]

/-! ### Parameters of the Percolator (R280) -/

/-- A parameter takes a value of its range and keeps its own where the value is out of it. -/
theorem Percolator.setParam_eq (p : Percolator) (k v : Nat) : k ≤ 5 → p.setParam k v = match k with
    | 0 => { p with promo := if v ≤ 255 then v else p.promo }
    | 1 => { p with demo := if v ≤ 255 then v else p.demo }
    | 2 => { p with decay := if 1 ≤ v ∧ v ≤ 2 ^ 32 - 1 then v else p.decay }
    | 3 => { p with sample := if v ≤ 15 then v else p.sample }
    | 4 => { p with lowmark := if v ≤ 768 then v else p.lowmark }
    | _ => { p with auto := if v ≤ 1 then v else p.auto } := by
  intro hk
  have hd : (1 ≤ v ∧ v < 2 ^ 32) ↔ (1 ≤ v ∧ v ≤ 2 ^ 32 - 1) := by omega
  interval_cases k <;> simp only [Percolator.setParam, hd] <;> split <;> rfl

theorem Percolator.param_eq (p : Percolator) {k : Nat} (hk : k ≤ 5) :
    p.param k = [p.promo, p.demo, p.decay, p.sample, p.lowmark, p.auto].getD k 0 := by
  interval_cases k <;> rfl

theorem Percolator.setParam_policy (p : Percolator) (k v : Nat) : (p.setParam k v).policy = p.policy := by
  unfold Percolator.setParam
  split <;> split <;> rfl

theorem State.xrun_priv (h : s.Priv) (i : Instr) (rd : Nat) (o : XOut) :
    s.xrun i rd o = match o with | .error c => .next (s.retireX rd (failWord c)) | .ok (s1, v) => .next (s1.retireX rd v) := if_neg h

theorem exec_pclcfg_machine {rd rs1 rs2 : Nat} (hm : (s.hartAt s.hart).mode = 3) (hk : s.xreg rs1 ≤ 5) :
    exec (.pclcfg rd rs1 rs2) s =
      .next (({ s with perc := if rs2 = 0 then s.perc else s.perc.setParam (s.xreg rs1) (s.xreg rs2) } : State).retireX rd (s.perc.param (s.xreg rs1))) := by
  have hp : s.Priv := by rw [State.Priv, hm]; decide
  refine (if_neg (by omega)).trans ((State.xrun_priv hp _ _ _).trans ?_)
  by_cases h2 : rs2 = 0
  · rw [if_pos h2, if_pos h2]
  · rw [if_neg h2, if_neg h2]
    rfl

/-- What is written to a parameter is not yet in force. -/
theorem exec_pclcfg_policy {rd rs1 rs2 : Nat} {t : State} (h : exec (.pclcfg rd rs1 rs2) s = .next t) : t.perc.policy = s.perc.policy := by
  by_cases hc : (s.hartAt s.hart).mode = 3 ∧ s.xreg rs1 ≤ 5
  · rw [exec_pclcfg_machine hc.1 hc.2] at h
    rw [← Host.Outcome.next.inj h]
    show (if rs2 = 0 then s.perc else s.perc.setParam (s.xreg rs1) (s.xreg rs2)).policy = s.perc.policy
    split
    · rfl
    · exact Percolator.setParam_policy _ _ _
  · have ht : exec (.pclcfg rd rs1 rs2) s = .next (s.trapX ((encodeX (.pclcfg rd rs1 rs2)).getD 0)) := if_pos (by omega)
    rw [← Host.Outcome.next.inj (ht.symm.trans h)]
    rfl

theorem State.untilDecay_now (h : s.cycle = s.perc.decayEnd) : s.untilDecay = 0 := by
  have hn : (s.perc.decayEnd + 2 ^ 64 - s.cycle) % 2 ^ 64 = 0 := by omega
  unfold State.untilDecay
  rw [hn]
  rfl

theorem State.sampleAccess_policy (m : Tier) (a size : Nat) : (s.sampleAccess (.tier m) a size).perc.policy = s.perc.adopt.policy := by
  unfold State.sampleAccess
  dsimp only
  split <;> rfl

end Sys2Proof.Machine

open Sys2Proof Sys2Proof.Machine

/-- Settles O29: each reference reads its fields as the register holds them. -/
theorem references : Obligations.References := fun _ x v w lo =>
  ⟨State.taskRef_eq x w, fun _ => selector_eq x lo, State.jobRef_eq x, fun g _ hi => hi ▸ State.entryRef_eq x g, State.pointRef_eq x v⟩

/-- Settles O27: the step replaces one hart, by one that differs in rd and the pc. -/
theorem retirement : Obligations.Retirement := by
  intro s rd v h
  have hr : (s.retireX rd v).hartAt s.hart = { (s.hartAt s.hart).setReg rd v with pc := ((s.hartAt s.hart).pc + 4) % 2 ^ 64 } :=
    (State.hartAt_setHart h _ _ _).trans (if_pos rfl)
  refine ⟨?_, fun hx n => ?_, fun c hc => (State.hartAt_setHart h _ _ _).trans (if_neg hc), rfl⟩
  · rw [hr, Hart.setReg_regs]
  · rw [hr]
    exact Hart.reg_setReg hx rd v n

/-- Settles O35: a parameter is read and written as the table of R280 has it, and the policy in force is another field. -/
theorem percolatorParameters : Obligations.PercolatorParameters := by
  refine ⟨?_, rfl, ?_⟩
  · rintro s rd rs1 rs2 _ _ _ rfl rfl rfl
    refine ⟨fun hm hk => ?_, fun h => if_pos h⟩
    rw [exec_pclcfg_machine hm hk, Percolator.param_eq _ hk]
    exact congrArg (fun p => Host.Outcome.next (({ s with perc := if rs2 = 0 then s.perc else p } : State).retireX rd _)) (Percolator.setParam_eq _ _ _ hk)
  · rintro s _ rfl
    refine ⟨fun hc => ⟨_, if_neg (not_not.mpr (State.untilDecay_now hc)), rfl, rfl⟩, fun m a size => State.sampleAccess_policy m a size, fun rd rs1 rs2 t ht => ?_⟩
    exact exec_pclcfg_policy ht
end

section
/-! PROOFS. The X-forms of the supervisors: launches, synchronization, faults and control (O31 to O34). -/

namespace Sys2Proof.Machine

variable {s : State}

/-! ### The ways to run an X-form (R291) -/

theorem State.xrun_ok (h : s.Priv) {i : Instr} {rd v : Nat} {t : State} {o : XOut} (ho : o = .ok (t, v)) : s.xrun i rd o = .next (t.retireX rd v) := by
  rw [State.xrun_priv h, ho]

theorem State.xrun_error (h : s.Priv) {i : Instr} {rd c : Nat} {o : XOut} (ho : o = .error c) :
    s.xrun i rd o = .next (s.retireX rd (2 ^ 63 + c)) := by
  rw [State.xrun_priv h, ho]
  rfl

/-- An X-form that writes to supervisor memory ends, or takes the store fault where the hart's own translation does not give the address. -/
theorem State.xrunTo_ok (h : s.Priv) {i : Instr} {rd a v : Nat} {t : State} {o : XOut} (ho : o = .ok (t, v)) :
    ((s.hartAt s.hart).reaches a = true → s.xrunTo i rd a o = .next (t.retireX rd v)) ∧
    ((s.hartAt s.hart).reaches a = false → s.xrunTo i rd a o = .next (s.setHart s.hart ((s.hartAt s.hart).trapStore a))) := by
  subst ho
  exact ⟨fun hr => (if_neg fun hn => by simp [hr] at hn).trans (State.xrun_ok h rfl), fun hr => if_pos ⟨h, by simp [hr]⟩⟩

theorem State.xrunTo_error (h : s.Priv) {i : Instr} {rd a c : Nat} {o : XOut} (ho : o = .error c) :
    s.xrunTo i rd a o = .next (s.retireX rd (2 ^ 63 + c)) := by
  subst ho
  exact State.xrun_error h rfl

/-! ### Launches, graphs and jobs (R319) -/

theorem Launch.word_eq (l : Launch) : l.word = l.count % 2 ^ 32 + 2 ^ 32 * ofBool l.failed + 2 ^ 33 * ofBool l.done := by
  cases hf : l.failed <;> cases hd : l.done <;> simp [Launch.word, wordOf, ofBool, hf, hd, Nat.add_assoc]

theorem State.length_liveOf (s : State) (p : Nat) : (s.liveOf p).length = s.tasks.countP fun x => x.2.pasid == p && x.2.state.live := by
  rw [State.liveOf, List.length_map, ← List.countP_eq_length_filter]

/-- A descriptor that breaks no rule of R300 is a launch, of the graph that it names where it names one. -/
theorem State.lnnew_eq {a p : Nat} {d : Nat → Nat} (hd : ∀ k < 4, d k = Memory.nat s.supmem (a + 8 * k) 8) (ha : a % 32 = 0)
    (hr : (s.hartAt s.hart).reaches a = true) (h0 : bits (d 0) 57 7 = 0) (h8 : d 0 % 8 = 0) (h1 : bits (d 1) 52 12 = 0)
    (hc : bits (d 1) 0 32 ≠ 0) (h2 : bits (d 2) 32 32 = 0) (hp : p = bits (d 1) 32 20) (hv : (s.pasid p).valid = true) {t : State} {id : Nat}
    (hn : s.newLaunch 0 { pasid := p, count := bits (d 1) 0 32, cobj := d 0, val := d 3, graph := d 2 } = some (t, id)) :
    s.lnnew a = match (s.entryOf (d 2) true).filter fun g => !(s.launch g).done && (s.launch g).pasid == p with
      | some g => .ok (t.setLaunch g { t.launch g with count := (t.launch g).count + 1 }, id)
      | none => if d 2 ≠ 0 then .error stUnknown else .ok (t, id) := by
  have hw : ∀ k < 4, (s.supDws a 4).getD k 0 = d k := by
    intro k hk
    rw [hd k hk]
    interval_cases k <;> rfl
  have hf : ¬(bits (d 0) 57 7 ≠ 0 ∨ d 0 % 8 ≠ 0 ∨ bits (d 1) 52 12 ≠ 0 ∨ d 1 % 2 ^ 32 = 0 ∨ bits (d 2) 32 32 ≠ 0) := by
    rw [bits_low] at hc
    rintro (h | h | h | h | h)
    exacts [h h0, h h8, h h1, hc h, h h2]
  rw [bits_low] at hn
  unfold State.lnnew pasidOf
  simp only [hw 0 (by decide), hw 1 (by decide), hw 2 (by decide), hw 3 (by decide)]
  rw [if_neg (not_not.mpr ha), if_neg (by simp [hr]), if_neg hf, ← hp, hn, if_neg (by simp [hv])]
  cases (s.entryOf (d 2) true).filter fun g => !(s.launch g).done && (s.launch g).pasid == p with
  | some g => exact if_neg (by simp)
  | none => exact if_congr (by simp) rfl rfl

theorem State.entryOf_zero (s : State) (g : Bool) : s.entryOf 0 g = none := by
  unfold State.entryOf
  exact if_neg fun h => h.1 rfl

theorem State.entryRef_wide {a : Nat} (h : 2 ^ 32 ≤ a) (g : Bool) : s.entryRef a g = .error 0x10 := if_pos h

/-! ### Semaphores and points (R320) -/

theorem State.signalLate_of {o : Except Nat Selector} {x : Selector} (h : o = .ok x) : s.signalLate o = s.testsDone x.tile x.slot [x.sem] := by
  rw [h]
  rfl

/-- SEMSIG in a cycle in which its semaphore has not been tested. -/
theorem exec_semsig_timely {rd rs1 rs2 : Nat} {x : Selector} (hx : s.semRef (s.xreg rs1) (s.xreg rs2) = .ok x)
    (hl : s.testsDone x.tile x.slot [x.sem] = false) : exec (.semsig rd rs1 rs2) s = s.xrun (.semsig rd rs1 rs2) rd
      (match s.semRead x, s.signalSlot x.pasid x.tile x.slot x.sem (s.xreg rs2) with
       | .error c, _ => .error c
       | .ok _, none => .error stNoTask
       | .ok _, some (.error e) => .error (signalStatus e)
       | .ok (old, _), some (.ok s1) => .ok (s1, old)) := by
  refine (if_neg fun hn => ?_).trans ?_
  · rw [State.signalLate_of hx, hl] at hn
    exact Bool.false_ne_true hn.2
  · rw [hx] <;> rfl

theorem State.barwt_owner {k p a b : Nat} (h : s.pointRef a b = .ok (k, p)) (ho : (s.point k).owner = some p) :
    s.barwt a b = if phasePassed (s.point k).phase b then some (.ok (s, (s.point k).phase)) else none := by
  unfold State.barwt
  rw [h]
  exact if_neg (not_not.mpr ho)

theorem State.barwt_other {k p a b : Nat} (h : s.pointRef a b = .ok (k, p)) (ho : (s.point k).owner ≠ some p) :
    s.barwt a b = some (.error stUnknown) := by
  unfold State.barwt
  rw [h]
  exact if_pos ho

theorem exec_barwt {rd rs1 rs2 : Nat} {o : XOut} (h : s.barwt (s.xreg rs1) (s.xreg rs2) = some o) :
    exec (.barwt rd rs1 rs2) s = s.xrun (.barwt rd rs1 rs2) rd o := by
  show execBarwt rd rs1 rs2 s = _
  rw [execBarwt, h]

/-! ### Fault buffers (R321) -/

theorem FaultUnit.item_eq (u : FaultUnit) (k : Nat) : u.item k = match k with
    | 0 => u.head % 2 ^ 64
    | 1 => u.tail % 2 ^ 64
    | 2 => u.held.length % 2 ^ 32 + 2 ^ 32 * ofBool !u.held.isEmpty
    | _ => u.base % 2 ^ 57 := by
  rcases k with _ | _ | _ | k
  · rfl
  · rfl
  · unfold FaultUnit.item
    cases u.held.isEmpty <;> simp [wordOf, ofBool]
  · rfl

@[simp] theorem State.faultQueues_supWrite (s : State) (a : Nat) (l : List Nat) : (s.supWrite a l).faultQueues = s.faultQueues := by
  unfold State.supWrite
  rfl

/-- FQPOP with a record in its queue. -/
theorem exec_fqpop_record {rd rs1 d k : Nat} {l : List (Nat × Nat)} (ha : s.xreg rs1 % 64 = 0) (hq : Map.get [] s.faultQueues s.hart = (d, k) :: l) :
    exec (.fqpop rd rs1) s = s.xrunTo (.fqpop rd rs1) rd (s.xreg rs1) (.ok
      (({ s.supWrite (s.xreg rs1) (Map.get {} (s.die d).recs k).dws with faultQueues := Map.set [] s.faultQueues s.hart l } : State).freePlace d k, l.length)) := by
  refine congrArg (s.xrunTo (.fqpop rd rs1) rd (s.xreg rs1)) ((if_neg (not_not.mpr ha)).trans ?_)
  rw [hq]
  dsimp only
  rw [State.faultQueues_supWrite]

/-! ### TLBs (R322) -/

theorem State.tlbInvalidate_eq (s : State) (p a : Nat) (all : Bool) : s.tlbInvalidate p a all = s.shoot (List.filter fun e =>
    if all then e.pasid != p else !(e.pasid == p && e.va == a / 2 ^ e.size * 2 ^ e.size)) := by
  cases all <;> rfl

end Sys2Proof.Machine

open Sys2Proof Sys2Proof.Machine

/-- Settles O31: each form reads its reference, and runs on what that names. -/
theorem launchXForms : Obligations.LaunchXForms := by
  rintro s rd rs1 a p i g id t d hp rfl
  refine ⟨fun hd ha h0 h8 h1 hc h2 hpe hv hr hn => ?new, fun ha hr => ?unreadable, fun hi => ?launch, fun hg => ?graph, fun hj => ?job, ?wide⟩
  case new =>
    have hl := State.lnnew_eq hd ha hr h0 h8 h1 hc h2 hpe hv hn
    refine ⟨fun hz => State.xrun_ok hp ?_, fun hg hdone hpas => State.xrun_ok hp ?_⟩
    · rw [hl, hz, State.entryOf_zero]
      rfl
    · rw [hl, hg, Option.filter_some, if_pos (by simp [hdone, hpas])]
  case unreadable =>
    refine State.xrun_error hp ?_
    unfold State.lnnew
    exact (if_neg (not_not.mpr ha)).trans (if_pos (by simp [hr]))
  case launch =>
    refine ⟨State.xrun_ok hp ?_, fun hd => State.xrun_ok hp ?_, fun hd => State.xrun_error hp ?_⟩
    · rw [hi, ← Launch.word_eq]
      rfl
    · rw [hi]
      exact if_neg (by simp [hd])
    · rw [hi]
      exact if_pos hd
  case graph =>
    refine ⟨State.xrun_ok hp ?_, fun hd => State.xrun_ok hp ?_, fun hd => State.xrun_error hp ?_⟩
    · rw [hg, ← Launch.word_eq]
      rfl
    · rw [hg]
      exact if_neg (by simp [hd])
    · rw [hg]
      exact if_pos hd
  case job =>
    rw [← State.length_liveOf]
    refine ⟨State.xrun_ok hp ?_, State.xrun_ok hp ?_⟩ <;> rw [hj] <;> rfl
  case wide =>
    intro j hj ha
    have he := State.entryRef_wide (s := s) ha
    simp only [List.mem_cons, List.not_mem_nil, or_false] at hj
    obtain rfl | rfl | rfl | rfl := hj <;> refine State.xrun_error hp ?_ <;> rw [he] <;> rfl

/-- Settles O32: each form on the count or the point that its selector names. -/
theorem syncXForms : Obligations.SyncXForms := by
  intro s rd rs1 rs2 v k p x c t hp
  refine ⟨fun hx hv => State.xrun_ok hp ?_, fun hx hv => ⟨fun hr => State.xrun_ok hp ?_, fun hr => State.xrun_error hp ?_, fun hl hs => ?_, fun hl hs => ?_, fun hl => ?_⟩,
    fun hx hv => ⟨State.xrun_error hp ?_, fun hl => ?_⟩, fun hk => ⟨State.xrun_ok hp ?_, fun ho => ⟨fun hph => ?_, fun hph => ?_⟩, fun ho => ?_⟩,
    fun hk => ⟨fun ho => State.xrun_ok hp ?_, fun ho => State.xrun_error hp ?_⟩⟩
  · rw [hx]
    dsimp only
    rw [hv]
    rfl
  · rw [hx]
    dsimp only
    rw [hv]
    exact if_neg (by simp [hr])
  · rw [hx]
    dsimp only
    rw [hv]
    exact if_pos hr
  · rw [exec_semsig_timely hx hl]
    exact State.xrun_ok hp (by rw [hv, hs])
  · rw [exec_semsig_timely hx hl]
    exact State.xrun_error hp (by rw [hv, hs]; rfl)
  · exact if_pos ⟨hp, (State.signalLate_of hx).trans hl⟩
  · rw [hx]
    dsimp only
    rw [hv]
  · rw [exec_semsig_timely hx hl]
    exact State.xrun_error hp (by rw [hv])
  · rw [hk]
    rfl
  · exact (exec_barwt ((State.barwt_owner hk ho).trans (if_pos hph))).trans (State.xrun_ok hp rfl)
  · have hb := (State.barwt_owner hk ho).trans (if_neg (by simp [hph]))
    show execBarwt rd rs1 rs2 s = _
    rw [execBarwt, hb]
    exact if_neg hp
  · exact (exec_barwt (State.barwt_other hk ho)).trans (State.xrun_error hp rfl)
  · rw [hk]
    exact if_pos ho
  · rw [hk]
    exact if_neg ho

/-- Settles O33: each form by the way that X-forms which write to supervisor memory, or only to rd, run. -/
theorem faultXForms : Obligations.FaultXForms := by
  rintro s rd rs1 rs2 a b p d k l x f hp rfl rfl
  refine ⟨fun ha hq => exec_fqpop_record ha hq ▸ (State.xrunTo_ok hp rfl).2, fun ha hq => exec_fqpop_record ha hq ▸ (State.xrunTo_ok hp rfl).1, fun ha hq => State.xrunTo_error hp ?_,
    fun ha => State.xrunTo_error hp (if_pos ha), fun ha h64 => State.xrun_ok hp ?_,
    fun hx hb => ⟨fun hf hpas => State.xrunTo_ok hp ?_, fun hf => State.xrunTo_error hp ?_⟩,
    fun hpas ha => State.xrun_ok hp ?_, fun hpas ha => State.xrun_ok hp ?_⟩
  · rw [if_neg (not_not.mpr ha), hq]
  · rw [if_neg (by omega)]
    exact congrArg (fun v => Except.ok (s, v)) (FaultUnit.item_eq _ _)
  · rw [hx]
    dsimp only
    rw [if_neg (not_not.mpr hb), hf]
    exact if_pos hpas
  · rw [hx]
    dsimp only
    rw [if_neg (not_not.mpr hb), hf]
  · rw [hpas, ← State.tlbInvalidate_eq]
    refine if_neg ?_
    obtain h | h := ha
    · simp [h]
    · simp [pageBytes, h]
  · rw [hpas, if_neg (by omega)]
    rfl

/-- Settles O34: each form on the task, the slot, the space or the event that its registers name. -/
theorem controlXForms : Obligations.ControlXForms := by
  rintro s rd rs1 rs2 a b n x e hp rfl rfl
  refine ⟨fun hn => State.xrun_ok hp ?_, fun hx => ⟨fun h0 => State.xrun_error hp ?_, fun hb h0 => State.xrun_ok hp ?_, fun hb => State.xrun_error hp ?_⟩,
    fun hn => State.xrun_ok hp ?_, fun ha => State.xrun_ok hp (if_neg (not_not.mpr ha)), fun ha => State.xrun_error hp (if_pos ha), ?_,
    fun ha hb => ⟨fun he => State.xrunTo_ok hp ?_, fun he => State.xrunTo_error hp ?_⟩⟩
  · rw [hn]
    rfl
  · rw [hx]
    exact if_pos (.inr h0)
  · rw [hx]
    exact if_neg (by omega)
  · rw [hx]
    exact if_pos (.inl hb)
  · rw [hn]
    rfl
  · exact State.xrun_ok (i := .cycrd rd) hp rfl
  · rw [if_neg (by omega), he]
  · rw [if_neg (by omega), he]
end

section
/-! PROOFS. The X-forms on tasks and contexts (O30), and what a record leaves of a slot. -/

namespace Sys2Proof.Machine

variable {s : State}

/-! ### Slots while time passes and records are written -/

/-- Reading a table whose values have all been changed. -/
theorem Map.get_map {α : Type} {d : α} {f : α → α} (hf : f d = d) (n : Nat) : ∀ m : Map α,
    Map.get d (m.map fun (p : Nat × α) => (p.1, f p.2)) n = f (Map.get d m n)
  | [] => hf.symm
  | (k, v) :: m => by
    simp only [List.map_cons, Map.get]
    split
    · rfl
    · exact Map.get_map hf n m

theorem State.slotAt_tick (dt : Nat) (t k : Nat) : (s.tick dt).slotAt t k = if dt = 0 then s.slotAt t k else (s.slotAt t k).tick dt := by
  unfold State.tick
  split
  · rfl
  · exact Map.get_map (f := fun x : Slot => x.tick dt) rfl _ s.slots

theorem State.slots_emitRecord (s : State) (die cluster : Nat) (f : FaultRec) : (s.emitRecord die cluster f).slots = (s.inTurn die f).slots := by
  unfold State.emitRecord
  dsimp only
  split
  · rfl
  · rw [State.slots_placeRecord]
    rfl

/-- A record leaves a slot as it is, or as it is in the next cycle. -/
theorem State.slotAt_emitRecord (s : State) (die cluster : Nat) (f : FaultRec) (t k : Nat) :
    (s.emitRecord die cluster f).slotAt t k = s.slotAt t k ∨ (s.emitRecord die cluster f).slotAt t k = (s.slotAt t k).tick 1 := by
  have h : (s.emitRecord die cluster f).slotAt t k = (s.inTurn die f).slotAt t k := by
    rw [State.slotAt, s.slots_emitRecord]
    rfl
  rw [h]
  unfold State.inTurn
  split
  · exact .inr (State.slotAt_tick 1 t k)
  · exact .inl rfl

theorem Slot.tick_inPlace (x : Slot) (dt : Nat) : (x.tick dt).inPlace = x.inPlace := by
  unfold Slot.tick
  split <;> rfl

theorem State.inPlace_emitRecord (s : State) (die cluster : Nat) (f : FaultRec) (t k : Nat) :
    ((s.emitRecord die cluster f).slotAt t k).inPlace = (s.slotAt t k).inPlace := by
  obtain h | h := s.slotAt_emitRecord die cluster f t k <;> rw [h]
  exact Slot.tick_inPlace _ _

/-- A scheduler's fault that parks and whose record is not held does not hold its task in place. -/
theorem State.inPlace_schedulerFault {tile slot : Nat} {c : Cause} (hc : c.disp = .park) (hh : s.wouldHold (dieOf tile) = false) (fva acc : Nat) :
    ((s.schedulerFault tile slot c fva acc).slotAt tile slot).inPlace = (s.slotAt tile slot).inPlace := by
  unfold State.schedulerFault
  simp only [hc, hh, Bool.or_false]
  rw [if_neg Bool.false_ne_true, State.updSlot, State.slotAt_setSlot (.inl fun h => by cases congrArg Slot.parking h)]
  exact State.inPlace_emitRecord _ _ _ _ _ _

/-! ### Tasks that a reference names -/

theorem State.findOrGone_live {p n a b : Nat} (hp : s.taskRef b 0 = .ok p) (hn : s.liveTask p a = some n) : s.findOrGone a b = .ok n := by
  unfold State.findOrGone
  rw [hp]
  dsimp only
  rw [hn]

theorem State.findTask_live {p n a b w : Nat} (hp : s.taskRef b w = .ok p) (hn : s.liveTask p a = some n) : s.findTask a b w = .ok n := by
  unfold State.findTask
  rw [hp]
  dsimp only
  rw [hn]

theorem State.findTask_gone {p a b w : Nat} (hp : s.taskRef b w = .ok p) (hn : s.liveTask p a = none) : s.findTask a b w = .error stUnknown := by
  unfold State.findTask
  rw [hp]
  dsimp only
  rw [hn]

theorem State.parkWaits_slot {n a b tile slot : Nat} (hn : s.findOrGone a b = .ok n) (hs : s.slotOf n = some (tile, slot)) :
    s.parkWaits a b = (s.movable n tile slot && !s.wouldHold (dieOf tile) && s.saveWaits tile slot) := by
  unfold State.parkWaits
  rw [hn]
  dsimp only
  rw [hs]

theorem State.parkWaits_noSlot {n a b : Nat} (hn : s.findOrGone a b = .ok n) (hs : s.slotOf n = none) : s.parkWaits a b = false := by
  unfold State.parkWaits
  rw [hn]
  dsimp only
  rw [hs]

section
variable {rd rs1 rs2 n : Nat} (hp : s.Priv) (hn : s.findOrGone (s.xreg rs1) (s.xreg rs2) = .ok n)
include hp hn

/-- TKPARK of a task that holds no slot. -/
theorem exec_tkpark_noSlot (hs : s.slotOf n = none) : exec (.tkpark rd rs1 rs2) s =
    if (s.task n).state.waits then .next ((s.setTaskState n .parked).retireX rd 0) else .next (s.retireX rd (2 ^ 63 + 0x02)) := by
  refine (if_neg fun h => by simp [State.parkWaits_noSlot hn hs] at h).trans ?_
  rw [hn]
  dsimp only
  rw [hs]
  cases (s.task n).state.waits
  · exact State.xrun_error hp rfl
  · exact State.xrun_ok hp rfl

/-- TKPARK of a resident task whose record is written at once. -/
theorem exec_tkpark_slot {tile slot : Nat} (hs : s.slotOf n = some (tile, slot)) (hm : s.movable n tile slot = true)
    (hh : s.wouldHold (dieOf tile) = false) (hi : (s.slotAt tile slot).inPlace = false) (hw : s.saveWaits tile slot = false) :
    exec (.tkpark rd rs1 rs2) s = .next (((s.schedulerFault tile slot .parkedBySupervisor 0 0).saveTask tile slot .parked).retireX rd 0) := by
  refine (if_neg fun h => by simp [State.parkWaits_slot hn hs, hw] at h).trans (State.xrun_ok hp ?_)
  rw [hn]
  dsimp only
  rw [hs]
  have hkeep : ((s.schedulerFault tile slot .parkedBySupervisor 0 0).slotAt tile slot).inPlace = false :=
    (State.inPlace_schedulerFault rfl hh 0 0).trans hi
  exact (if_neg (by simp [hm])).trans (by rw [hkeep, if_neg Bool.false_ne_true])

end

/-- CTXSV of a live task. -/
theorem exec_ctxsv (hp : s.Priv) {rd rs1 rs2 n : Nat} (hn : s.findTask (s.xreg rs1) (s.xreg rs2) 0 = .ok n) : exec (.ctxsv rd rs1 rs2) s =
    match s.slotOf n with
    | none => .next (s.retireX rd (failWord stState))
    | some (tile, slot) =>
      if !s.movable n tile slot || (s.slotAt tile slot).parking then .next (s.retireX rd (failWord stState))
      else if s.saveWaits tile slot then .next s
      else .next ((s.saveTask tile slot .saved).retireX rd 0) := by
  refine (if_neg hp).trans ?_
  rw [hn] <;> rfl

end Sys2Proof.Machine

open Sys2Proof Sys2Proof.Machine

/-- Settles O30: each form on the task that its reference names, by where that task is. -/
theorem taskXForms : Obligations.TaskXForms := by
  intro s rd rs1 rs2 p n tile slot hp
  refine ⟨fun hr => ⟨?post, fun hn => ?live, fun hn => ?gone⟩, fun hn => ?resume, fun hn ht hs hw hj => ?restore⟩
  case post =>
    refine (if_neg hp).trans ?_
    rw [hr]
    rfl
  case live =>
    have hg := State.findOrGone_live hr hn
    have hf := State.findTask_live hr hn
    refine ⟨fun hc => State.xrun_ok hp ?_, fun hc => State.xrun_error hp ?_, State.xrun_ok hp ?_, fun hs hw => ?_,
      fun hs hm => ⟨fun hh hi hw => exec_tkpark_slot hp hg hs hm hh hi hw, fun hh hw => ?_, fun hk hw => ?_, fun hk hw => ?_⟩,
      fun hs h1 h2 => ⟨?_, ?_⟩⟩
    · rw [hg]
      exact if_neg hc
    · rw [hg]
      exact if_pos hc
    · rw [hr]
      exact congrArg (fun v => Except.ok (s, v)) (by rw [hn])
    · have hw' : (s.task n).state.waits = true := by obtain h | h := hw <;> rw [h] <;> rfl
      rw [exec_tkpark_noSlot hp hg hs, if_pos hw']
    · exact if_pos ⟨hp, by simp [State.parkWaits_slot hg hs, hm, hh, hw]⟩
    · rw [exec_ctxsv hp hf, hs]
      simp [hm, hk, hw]
    · rw [exec_ctxsv hp hf, hs]
      simp [hm, hk, hw]
    · have hw : (s.task n).state.waits = false := by
        cases hst : (s.task n).state with
        | ready => exact absurd hst h1
        | saved => exact absurd hst h2
        | _ => rfl
      rw [exec_tkpark_noSlot hp hg hs, if_neg (by simp [hw])]
    · rw [exec_ctxsv hp hf, hs]
      rfl
  case gone =>
    refine ⟨State.xrun_ok hp ?_, ?_⟩
    · rw [hr]
      exact congrArg (fun v => Except.ok (s, v)) (by rw [hn])
    · refine (if_neg hp).trans ?_
      rw [State.findTask_gone hr hn]
      rfl
  case resume =>
    refine ⟨fun hs hslot => State.xrun_ok hp ?_, fun hs => State.xrun_error hp ?_⟩
    · rw [hn]
      exact if_neg (by simp [hs, hslot])
    · rw [hn]
      exact if_pos (.inl hs)
  case restore =>
    subst ht hs
    refine ⟨fun hfree ha ho => State.xrun_ok hp ?_, fun hocc => State.xrun_error hp ?_, fun hfree ha => State.xrun_error hp ?_⟩
    · rw [hn]
      simp [hw, hj, hfree, ha, ho]
    · rw [hn]
      simp [hw, hj, Option.isSome_iff_ne_none.mpr hocc]
    · rw [hn]
      simp [hw, hj, hfree, ha]
end

section
/-! PROOFS. The Percolator's events: hotness, its own requests, migrations and the chunks they copy (O40 to O42). -/

namespace Sys2Proof.Machine

variable {s : State}

/-! ### Hotness counters (R278) -/

/-- Every sample due adds 1 to its page's counter, which stays at 255. -/
theorem get_addSamples (key : Nat) : ∀ (l : List Nat) {m : Map Nat}, m.rising →
    Map.get 0 (l.foldl (fun m k => Map.upd 0 m k fun v => min 255 (v + 1)) m) key =
      if l.count key = 0 then Map.get 0 m key else min 255 (Map.get 0 m key + l.count key)
  | [], m, _ => (if_pos List.count_nil).symm
  | k :: l, m, hm => by
    have hk : Map.get 0 (Map.upd 0 m k fun v => min 255 (v + 1)) key = if key = k then min 255 (Map.get 0 m k + 1) else Map.get 0 m key :=
      Map.get_set 0 hm _ _ _
    rw [List.foldl_cons, get_addSamples key l (Map.rising_upd 0 hm _ _), hk]
    by_cases h : key = k
    · subst h
      rw [List.count_cons_self]
      split <;> simp_all
      omega
    · rw [List.count_cons_of_ne (Ne.symm h), if_neg h]

/-- A table keeps what it holds when the entries that hold nothing go. -/
theorem Map.get_filter_ne {α : Type} [DecidableEq α] (d : α) (n : Nat) : ∀ m : Map α, m.rising → Map.get d (m.filter fun (_, v) => decide (v ≠ d)) n = Map.get d m n
  | [], _ => rfl
  | (k, v) :: m, hm => by
    have hr : Map.rising m := Map.risingFrom_mono (Nat.zero_le _) hm.2
    by_cases hv : v = d
    · rw [List.filter_cons_of_neg (by simp [hv]), Map.get_filter_ne d n m hr, Map.get]
      split
      · next h => rw [h, hv, Map.get_of_lt d hm.2 (Nat.lt_succ_self k)]
      · rfl
    · rw [List.filter_cons_of_pos (by simp [hv]), Map.get, Map.get, Map.get_filter_ne d n m hr]

theorem get_halved (m : Map Nat) (hm : m.rising) (key : Nat) :
    Map.get 0 ((m.map fun (k, v) => (k, v / 2)).filter fun (_, v) => decide (v ≠ 0)) key = Map.get 0 m key / 2 := by
  rw [Map.get_filter_ne 0 key (m.map fun (k, v) => (k, v / 2)) (Map.rising_mapVals hm (fun (k, v) => (k, v / 2)) fun _ => rfl)]
  exact Map.get_map (f := fun v => v / 2) rfl key m

theorem Percolator.drain_hot {p : Percolator} (h : p.due = []) : p.drain.hot = p.hot := by
  rw [Percolator.drain, h]
  rfl

/-! ### The Percolator's own requests (R279, R290) -/

theorem State.candidate_tearing {pasid : Nat} (h : s.tearing pasid = true) (va : Nat) : s.candidate pasid va = none := by
  unfold State.candidate
  split
  · rfl
  · exact if_neg fun hc => by simp [h] at hc

section
variable {pasid va : Nat} {w : Walk}

/-- A page that the Percolator may ask for. -/
theorem State.candidate_some (hw : s.walk pasid va = .ok w) (ht : s.tearing pasid = false) (ha : s.perc.policy.auto = 1) (hz : w.size = 16)
    (hp : w.isPeer = false) (h58 : bitAt w.leaf 58 = false) (h57 : bitAt w.leaf 57 = false) (hh : w.tierOf ≠ .host)
    (hm : s.motionOf pasid (va / 2 ^ 16 * 2 ^ 16) = none) (hq : ∀ q ∈ s.perc.queue, q.pasid ≠ pasid ∨ q.va ≠ va / 2 ^ 16 * 2 ^ 16) :
    s.candidate pasid va = some w := by
  have hpage : wholePage va w.size = va / 2 ^ 16 * 2 ^ 16 := by rw [hz, wholePage]
  have hany : (s.perc.queue.any fun q => q.pasid == pasid && q.va == va / 2 ^ 16 * 2 ^ 16) = false := by
    rw [List.any_eq_false]
    intro q hmem hc
    obtain ⟨hpas, hva⟩ := Bool.and_eq_true_iff.mp hc
    exact (hq q hmem).elim (· (eq_of_beq hpas)) (· (eq_of_beq hva))
  unfold State.candidate
  rw [hw]
  dsimp only
  rw [hpage, hm, hany]
  exact if_pos ⟨ha, by simp [ht], hz, by simp [hp], hh, by simp [h58], by simp [h57], rfl, by simp⟩

theorem exec_promotion (h : s.candidate pasid va = some w) (hp : s.perc.policy.promo ≠ 0) (ht : w.tierOf ≠ .hbm) (h54 : bits w.leaf 54 3 ≤ 1) :
    exec (.promotion pasid va) s = if s.perc.policy.promo ≤ s.hotOf w then .next (s.askOwn pasid va w .hbm) else .next s := by
  show execPromotion pasid va s = _
  rw [execPromotion, h]
  exact if_congr (by simp [hp, ht, h54]) rfl rfl

theorem exec_demotion (h : s.candidate pasid va = some w) (ht : w.tierOf = .hbm) (hf : s.perc.freeHbm < s.perc.policy.lowmark * 2 ^ 30) :
    exec (.demotion pasid va) s = if s.hotOf w ≤ s.perc.policy.demo then .next (s.askOwn pasid va w (demoteTier w.leaf)) else .next s := by
  show execDemotion pasid va s = _
  rw [execDemotion, h]
  exact if_congr ⟨fun hc => hc.2.2, fun hc => ⟨ht, hf, hc⟩⟩ rfl rfl

end

/-! ### Copied chunks (R273) -/

theorem Memory.ofNat_nat (n : Nat) : ∀ (m : Memory) (a j : Nat), j < n → BitVec.ofNat 8 (Memory.nat m a n / 256 ^ j) = m.byte (a + j) := by
  induction n with
  | zero => intro m a j h; omega
  | succ n ih =>
    intro m a j h
    have hb := (m.byte a).isLt
    rw [Memory.nat]
    rcases j with _ | j
    · rw [pow_zero, Nat.div_one]
      refine BitVec.eq_of_toNat_eq ((BitVec.toNat_ofNat _ _).trans ?_)
      show _ = (m.byte a).toNat
      omega
    · have hd : ((m.byte a).toNat + 256 * Memory.nat m (a + 1) n) / 256 ^ (j + 1) = Memory.nat m (a + 1) n / 256 ^ j := by
        rw [Nat.pow_succ', ← Nat.div_div_eq_div_mul]
        congr 1
        omega
      rw [hd, ih m (a + 1) j (by omega), Nat.add_assoc, Nat.add_comm 1]

/-- Cleaning sectors changes the poison and the event buffer alone. -/
theorem State.cleanSectors_eq (s : State) (p : Place) (a n : Nat) : ∃ po th, s.cleanSectors p a n = { s with poison := po, thyme := th } := by
  have hone (s : State) (k : Nat) : ∃ po th, s.cleanSector p k = { s with poison := po, thyme := th } := by
    unfold State.cleanSector
    split
    · dsimp only
      split
      · exact ⟨_, _, rfl⟩
      · exact ⟨_, _, rfl⟩
    · exact ⟨_, _, rfl⟩
  unfold State.cleanSectors
  induction (sectorsOf a n).filter (coversSector a n) generalizing s with
  | nil => exact ⟨_, _, rfl⟩
  | cons k l ih =>
    obtain ⟨po, th, h⟩ := hone s k
    rw [List.foldl_cons, h]
    obtain ⟨po', th', h'⟩ := ih { s with poison := po, thyme := th }
    exact ⟨po', th', h'⟩

theorem State.tierMem_cleanSectors (s : State) (p : Place) (a n : Nat) (t : Tier) : (s.cleanSectors p a n).tierMem t = s.tierMem t := by
  obtain ⟨po, th, h⟩ := s.cleanSectors_eq p a n
  rw [h]
  cases t <;> rfl

theorem State.tierMem_copyChunk (s : State) (m : Motion) (c : Nat) (t : Tier) : (s.copyChunk m c).tierMem t = if t = m.dstTier then
    Memory.putNat (s.tierMem m.dstTier) (m.dst + c * 2048) 2048 (Memory.nat (s.tierMem m.srcTier) (m.src + c * 2048) 2048) else s.tierMem t := by
  unfold State.copyChunk
  rw [State.tierMem_cleanSectors, State.tierMem_setTierMem]
  rfl

/-! ### Migrations (R271 to R276) -/

theorem Percolator.pool_setPool (p : Percolator) {t : Tier} (x : FramePool) (h : t ≠ .host) : (p.setPool t x).pool t = x := by
  cases t with
  | host => exact absurd rfl h
  | hbm => rfl
  | lpddr => rfl
  | cxl => rfl

theorem Motion.join_new (m : Motion) (hm : m.by_ = []) (ho : m.own = false) (q : Option Requester) :
    m.join q = { m with by_ := q.toList, own := q.isNone } := by
  cases q with
  | none => simp [Motion.join, hm]
  | some r => simp [Motion.join, hm, ho]

theorem Motion.nextChunk_eq {m : Motion} {c : Nat} (hb : ∀ j < c, bitAt m.map j = true) (hc : bitAt m.map c = false) (h : c < 32) :
    m.nextChunk = some c := by
  unfold Motion.nextChunk upto
  rw [List.find?_range_eq_some]
  simpa [hc, h] using hb

theorem State.perc_placeRecord (s : State) (die cluster : Nat) (f : FaultRec) : (s.placeRecord die cluster f).perc = s.perc := by
  have hstore (s : State) (k : Nat) (f : FaultRec) : (s.storeRecord die k f).perc = s.perc := by
    obtain ⟨po, th, h⟩ := s.cleanSectors_eq (.tier .lpddr) ((s.die die).addrOf k) 64
    unfold State.storeRecord
    dsimp only
    rw [h]
  unfold State.placeRecord
  dsimp only [State.log]
  rw [hstore]
  rfl

/-- A record is no register of the Percolator. -/
theorem State.perc_emitRecord (s : State) (die cluster : Nat) (f : FaultRec) : (s.emitRecord die cluster f).perc = s.perc := by
  have hturn : (s.inTurn die f).perc = s.perc := by
    unfold State.inTurn State.tick
    split <;> rfl
  unfold State.emitRecord
  dsimp only
  split
  · exact hturn
  · rw [State.perc_placeRecord]
    exact hturn

theorem State.perc_raiseHalt (s : State) (pasid cause task : Nat) : (s.raiseHalt pasid cause task).perc = s.perc := by
  unfold State.raiseHalt
  dsimp only
  split <;> rfl

theorem State.perc_setTierMem (s : State) (t : Tier) (x : Memory) : (s.setTierMem t x).perc = s.perc := by cases t <;> rfl

theorem State.perc_writeBits (s : State) (p : Place) (bit w v : Nat) : (s.writeBits p bit w v).perc = s.perc := by
  cases p with
  | tier t =>
    unfold State.writeBits
    dsimp only
    split
    · rw [State.perc_setTierMem, State.perc_setTierMem]
    · rw [State.perc_setTierMem]
  | _ => rfl

theorem State.perc_clearMot (s : State) (m : Motion) : (s.clearMot m).perc = s.perc := by
  unfold State.clearMot
  split
  · exact (State.perc_raiseHalt _ _ _ _).trans (State.perc_emitRecord _ _ _ _)
  · exact State.perc_writeBits _ _ _ _ _

/-- What becomes of a request for a page that is in no motion. -/
theorem State.judge_resting {q : MigReq} {w : Walk} (hb : (s.die q.die).heldBackground < 64) (ht : s.tearing q.pasid = false)
    (hw : s.walk q.pasid q.va = .ok w) (hz : w.size = 16) (hh : w.tierOf ≠ .host) (hp : w.isPeer = false) (hm : s.motionOf q.pasid q.va = none) :
    s.judge q = if w.tierOf = q.tier then .done
      else if bitAt w.leaf 58 then .refuse 16
      else if s.homeFull w.tierOf w.frame then .wait
      else match (s.perc.pool q.tier).take with | none => .refuse 0 | some (a, p) => .move w a p := by
  unfold State.judge
  rw [if_neg (Nat.not_le.mpr hb), if_neg (by simp [ht]), hw]
  dsimp only
  rw [if_neg (by simp [hz, hh, hp]), hm] <;> rfl

section
variable {k : Nat} {q : MigReq} (h : s.perc.queue[k]? = some q)
include h

/-- MIGRATION_ACCEPT of a request that has nothing to do. -/
theorem exec_migrationAccept_done (hj : s.judge q = .done) :
    exec (.migrationAccept k) s = .next (s.updPerc fun p => { p with queue := p.queue.eraseIdx k }) := by
  show execMigrationAccept k s = _
  rw [execMigrationAccept, h]
  dsimp only
  rw [hj]

/-- MIGRATION_ACCEPT of a request that is refused. -/
theorem exec_migrationAccept_refuse {n : Nat} (hj : s.judge q = .refuse n) : exec (.migrationAccept k) s =
    .next ((s.updPerc fun p => { p with queue := p.queue.eraseIdx k }).refuseMove q.pasid q.va n q.die q.by_) := by
  show execMigrationAccept k s = _
  rw [execMigrationAccept, h]
  dsimp only
  rw [hj]

/-- MIGRATION_ACCEPT of a request whose page begins to move. -/
theorem exec_migrationAccept_move {w : Walk} {dst : Nat} {pool : FramePool} (hj : s.judge q = .move w dst pool) : exec (.migrationAccept k) s =
    .next (((s.updPerc fun p => { p with queue := p.queue.eraseIdx k }).updPerc fun p =>
      { p.drain.setPool q.tier pool with
          motions := p.motions ++ [({ pasid := q.pasid, va := q.va, srcTier := w.tierOf, src := w.frame, dstTier := q.tier, dst := dst,
                                      leafTier := w.tier, leaf := w.addr } : Motion).join q.by_]
          hot := Map.set 0 p.drain.hot (hotKey q.tier dst 16) 0 }).setLeaf w (putField w.leaf 59 1 1)) := by
  show execMigrationAccept k s = _
  rw [execMigrationAccept, h]
  dsimp only
  rw [hj]

end

section
variable {k : Nat} {m : Motion} (h : s.perc.motions[k]? = some m)
include h

theorem exec_chunkCopy {c : Nat} (hs : m.state = .moving) (hc : m.nextChunk = some c) : exec (.chunkCopy k) s =
    if s.chunkPoisoned m c then .next (s.abortMotion m.pasid m.va 2) else .next ((s.copyChunk m c).setMotion k { m with map := m.map + 2 ^ c }) := by
  show execChunkCopy k s = _
  rw [execChunkCopy, h]
  dsimp only
  rw [hs, hc]

theorem exec_commit_partial (hf : m.map < 2 ^ 32 - 1) : exec (.commit k) s = .next s := by
  show execCommit k s = _
  rw [execCommit, h]
  have hfull : m.full = false := by
    unfold Motion.full
    simpa using Nat.ne_of_lt hf
  exact if_pos (.inr (by simp [hfull]))

theorem exec_commit (hs : m.state = .moving) (hf : m.map = 2 ^ 32 - 1) : exec (.commit k) s =
    if s.leafPoisoned m then .next ((s.leafFault m).abortMotion m.pasid m.va 3)
    else if !leafHolds (s.leafOf m) m.srcTier m.src then .next (s.abortMotion m.pasid m.va 3)
    else .next (((s.setMotion k { m with state := .committing }).putLeaf m
      (putField (putField (s.leafOf m) 60 2 m.dstTier.num) 16 32 (m.dst / pageBytes))).log { time := s.cycle, pasid := m.pasid, kind := 0x30, addr := m.va }) := by
  show execCommit k s = _
  rw [execCommit, h]
  have hfull : m.full = true := by
    unfold Motion.full
    simpa using hf
  exact if_neg (by simp [hs, hfull])

theorem exec_migrationRelease (hs : m.state = .committing) : exec (.migrationRelease k) s =
    .next (((((s.clearMot m).shoot (shootPage m.pasid m.va)).passAccesses m).updPerc fun p => { p with motions := p.motions.eraseIdx k }).freeFrame
      m.srcTier m.src) := by
  show execMigrationRelease k s = _
  rw [execMigrationRelease, h]
  exact if_neg (not_not.mpr hs)

theorem exec_abortComplete (hs : m.state = .aborted) : exec (.abortComplete k) s =
    .next (((s.clearMot m).updPerc fun p => { p with motions := p.motions.eraseIdx k }).freeFrame m.dstTier m.dst) := by
  show execAbortComplete k s = _
  rw [execAbortComplete, h]
  exact if_neg (not_not.mpr hs)

theorem exec_migrationAbort {reason : Nat} (hs : m.state = .moving) (ha : s.abortStrikes m reason = true) :
    exec (.migrationAbort k reason) s = .next (s.abortMotion m.pasid m.va reason) := by
  show execMigrationAbort k reason s = _
  rw [execMigrationAbort, h]
  exact congrArg Host.Outcome.next (if_pos (by simp [hs, ha]))

end

end Sys2Proof.Machine

open Sys2Proof Sys2Proof.Machine

/-- Settles O40: what the samples due and a halving do to a counter, and whom PROMOTION and DEMOTION ask for. -/
theorem hotnessEvents : Obligations.HotnessEvents := by
  intro s pasid va key w
  refine ⟨⟨_, rfl, rfl, fun hr => get_addSamples key _ hr⟩, fun hc hd => ⟨_, if_neg (not_not.mpr (State.untilDecay_now hc)), fun hr => ?_, rfl⟩,
    fun n hn h0 h63 => if_pos ?_, fun ht => ⟨?_, ?_⟩, ?_⟩
  · rw [← get_halved s.perc.hot hr key, ← Percolator.drain_hot hd]
    rfl
  · unfold State.untilDecay
    dsimp only
    rw [← hn, if_neg (Nat.not_le.mpr h63)]
    exact Nat.ne_of_gt h0
  · show execPromotion pasid va s = _
    rw [execPromotion, State.candidate_tearing ht]
  · show execDemotion pasid va s = _
    rw [execDemotion, State.candidate_tearing ht]
  · rintro _ rfl hw ht ha hz hp h58 h57 hm hq
    refine ⟨fun hs hpromo h54 => ?_, fun hs hf => ?_⟩
    · have hc := State.candidate_some hw ht ha hz hp h58 h57 (by obtain h | h := hs <;> rw [h] <;> exact Tier.noConfusion) hm hq
      rw [exec_promotion hc hpromo (by obtain h | h := hs <;> rw [h] <;> exact Tier.noConfusion) h54]
      exact ⟨fun h => if_pos h, fun h => if_neg (Nat.not_le.mpr h)⟩
    · have hc := State.candidate_some hw ht ha hz hp h58 h57 (by rw [hs]; exact Tier.noConfusion) hm hq
      rw [exec_demotion hc hs hf]
      exact ⟨fun h => if_pos h, fun h => if_neg (Nat.not_le.mpr h)⟩

/-- Settles O42: the destination reads as the bytes put there, and cleaning its sectors is no write. -/
theorem copiedChunk : Obligations.CopiedChunk := by
  intro s m c hwf hne
  refine ⟨fun j hj => ?_, fun t a ha => ?_⟩
  · rw [State.tierMem_copyChunk, if_pos rfl, Nat.mul_comm 2048, Memory.byte_putNat _ _ _ _ hwf hj, Memory.ofNat_nat _ _ _ _ hj]
  · rw [State.tierMem_copyChunk]
    split
    · next ht =>
      have hout := ha.resolve_left (not_not.mpr ht)
      rw [ht]
      exact Memory.byte_putNat_other _ _ _ (by omega)
    · rfl

/-- Settles O41: each event on the request or the motion that its index names. -/
theorem migrationEvents : Obligations.MigrationEvents := by
  intro s k a reason q m w pool
  refine ⟨fun hq hb ht hw hz hh hp hm => ?accept, fun h => ⟨fun hs c hlow hc h32 => ?copy, fun hs hf hp => ?poisoned, fun hs hf hp => ?commit, fun hs hf => exec_commit_partial h hf,
    ?release, fun hs ha => exec_migrationAbort h hs ha⟩⟩
  case accept =>
    have hj := State.judge_resting hb ht hw hz hh hp hm
    refine ⟨fun h1 => exec_migrationAccept_done hq (hj.trans (if_pos h1)), fun h1 h2 => exec_migrationAccept_refuse hq ?_, fun h1 h2 h3 h4 => ⟨_, exec_migrationAccept_move hq (w := w) (dst := a) (pool := pool) ?_, ?_, ?_, ?_⟩⟩
    · rw [hj, if_neg h1, if_pos h2]
    · rw [hj, if_neg h1, if_neg (by simp [h2]), if_neg (by simp [h3]), h4]
    · cases q.tier <;> rfl
    · exact fun hn => Percolator.pool_setPool _ pool hn
    · exact congrArg (fun x => s.perc.motions ++ [x]) (Motion.join_new _ rfl rfl q.by_)
  case copy =>
    rw [exec_chunkCopy h hs (Motion.nextChunk_eq hlow hc h32)]
    exact ⟨fun hp => if_neg (by simp [hp]), fun hp => if_pos hp⟩
  case poisoned => exact (exec_commit h hs hf).trans (if_pos hp)
  case commit =>
    rw [exec_commit h hs hf, if_neg (by simp [hp])]
    exact ⟨fun hl => if_neg (by simp [hl]), fun hl => if_pos (by simp [hl])⟩
  case release =>
    rintro _ rfl
    refine ⟨fun hs => ⟨_, exec_migrationRelease h hs, ?_, rfl⟩, fun hs => exec_abortComplete h hs⟩
    show (s.clearMot m).perc.motions.eraseIdx k = s.perc.motions.eraseIdx k
    rw [State.perc_clearMot]
end

section
/-! PROOFS. What the tier forms do at a page of their range, and where they stop (R281 to R288). -/

namespace Sys2Proof.Machine

/-! ### A block at a page -/

theorem State.ref_issued (s : State) (i : Instr) : (s.issued i).ref = s.ref := by
  have hn : (match lParts i with | some (_, _, b) => (s.noteHandle s.ref b.a).noteHandle s.ref b.d | none => s).ref = s.ref := by
    split
    · next b _ =>
      obtain ⟨m, p, h1, -⟩ := s.noteHandle_eq s.ref b.a
      obtain ⟨m', p', h2, -⟩ := State.noteHandle_eq { s with tiles := m, perc := p } s.ref b.d
      rw [h1, h2]
    · rfl
  rw [State.issued, State.startBlock_eq]
  dsimp only
  split
  · simp only [State.log_frame, State.updSlot_frame]
    exact hn
  · simp only [State.updSlot_frame]
    exact hn

section
variable {s t t1 : State} {i : Instr} {rb roff n extra k a j : Nat} {page : Nat → PageStep}

/-- A block on a page is in the list of its engine, and counts the pages before this one. -/
theorem State.OnPage.entry (h : s.OnPage i rb roff n t k a j) : ∃ f, (t.chain s.ref).inflight[k]? = some f ∧ f.ctr = j := by
  obtain ⟨-, ⟨-, rfl, rfl, rfl, -⟩ | ⟨rfl, -, -, hf⟩⟩ := h
  · exact ⟨_, s.entry_startBlock i none, rfl⟩
  · exact hf

/-- Issuing or running on, the block does that page. -/
theorem State.OnPage.runTier_eq (h : s.OnPage i rb roff n t k a j) :
    s.runTier i rb roff n extra page = t.runPage s.ref k (n + extra) (page a) := by
  obtain ⟨ha, ⟨hi, rfl, rfl, -, h0, hle⟩ | ⟨rfl, hr, hk, -⟩⟩ := h
  · rw [State.runTier, hi.fresh]
    refine State.runStep_ok hi.goes ?_
    have hv : rbAddr (s.issued i) (s.issued i).ref rb roff = (a : Int) := by rw [s.ref_issued i, ha]
    refine (if_neg (by dsimp only; rw [hv]; omega)).trans ((if_neg (by dsimp only; rw [hv]; omega)).trans ?_)
    dsimp only
    rw [hv, Int.toNat_natCast]
  · rw [State.runTier, hk]
    dsimp only
    rw [if_pos hr, ha, Int.toNat_natCast]

/-- The page is done. -/
theorem State.OnPage.done (h : s.OnPage i rb roff n t k a j) (hp : page a t s.ref k j = .next t1) :
    s.runTier i rb roff n extra page = t1.pageDone s.ref k (n + extra) := by
  obtain ⟨f, hf, rfl⟩ := h.entry
  rw [h.runTier_eq, State.runPage, hf]
  dsimp only
  rw [hp]
  rfl

/-- The block waits at the page. -/
theorem State.OnPage.waits (h : s.OnPage i rb roff n t k a j) (hp : page a t s.ref k j = .wait t1) :
    s.runTier i rb roff n extra page = t1.pageWaits s.ref k := by
  obtain ⟨f, hf, rfl⟩ := h.entry
  rw [h.runTier_eq, State.runPage, hf]
  dsimp only
  rw [hp]
  rfl

/-- The block stops at the page. -/
theorem State.OnPage.stops {e : BlockFault} (h : s.OnPage i rb roff n t k a j) (hp : page a t s.ref k j = .fault t1 e)
    (hc : t1.chain s.ref = t.chain s.ref) : s.runTier i rb roff n extra page = t1.pageStops s.ref k e := by
  obtain ⟨f, hf, rfl⟩ := h.entry
  rw [h.runTier_eq, State.runPage, hf]
  dsimp only
  rw [hp]
  dsimp only
  unfold State.pageStops
  rw [hc, hf]
  rfl

end

section
variable {s : State} {i : Instr} {rb roff n extra : Nat} {page : Nat → PageStep} {v : Int} (h : s.Issues i)
  (hv : v = rbAddr (s.issued i) s.ref rb roff)
include h hv

/-- A range that does not start on 64 KiB faults at issue. -/
theorem State.Issues.runTier_misaligned (hm : v % (pageBytes : Nat) ≠ 0) :
    s.runTier i rb roff n extra page = s.issueStop s.ref { cause := .misalignedWindow, fva := wrapTo 64 v } := by
  have hw : rbAddr (s.issued i) (s.issued i).ref rb roff = v := by rw [s.ref_issued i, hv]
  rw [State.runTier, h.fresh]
  refine State.runStep_error h.goes ((if_pos (by dsimp only; rw [hw]; exact hm)).trans ?_)
  dsimp only
  rw [hw]

/-- One that leaves the VA space does too. -/
theorem State.Issues.runTier_outside (hm : v % (pageBytes : Nat) = 0) (ho : v < 0 ∨ (vaLimit : Int) < v + (n * pageBytes : Nat)) :
    s.runTier i rb roff n extra page = s.issueStop s.ref { cause := .permission, fva := wrapTo 64 v } := by
  have hw : rbAddr (s.issued i) (s.issued i).ref rb roff = v := by rw [s.ref_issued i, hv]
  rw [State.runTier, h.fresh]
  refine State.runStep_error h.goes ((if_neg (by dsimp only; rw [hw]; exact not_not.mpr hm)).trans ((if_pos (by dsimp only; rw [hw]; exact ho)).trans ?_))
  dsimp only
  rw [hw]

end

/-! ### Walks that fail, and what a form skips -/

section
variable {s : State} {r : EngRef} {va j n k : Nat} {w : Walk} {e : Cause}

/-- The PASID of a block's pages. -/
theorem State.requester_pasid (s : State) (r : EngRef) (k : Nat) (b : Bool) : (s.requester r k b).pasid = (s.task (s.taskOf r)).pasid := rfl

/-- MIGR at a page whose walk fails. -/
theorem migrPage_error {x : Tier} (h : s.walk (s.task (s.taskOf r)).pasid (pageVa va j) = .error e) (he : e ≠ .notPresent) :
    migrPage x n va s r k j = .fault s (pageFault e (pageVa va j) j n) := by
  unfold migrPage
  dsimp only
  rw [State.requester_pasid, h]
  split
  · next h' => cases h'; exact absurd rfl he
  · next h' => cases h'; rfl
  · next h' => cases h'

/-- MPIN at such a page. -/
theorem mpinPage_error (h : s.walk (s.task (s.taskOf r)).pasid (pageVa va j) = .error e) :
    mpinPage n va s r k j = .fault s (pageFault e (pageVa va j) j n) := by
  unfold mpinPage
  dsimp only
  rw [h]

/-- MUNPIN and MADV at such a page. -/
theorem leafPage_error {f : Nat → Nat} (h : s.walk (s.task (s.taskOf r)).pasid (pageVa va j) = .error e) (he : e ≠ .notPresent) :
    leafPage f n va s r k j = .fault s (pageFault e (pageVa va j) j n) := by
  unfold leafPage
  dsimp only
  rw [h]
  split
  · next h' => cases h'; exact absurd rfl he
  · next h' => cases h'; rfl
  · next h' => cases h'

/-- MHOT at such a page. -/
theorem mhotPage_error {x off : Nat} (h : s.walk (s.task (s.taskOf r)).pasid (pageVa va j) = .error e) (he : e ≠ .notPresent) :
    mhotPage x off n va s r k j = .fault s (pageFault e (pageVa va j) j n) := by
  unfold mhotPage
  dsimp only
  rw [h]
  split
  · next h' => cases h'; exact absurd rfl he
  · next h' => cases h'; rfl
  · next h' => cases h'

/-- MQRY at such a page. -/
theorem mqryPage_error {off : Nat} (h : s.walk (s.task (s.taskOf r)).pasid (pageVa va j) = .error e) (he : e ≠ .notPresent) :
    mqryPage off n va s r k j = .fault s (pageFault e (pageVa va j) j n) := by
  unfold mqryPage
  dsimp only
  rw [h]
  split
  · next h' => cases h'; exact absurd rfl he
  · next h' => cases h'; rfl
  · next h' => cases h'

end

/-! ### Pages that a form works on -/

section
variable {s t : State} {r : EngRef} {va j n k : Nat} {w : Walk}
  (h : s.walk (s.task (s.taskOf r)).pasid (pageVa va j) = .ok w)
include h

/-- MIGR passes a later unit of a page, and a page that rests in the tier. -/
theorem migrPage_stays {x : Tier}
    (hw : firstUnit va j w.size = false ∨ s.restsIn (s.task (s.taskOf r)).pasid (pageVa va j) w x = true) : migrPage x n va s r k j = .next s := by
  unfold migrPage
  dsimp only
  rw [State.requester_pasid, h]
  exact if_pos (by obtain hw | hw := hw <;> simp [hw])

/-- It asks for another. -/
theorem migrPage_asks {x : Tier} (hf : firstUnit va j w.size = true) (hw : s.restsIn (s.task (s.taskOf r)).pasid (pageVa va j) w x = false)
    (ha : s.ask (s.requester r k false) (wholePage (pageVa va j) w.size) x = some t) : migrPage x n va s r k j = .next t := by
  unfold migrPage
  dsimp only
  rw [State.requester_pasid, h]
  refine (if_neg (by simp [hf, hw])).trans ?_
  rw [ha]

/-- MPIN pins a page in no motion. -/
theorem mpinPage_pins (hf : firstUnit va j w.size = true) (hm : s.motionOf (s.task (s.taskOf r)).pasid (wholePage (pageVa va j) w.size) = none) :
    mpinPage n va s r k j = .next (s.setLeaf w (putField w.leaf 58 1 1)) := by
  unfold mpinPage
  dsimp only
  rw [h]
  exact (if_neg (by simp [hf])).trans (if_neg (by simp [hm]))

/-- It waits for the end of a motion. -/
theorem mpinPage_waits (hf : firstUnit va j w.size = true) (hm : s.motionOf (s.task (s.taskOf r)).pasid (wholePage (pageVa va j) w.size) ≠ none) :
    mpinPage n va s r k j = .wait s := by
  unfold mpinPage
  dsimp only
  rw [h]
  exact (if_neg (by simp [hf])).trans (if_pos (Option.isSome_iff_ne_none.mpr hm))

/-- MUNPIN and MADV rewrite the leaf entry. -/
theorem leafPage_writes {f : Nat → Nat} (hf : firstUnit va j w.size = true) : leafPage f n va s r k j = .next (s.setLeaf w (f w.leaf)) := by
  unfold leafPage
  dsimp only
  rw [h]
  exact if_pos hf

/-- MHOT reports the HOT of a unit, and leaves the counter with CLR 0 or at a later unit. -/
theorem mhotPage_reports {x off : Nat} (hx : ¬ (x = 1 ∧ firstUnit va j w.size = true)) :
    mhotPage x off n va s r k j = .next (s.pageWrites r k (8 * (off + j)) 8 (s.hotUnit r k va j w) (s.hotUnit r k va j w)) := by
  unfold mhotPage
  dsimp only
  rw [h]
  exact if_neg hx

/-- With CLR 1 it clears the counter at the first unit. -/
theorem mhotPage_clears {off : Nat} (hf : firstUnit va j w.size = true) : mhotPage 1 off n va s r k j =
    .next (({ s with perc := { s.perc.drain with hot := Map.set 0 s.perc.drain.hot (s.hotKeyOf w) 0 } } : State).pageWrites
      r k (8 * (off + j)) 8 (s.hotUnit r k va j w) (s.hotUnit r k va j w)) := by
  unfold mhotPage
  dsimp only
  rw [h]
  exact if_pos ⟨rfl, hf⟩

/-- MQRY reports the motion and the HOT of a page. -/
theorem mqryPage_reports {off : Nat} : mqryPage off n va s r k j =
    .next (s.pageWrites r k (8 * (off + 8 * j)) 64
      (queryRecord (s.motionOf (s.task (s.taskOf r)).pasid (wholePage (pageVa va j) w.size)) w (s.hotUnit r k va j w)) (s.hotUnit r k va j w)) := by
  unfold mqryPage
  dsimp only
  rw [h]
  rfl

end

section
variable {s : State} {r : EngRef} {va j n k off : Nat} {w : Walk}

/-- HOT of a page's first unit is read there. -/
theorem State.hotUnit_first (hf : firstUnit va j w.size = true) : s.hotUnit r k va j w = s.hotOf w := if_pos hf

/-- The block keeps it for the later ones. -/
theorem State.hotUnit_later {g : InFlight} (hf : firstUnit va j w.size = false) (hg : (s.chain r).inflight[k]? = some g) :
    s.hotUnit r k va j w = g.hot := by
  unfold State.hotUnit
  rw [if_neg (by simp [hf]), hg]
  rfl

/-- MQRY of a page that is not present. -/
theorem mqryPage_absent (h : s.walk (s.task (s.taskOf r)).pasid (pageVa va j) = .error .notPresent) :
    mqryPage off n va s r k j = .next (s.pageWrites r k (8 * (off + 8 * j)) 64 (4 * 2 ^ 61) 0) := by
  unfold mqryPage
  dsimp only
  rw [h]
  rfl

/-- MABRT at a page in no motion. -/
theorem mabrtPage_still (hj : j < n) (h : s.motionOf (s.task (s.taskOf r)).pasid (pageVa va j) = none) : mabrtPage n va s r k j = .next s := by
  unfold mabrtPage
  dsimp only
  rw [if_pos hj, h]

/-- At one whose copying goes on. -/
theorem mabrtPage_aborts {m : Motion} (hj : j < n) (h : s.motionOf (s.task (s.taskOf r)).pasid (pageVa va j) = some m) (hm : m.state = .moving) :
    mabrtPage n va s r k j = .next (s.abortMotion (s.task (s.taskOf r)).pasid (pageVa va j) 5) := by
  unfold mabrtPage
  dsimp only
  rw [if_pos hj, h]
  exact congrArg PageOut.next (if_pos hm)

/-- Its last step ends once nothing of the range is in motion. -/
theorem mabrtPage_ends (hj : n ≤ j)
    (h : (s.perc.motions.all fun m => m.pasid != (s.task (s.taskOf r)).pasid || decide (m.va < va) || decide (va + n * pageBytes ≤ m.va)) = true) :
    mabrtPage n va s r k j = .next s := by
  unfold mabrtPage
  dsimp only
  rw [if_neg (Nat.not_lt.mpr hj)]
  refine if_neg ?_
  simp only [List.any_eq_true, not_exists, not_and, Bool.and_eq_true, decide_eq_true_eq, beq_iff_eq]
  simp only [List.all_eq_true, Bool.or_eq_true, bne_iff_ne, decide_eq_true_eq] at h
  intro m hm hva hlt
  obtain (hp | hlo) | hhi := h m hm
  · exact hp hva.1
  · exact absurd hva.2 (Nat.not_le.mpr hlo)
  · exact absurd hlt (Nat.not_lt.mpr hhi)

end

/-! ### MIGRS -/

section
variable {s : State} {r : EngRef} {va j n k : Nat} {x : Tier} {q : Requester} (hq : q = s.requester r k true)
include hq

/-- MIGRS stops at a page whose motion has ended in an abort. -/
theorem migrsPage_aborted {m : AbortNote} (h : (s.perc.aborts.find? fun m => m.who.same q && holdsUnit (pageVa va j) m.va) = some m) :
    migrsPage x n va s r k j = .fault (({ s with perc := { s.perc with
        aborts := s.perc.aborts.filter fun y => !(y.who.same q && holdsUnit (pageVa va j) y.va) } } : State).flushNotes q)
      (pageFault (noteCause m.reason) (pageVa va j) j n) := by
  subst hq
  unfold migrsPage
  dsimp only
  rw [h]

variable (ha : (s.perc.aborts.all fun m => !(m.who.same q && holdsUnit (pageVa va j) m.va)) = true)
  (hk : s.asked q (holdsUnit (pageVa va j)) = false)
include ha hk

theorem migrsPage_looks : migrsPage x n va s r k j =
    match s.walk (s.task (s.taskOf r)).pasid (pageVa va j) with
    | .error c => .fault (s.flushNotes q) (pageFault c (pageVa va j) j n)
    | .ok w =>
      if !firstUnit va j w.size || s.restsIn q.pasid (pageVa va j) w x then .next s
      else if bitAt w.leaf 58 && (s.motionOf q.pasid (pageVa va j)).isNone then .fault (s.flushNotes q) (pageFault .pinnedConflict (pageVa va j) j n)
      else .wait (((upto n).filter fun m => m == j || decide (j < m) && s.freeBit (2 ^ 33 + m)).foldl (fun s m => s.askPage q x va m) s) := by
  subst hq
  have hn : (s.perc.aborts.find? fun m => m.who.same (s.requester r k true) && holdsUnit (pageVa va j) m.va) = none :=
    List.find?_eq_none.mpr fun m hm => Bool.eq_false_iff.mp ((Bool.not_eq_true' _).mp (List.all_eq_true.mp ha m hm))
  unfold migrsPage
  dsimp only
  rw [hn]
  exact if_neg (by simp [hk])

/-- At a page whose walk fails it stops. -/
theorem migrsPage_error {e : Cause} (h : s.walk (s.task (s.taskOf r)).pasid (pageVa va j) = .error e) :
    migrsPage x n va s r k j = .fault (s.flushNotes q) (pageFault e (pageVa va j) j n) := by
  rw [migrsPage_looks hq ha hk, h]

variable {w : Walk} (h : s.walk (s.task (s.taskOf r)).pasid (pageVa va j) = .ok w)
include h

/-- It passes a later unit of a page, and a page that rests in the tier. -/
theorem migrsPage_stays (hw : firstUnit va j w.size = false ∨ s.restsIn (s.task (s.taskOf r)).pasid (pageVa va j) w x = true) :
    migrsPage x n va s r k j = .next s := by
  rw [migrsPage_looks hq ha hk, h]
  subst hq
  exact if_pos (by obtain hw | hw := hw <;> simp [hw, State.requester_pasid])

/-- It stops at a pinned page. -/
theorem migrsPage_pinned (hf : firstUnit va j w.size = true) (hr : s.restsIn (s.task (s.taskOf r)).pasid (pageVa va j) w x = false)
    (hp : bitAt w.leaf 58 = true) (hm : s.motionOf (s.task (s.taskOf r)).pasid (pageVa va j) = none) :
    migrsPage x n va s r k j = .fault (s.flushNotes q) (pageFault .pinnedConflict (pageVa va j) j n) := by
  rw [migrsPage_looks hq ha hk, h]
  subst hq
  exact (if_neg (by simp [hf, hr, State.requester_pasid])).trans (if_pos (by simp [hp, hm, State.requester_pasid]))

end

theorem Slot.chain_tick (x : Slot) (dt : Nat) (e : Engine) : (x.tick dt).ctx.chain e = x.ctx.chain e := by
  unfold Slot.tick
  split <;> rfl

theorem State.chain_emitRecord (s : State) (die cluster : Nat) (f : FaultRec) (r : EngRef) :
    (s.emitRecord die cluster f).chain r = s.chain r := by
  unfold State.chain State.ctx
  obtain h | h := s.slotAt_emitRecord die cluster f r.tile r.slot <;> rw [h]
  exact Slot.chain_tick _ _ _

theorem State.chain_backgroundRecord (s : State) (pasid va code die : Nat) (q : Option Requester) (r : EngRef) :
    (s.backgroundRecord pasid va code die q).chain r = s.chain r := by
  unfold State.backgroundRecord
  cases q with
  | none => exact State.chain_emitRecord ..
  | some w => exact State.chain_emitRecord ..

/-- The abort notes that become background records leave every chain as it is. -/
theorem State.chain_flushNotes (s : State) (q : Requester) (r : EngRef) : (s.flushNotes q).chain r = s.chain r := by
  unfold State.flushNotes State.flushWhere
  refine List.foldlRecOn (motive := fun x : State => x.chain r = s.chain r) _ _ rfl fun x hx y _ => ?_
  exact (State.chain_backgroundRecord ..).trans hx

end Sys2Proof.Machine

open Sys2Proof Sys2Proof.Machine

/-- Settles O23: each form at a page of its range. -/
theorem rangeForms : Obligations.RangeForms := by
  rintro c x rb roff npg off n k a j pasid p s t w rfl rfl rfl
  refine ⟨?migr, ?migrs, ?mpin, ?munpin, ?madv, ?mabrt, ?mhot, ?mhotLater, ?mqry⟩
  case migr =>
    rintro _ _ rfl h rfl hw
    exact ⟨fun hs => congrArg _ (h.done (migrPage_stays hw hs)), fun t1 hf hr ha => congrArg _ (h.done (migrPage_asks hw hf hr ha))⟩
  case migrs =>
    rintro _ _ rfl h rfl hw ha hk hs
    exact congrArg _ (h.done (migrsPage_stays rfl ha hk hw hs))
  case mpin =>
    rintro _ rfl h hw hf
    exact ⟨fun hm => congrArg _ (h.done (mpinPage_pins hw hf hm)), fun hm => congrArg _ (h.waits (mpinPage_waits hw hf hm))⟩
  case munpin =>
    rintro _ rfl h hw hf
    exact congrArg _ (h.done (leafPage_writes hw hf))
  case madv =>
    rintro _ rfl h hw hf
    exact congrArg _ (h.done (leafPage_writes hw hf))
  case mabrt =>
    rintro _ rfl h
    exact ⟨fun hj => ⟨fun m hm hs => congrArg _ (h.done (mabrtPage_aborts hj hm hs)), fun hm => congrArg _ (h.done (mabrtPage_still hj hm))⟩,
      fun hj hm => congrArg _ (h.done (mabrtPage_ends hj hm))⟩
  case mhot =>
    rintro _ rfl h hw hf
    refine ⟨?_, ?_⟩
    · rintro rfl
      rw [← State.hotUnit_first (s := t) (r := s.ref) (k := k) hf]
      exact congrArg _ (h.done (mhotPage_reports hw (by omega)))
    · rintro rfl
      rw [← State.hotUnit_first (s := t) (r := s.ref) (k := k) hf]
      exact congrArg _ (h.done (mhotPage_clears hw hf))
  case mhotLater =>
    rintro _ g rfl h hw hf hg
    rw [← State.hotUnit_later hf hg]
    exact congrArg _ (h.done (mhotPage_reports hw (by simp [hf])))
  case mqry =>
    rintro _ rfl h
    refine ⟨fun hw hf => ?_, fun hw => congrArg _ (h.done (mqryPage_absent hw))⟩
    rw [← State.hotUnit_first (s := t) (r := s.ref) (k := k) hf]
    exact congrArg _ (h.done (mqryPage_reports hw))

/-- Settles O24: at issue by the range, at a page by its walk, its motion or its pin. -/
theorem rangeFaults : Obligations.RangeFaults := by
  rintro c x rb roff npg off n k a j pasid p s t e w q rfl rfl rfl rfl
  refine ⟨fun i hi v hv h => ?issue, fun i hi h hw he => ?walk, ?migrs, ?mabrt⟩
  case issue =>
    obtain ⟨extra, page, hx⟩ : ∃ extra page, exec i s = .next (s.runTier i rb roff (npg + 1) extra page) := by
      simp only [List.mem_cons, List.not_mem_nil, or_false] at hi
      obtain rfl | rfl | rfl | rfl | rfl | rfl | rfl | rfl := hi <;> exact ⟨_, _, rfl⟩
    rw [hx]
    exact ⟨fun hm => congrArg _ (h.runTier_misaligned hv hm), fun hm ho => congrArg _ (h.runTier_outside hv hm ho)⟩
  case walk =>
    obtain ⟨page, hx, hp⟩ : ∃ page, exec i s = .next (s.runTier i rb roff (npg + 1) 0 page) ∧
        page a t s.ref k j = .fault t (pageFault e (pageVa a j) j (npg + 1)) := by
      simp only [List.mem_cons, List.not_mem_nil, or_false] at hi
      obtain rfl | rfl | rfl | rfl | rfl | rfl := hi
      · exact ⟨_, rfl, migrPage_error hw (he.resolve_right (by simp))⟩
      · exact ⟨_, rfl, mpinPage_error hw⟩
      · exact ⟨_, rfl, leafPage_error hw (he.resolve_right (by simp))⟩
      · exact ⟨_, rfl, leafPage_error hw (he.resolve_right (by simp))⟩
      · exact ⟨_, rfl, mhotPage_error hw (he.resolve_right (by simp))⟩
      · exact ⟨_, rfl, mqryPage_error hw (he.resolve_right (by simp))⟩
    rw [hx]
    exact congrArg _ (h.stops hp rfl)
  case migrs =>
    rintro _ rfl h
    exact ⟨fun ha hk => ⟨fun hw => congrArg _ (h.stops (migrsPage_error rfl ha hk hw) (State.chain_flushNotes ..)),
        fun hw hf hr hp hm => congrArg _ (h.stops (migrsPage_pinned rfl ha hk hw hf hr hp hm) (State.chain_flushNotes ..))⟩,
      fun m hm => congrArg _ (h.stops (migrsPage_aborted rfl hm) (State.chain_flushNotes ..))⟩
  case mabrt =>
    rintro _ rfl h hj - hm
    exact congrArg _ (h.done (mabrtPage_still hj hm))

end

section
/-! PROOFS. Taking a fault: its record, the engines that it stops, and what it leaves alone (R324 to R332). -/

namespace Sys2Proof.Machine

/-! ### The record of a fault (R328) -/

/-- A record's moment is this cycle or the next. -/
theorem State.inTurn_eq (s : State) (die : Nat) (f : FaultRec) :
    ∃ cycle slots mgmt, s.inTurn die f = { s with cycle := cycle, slots := slots, mgmt := mgmt } := by
  unfold State.inTurn State.tick
  split
  · exact ⟨_, _, _, rfl⟩
  · exact ⟨_, _, _, rfl⟩

theorem FaultUnit.passed_iff {u : FaultUnit} {cycle : Nat} {f : FaultRec} : u.passed cycle f = true ↔
    u.last.1 = cycle ∧ (f.tile < u.last.2.1 ∨ (f.tile = u.last.2.1 ∧ f.eng < u.last.2.2)) := by
  simp [FaultUnit.passed]

theorem State.die_setDie {s : State} (h : s.dies.rising) (n : Nat) (u : FaultUnit) : (s.setDie n u).die n = u :=
  (Map.get_set _ h n n u).trans (if_pos rfl)

/-- A record of a place stands in device memory. -/
theorem State.storeRecord_eq (s : State) (die k : Nat) (f : FaultRec) : ∃ po th, s.storeRecord die k f =
    { s with poison := po, thyme := th, lpddr := Memory.putNat s.lpddr ((s.die die).addrOf k) 64 f.bytes } := by
  obtain ⟨po, th, h⟩ := s.cleanSectors_eq (.tier .lpddr) ((s.die die).addrOf k) 64
  unfold State.storeRecord
  dsimp only
  rw [h]
  exact ⟨po, th, rfl⟩

/-- The fault unit once a record has taken its next place. -/
def FaultUnit.place (u : FaultUnit) (f : FaultRec) : FaultUnit := { u with recs := Map.set {} u.recs u.tail f, tail := u.tail + 1 }

theorem FaultUnit.addrOf_place (u : FaultUnit) (f : FaultRec) (k : Nat) : (u.place f).addrOf k = u.addrOf k := by
  unfold FaultUnit.addrOf FaultUnit.place
  rfl

/-- A record enters its cluster's queue, with an interrupt and an event. -/
theorem State.placeRecord_queues (s : State) (die cluster : Nat) (f : FaultRec) : ∃ t, t = (s.setDie die ((s.die die).place f)).storeRecord die (s.die die).tail f ∧
    ∃ irqs th, s.placeRecord die cluster f =
      { t with faultQueues := Map.upd [] t.faultQueues cluster (· ++ [(die, (s.die die).tail)]), faultIrqs := irqs, thyme := th } := by
  unfold State.placeRecord State.log FaultUnit.place
  dsimp only
  exact ⟨_, rfl, _, _, rfl⟩

/-- A record is placed in its die's buffer, in device memory and in its cluster's queue. -/
theorem State.placeRecord_eq {s : State} {die : Nat} {u : FaultUnit} (hd : s.dies.rising) (hu : s.die die = u) (cluster : Nat) (f : FaultRec) :
    ∃ irqs po th, s.placeRecord die cluster f = { s with
      dies := Map.set {} s.dies die (u.place f), faultIrqs := irqs, poison := po, thyme := th
      lpddr := Memory.putNat s.lpddr (u.addrOf u.tail) 64 f.bytes
      faultQueues := Map.upd [] s.faultQueues cluster (· ++ [(die, u.tail)]) } := by
  obtain ⟨po, th, h⟩ := (s.setDie die (u.place f)).storeRecord_eq die u.tail f
  rw [State.die_setDie hd, FaultUnit.addrOf_place] at h
  obtain ⟨x, hx, irqs, th', hs⟩ := s.placeRecord_queues die cluster f
  rw [hu] at hx hs
  rw [h] at hx
  rw [hx] at hs
  unfold State.setDie at hs
  dsimp only at hs
  exact ⟨irqs, po, th', hs⟩

/-- A record for which its die's buffer has a place: the fault unit, the record in device memory and the cluster's queue. -/
theorem State.emitRecord_eq {s z : State} {die : Nat} {u : FaultUnit} {f0 f : FaultRec} (hd : s.dies.rising) (hu : s.die die = u)
    (hfull : u.tail < u.head + 4096) (hheld : u.held = []) (hz : s.inTurn die f0 = z)
    (hf : f = { f0 with time := z.cycle, seq := u.seq % 2 ^ 32 }) (cluster : Nat) :
    ∃ irqs po th, s.emitRecord die cluster f0 = { s with
      cycle := z.cycle, slots := z.slots, mgmt := z.mgmt, faultIrqs := irqs, poison := po, thyme := th
      dies := Map.set {} (Map.set {} s.dies die { u with seq := u.seq + 1, last := (z.cycle, f0.tile, f0.eng) }) die
        (FaultUnit.place { u with seq := u.seq + 1, last := (z.cycle, f0.tile, f0.eng) } f)
      lpddr := Memory.putNat s.lpddr (u.addrOf u.tail) 64 f.bytes
      faultQueues := Map.upd [] s.faultQueues cluster (· ++ [(die, u.tail)]) } := by
  have hnot : ¬ (u.full || !u.held.isEmpty) = true := by
    rw [FaultUnit.full, hheld, decide_eq_false (Nat.not_le.mpr hfull)]
    decide
  have hs : s.emitRecord die cluster f0 = (z.setDie die { u with seq := u.seq + 1, last := (z.cycle, f0.tile, f0.eng) }).placeRecord die cluster f := by
    obtain ⟨cycle, slots, mgmt, hi⟩ := s.inTurn_eq die f0
    have hzu : z.die die = u := by
      rw [← hz, hi]
      exact hu
    unfold State.emitRecord
    rw [hz, hf]
    dsimp only
    rw [hzu]
    exact if_neg hnot
  obtain ⟨cycle, slots, mgmt, hi⟩ := s.inTurn_eq die f0
  rw [hi] at hz
  subst hz
  rw [hs]
  obtain ⟨irqs, po, th, h⟩ := State.placeRecord_eq
    (s := ({ s with cycle := cycle, slots := slots, mgmt := mgmt } : State).setDie die { u with seq := u.seq + 1, last := (cycle, f0.tile, f0.eng) })
    (die := die) (Map.rising_set _ hd _ _) (State.die_setDie hd die _) cluster f
  exact ⟨irqs, po, th, h⟩

/-! ### Engines that a fault stops (R331) -/

theorem Slot.lane_setLane (x : Slot) (e : Engine) (l : Lane) : (x.setLane e l).lane e = l := by cases e <;> rfl

theorem Slot.lane_setLane_other (x : Slot) {e e' : Engine} (l : Lane) (h : e ≠ e') : (x.setLane e' l).lane e = x.lane e := by
  cases e' <;> cases e <;> simp [Slot.lane, Slot.setLane] at h ⊢

theorem Slot.task_setLane (x : Slot) (e : Engine) (l : Lane) : (x.setLane e l).task = x.task := by cases e <;> rfl
theorem Slot.ctx_setLane (x : Slot) (e : Engine) (l : Lane) : (x.setLane e l).ctx = x.ctx := by cases e <;> rfl

/-- The block and the iteration that a stop record names. -/
def State.stopsAt (s : State) (r : EngRef) (kind : StopKind) : Nat × Nat :=
  match s.stopPoint r kind with
  | some (f, k) => (f.addr, ctrOf f.instr k)
  | none => ((s.chain r).lastBlk, (s.chain r).lastCtr)

/-- The stop record of an engine. -/
def State.stopRecord (s : State) (r : EngRef) (kind : StopKind) (cause : Nat) (disp : Disp) (orig : Bool) (acc tag skid : Nat) : StopRec :=
  { pasid := (s.task (s.taskOf r)).pasid, acc := acc, tile := r.tile, slot := r.slot, eng := r.eng.num, orig := orig, disp := disp, cause := cause,
    task := (s.task (s.taskOf r)).va, block := (s.stopsAt r kind).1, ctr := (s.stopsAt r kind).2, ret := (s.chain r).retired,
    endf := (s.chain r).endFlag, sbp := (s.chain r).sbp, tag := tag, forks := s.forkCount r, cursor := (s.chain r).cursor, time := s.cycle, skid := skid }

section
variable (s : State) (r : EngRef) (kind : StopKind) (cause : Nat) (disp : Disp) (orig : Bool) (acc tag skid : Nat)

theorem State.stopEngine_eq : s.stopEngine r kind cause disp orig acc tag skid =
    (s.updSlot r.tile r.slot fun x =>
      x.setLane r.eng { x.lane r.eng with stop := some (s.stopRecord r kind cause disp orig acc tag skid) }).updChain r
        fun h => { h with stop := kind, stepBusy := false } := by
  unfold State.stopEngine State.stopRecord State.stopsAt
  rcases s.stopPoint r kind with _ | ⟨f, k⟩ <;> rfl

theorem State.withinSlot_stopEngine : s.WithinSlot r (s.stopEngine r kind cause disp orig acc tag skid) := by
  rw [State.stopEngine_eq]
  exact (State.withinSlot_updSlot r s _).trans (State.withinSlot_updChain r _ _)

variable {s r} (h : (s.slotAt r.tile r.slot).task ≠ none)
include h

/-- A stop is one of the engine's chain and its lane. -/
theorem State.slotAt_stopEngine : (s.stopEngine r kind cause disp orig acc tag skid).slotAt r.tile r.slot =
    { (s.slotAt r.tile r.slot).setLane r.eng { (s.slotAt r.tile r.slot).lane r.eng with stop := some (s.stopRecord r kind cause disp orig acc tag skid) } with
      ctx := (s.ctx r).setChain r.eng { s.chain r with stop := kind, stepBusy := false } } := by
  have hset (l : Lane) : (s.updSlot r.tile r.slot fun x => x.setLane r.eng l).slotAt r.tile r.slot = (s.slotAt r.tile r.slot).setLane r.eng l :=
    State.slotAt_setSlot (.inl fun he => h ((Slot.task_setLane _ r.eng l).symm.trans (congrArg Slot.task he)))
  have hs : (s.updSlot r.tile r.slot fun x =>
      x.setLane r.eng { x.lane r.eng with stop := some (s.stopRecord r kind cause disp orig acc tag skid) }).slotAt r.tile r.slot =
        (s.slotAt r.tile r.slot).setLane r.eng
          { (s.slotAt r.tile r.slot).lane r.eng with stop := some (s.stopRecord r kind cause disp orig acc tag skid) } := hset _
  rw [State.stopEngine_eq, State.slotAt_updChain_of_task (by rw [hs, Slot.task_setLane]; exact h)]
  unfold State.chain State.ctx
  rw [hs, Slot.ctx_setLane]

theorem State.chain_stopEngine : (s.stopEngine r kind cause disp orig acc tag skid).chain r = { s.chain r with stop := kind, stepBusy := false } := by
  rw [State.chain, State.ctx, State.slotAt_stopEngine _ _ _ _ _ _ _ h, Ctx.chain_setChain]

theorem State.lane_stopEngine : (((s.stopEngine r kind cause disp orig acc tag skid).slotAt r.tile r.slot).lane r.eng).stop =
    some (s.stopRecord r kind cause disp orig acc tag skid) := by
  rw [State.slotAt_stopEngine _ _ _ _ _ _ _ h]
  show (Slot.lane (Slot.setLane _ _ _) r.eng).stop = _
  rw [Slot.lane_setLane]

end

/-- An engine stands at a breakpoint with a stop record, and its slot alone has changed. -/
structure State.BreaksAt (s : State) (r : EngRef) (z : StopRec) (x : State) : Prop where
  within : s.WithinSlot r x
  task : (x.slotAt r.tile r.slot).task ≠ none
  chain : (x.chain r).stop = .breakpoint
  lane : ((x.slotAt r.tile r.slot).lane r.eng).stop = some z

section
variable {s : State} {r : EngRef} (h : (s.slotAt r.tile r.slot).task ≠ none)
include h

/-- The stop of another engine of the slot leaves an engine as it is. -/
theorem State.stopEngine_other {e : Engine} (he : r.eng ≠ e) (kind : StopKind) (cause : Nat) (disp : Disp) (orig : Bool) (acc tag skid : Nat) :
    let t := s.stopEngine (engRef r.tile r.slot e) kind cause disp orig acc tag skid
    t.chain r = s.chain r ∧ (t.slotAt r.tile r.slot).lane r.eng = (s.slotAt r.tile r.slot).lane r.eng ∧
      (t.slotAt r.tile r.slot).task = (s.slotAt r.tile r.slot).task := by
  have hs := State.slotAt_stopEngine (s := s) (r := engRef r.tile r.slot e) kind cause disp orig acc tag skid h
  refine ⟨?_, ?_, ?_⟩
  · unfold State.chain State.ctx
    rw [show ((s.stopEngine (engRef r.tile r.slot e) kind cause disp orig acc tag skid).slotAt r.tile r.slot) = _ from hs]
    exact Ctx.chain_setChain_other _ _ he
  · rw [show ((s.stopEngine (engRef r.tile r.slot e) kind cause disp orig acc tag skid).slotAt r.tile r.slot) = _ from hs]
    exact Slot.lane_setLane_other _ _ he
  · rw [show ((s.stopEngine (engRef r.tile r.slot e) kind cause disp orig acc tag skid).slotAt r.tile r.slot) = _ from hs]
    exact Slot.task_setLane _ _ _

/-- A breakpoint stops the engine that meets it, and others of its slot at most. -/
theorem State.stopTask_stops (cause tag : Nat) :
    s.BreaksAt r (s.stopRecord r .breakpoint cause .stop true 0 tag 0) (s.stopTask r cause tag) := by
  unfold State.stopTask
  refine List.foldlRecOn (motive := s.BreaksAt r _) _ _ ?_ fun x hx e _ => ?_
  · exact ⟨s.withinSlot_stopEngine r _ _ _ _ _ _ _,
      by rw [State.slotAt_stopEngine _ _ _ _ _ _ _ h]; exact fun hn => h ((Slot.task_setLane _ _ _).symm.trans hn),
      congrArg Chain.stop (State.chain_stopEngine _ _ _ _ _ _ _ h), State.lane_stopEngine _ _ _ _ _ _ _ h⟩
  · obtain ⟨hw, ht, hc, hl⟩ := hx
    dsimp only
    split
    · exact ⟨hw, ht, hc, hl⟩
    · next hskip =>
      have he : r.eng ≠ e := fun he => hskip (.inl he.symm)
      obtain ⟨hchain, hlane, htask⟩ := State.stopEngine_other ht he .breakpoint cause .stop false 0 0 0
      exact ⟨hw.trans (x.withinSlot_stopEngine (engRef r.tile r.slot e) _ _ _ _ _ _ _), htask ▸ ht, hchain ▸ hc, hlane ▸ hl⟩

end

/-! ### What a record leaves of a slot -/

theorem Slot.tick_keeps (x : Slot) (dt : Nat) : (x.tick dt).task = x.task ∧ (∀ e, (x.tick dt).lane e = x.lane e) ∧
    ∀ k, (x.tick dt).ctx.ring k = x.ctx.ring k := by
  unfold Slot.tick
  split
  · exact ⟨rfl, fun _ => rfl, fun _ => rfl⟩
  · exact ⟨rfl, fun e => by cases e <;> rfl, fun _ => rfl⟩

/-- The task, the lanes and the rings of a slot are as before. -/
theorem State.emitRecord_slot (s : State) (die cluster : Nat) (f : FaultRec) (t k : Nat) :
    ((s.emitRecord die cluster f).slotAt t k).task = (s.slotAt t k).task ∧
    (∀ e, ((s.emitRecord die cluster f).slotAt t k).lane e = (s.slotAt t k).lane e) ∧
    ∀ j, ((s.emitRecord die cluster f).slotAt t k).ctx.ring j = (s.slotAt t k).ctx.ring j := by
  obtain h | h := s.slotAt_emitRecord die cluster f t k <;> rw [h]
  · exact ⟨rfl, fun _ => rfl, fun _ => rfl⟩
  · exact Slot.tick_keeps _ 1

/-- A halt's stop record, by what it reads of the state. -/
theorem State.stopRecord_congr {s t : State} {r : EngRef} (hchain : t.chain r = s.chain r)
    (htask : (t.slotAt r.tile r.slot).task = (s.slotAt r.tile r.slot).task) (htasks : t.tasks = s.tasks) (hforks : t.forks = s.forks)
    (hring : ∀ k, (t.ctx r).ring k = (s.ctx r).ring k) (cause : Nat) (disp : Disp) (orig : Bool) (acc tag skid : Nat) :
    t.stopRecord r .halted cause disp orig acc tag skid = { s.stopRecord r .halted cause disp orig acc tag skid with time := t.cycle } := by
  have hof : t.taskOf r = s.taskOf r := congrArg (·.getD 0) htask
  have ht (n : Nat) : t.task n = s.task n := congrArg (Map.get ({} : Task) · n) htasks
  have hpoint : t.stopsAt r .halted = s.stopsAt r .halted := by
    unfold State.stopsAt State.stopPoint
    dsimp only
    rw [hchain]
  have hcount : t.forkCount r = s.forkCount r := by
    unfold State.forkCount
    simp only [hforks, hof, hring]
  unfold State.stopRecord
  rw [hof, ht, hpoint, hcount, hchain]

/-! ### The dispositions of a fault (R324) -/

/-- The record that a fault of a block writes, but for its moment and its SEQ. -/
def State.faultRecord (s : State) (r : EngRef) (block : Nat) (e : BlockFault) (d : Disp) : FaultRec :=
  { pasid := (s.task (s.taskOf r)).pasid, acc := e.acc, tile := r.tile, slot := r.slot, eng := r.eng.num, prec := true, disp := d,
    cause := e.cause.code, task := (s.task (s.taskOf r)).va, block := block, ctr := e.ctr, remain := e.remain, fva := e.fva, bank := e.bank }

/-- The state once it is written. -/
def State.recordFault (s : State) (r : EngRef) (block : Nat) (e : BlockFault) (d : Disp) : State :=
  s.emitRecord (dieOf r.tile) (clusterOf r.tile) (s.faultRecord r block e d)

section
variable {s : State} {r : EngRef} (block : Nat) (e : BlockFault)

theorem State.takeFault_note : s.takeFault r block e .note = s.recordFault r block e .note := rfl

theorem State.takeFault_park (hh : s.wouldHold (dieOf r.tile) = false) : s.takeFault r block e .park =
    ((s.recordFault r block e .park).updChain r fun h => { h with stop := .parked }).updSlot r.tile r.slot fun x =>
      { x with parking := true, inPlace := x.inPlace || false } := by
  unfold State.takeFault
  dsimp only
  rw [hh]
  exact if_neg Bool.false_ne_true

/-- The state once a halt has stopped its engine. -/
def State.haltStops (s : State) (r : EngRef) (block : Nat) (e : BlockFault) : State :=
  if (s.chain r).stop = .halted then s.recordFault r block e .halt
  else (s.recordFault r block e .halt).stopEngine r .halted e.cause.code .halt true e.acc 0 0

theorem State.takeFault_halt : s.takeFault r block e .halt =
    (s.haltStops r block e).raiseHalt (s.task (s.taskOf r)).pasid e.cause.code (s.task (s.taskOf r)).va := rfl

theorem State.withinSlot_haltStops : (s.recordFault r block e .halt).WithinSlot r (s.haltStops r block e) := by
  unfold State.haltStops
  split
  · exact .refl r _
  · exact State.withinSlot_stopEngine ..

/-- Raising a halt line is a change of its PASID. -/
theorem State.raiseHalt_eq (s : State) (p cause task : Nat) :
    (s.raiseHalt p cause task = s ∧ ((s.pasid p).halting = true ∨ (s.pasid p).halted = true)) ∨
    ((s.pasid p).halted = false ∧ ∃ th, s.raiseHalt p cause task = { s with pasids := Map.set {} s.pasids p { s.pasid p with halting := true, haltBy := cause }, thyme := th }) := by
  unfold State.raiseHalt
  dsimp only
  split
  · next h => exact .inl ⟨rfl, by simpa using h⟩
  · next h => exact .inr ⟨by simp at h; exact h.2, _, rfl⟩

theorem State.pasid_of_raise {s t : State} {p cause : Nat} {th : List ThymeEvent}
    (h : t = { s with pasids := Map.set {} s.pasids p { s.pasid p with halting := true, haltBy := cause }, thyme := th }) :
    t.pasid p = { s.pasid p with halting := true, haltBy := cause } := by
  rw [h]
  exact Map.get_set_ne _ (fun hn => by cases congrArg Pasid.halting hn) _

theorem State.slotAt_raiseHalt (s : State) (p cause task t k : Nat) : (s.raiseHalt p cause task).slotAt t k = s.slotAt t k := by
  unfold State.raiseHalt
  dsimp only
  split <;> rfl

/-- But for a STOP, taking a fault changes after its record the slot, the job and the Thyme buffer alone. -/
theorem State.takeFault_keeps {d : Disp} (hh : s.wouldHold (dieOf r.tile) = false) (hd : d ≠ .stop) :
    (∃ slots tiles forks perc thyme pasids, s.takeFault r block e d =
      { s.recordFault r block e d with slots := slots, tiles := tiles, forks := forks, perc := perc, thyme := thyme, pasids := pasids }) ∧
    (s.recordFault r block e d).KeepsOtherSlots (s.takeFault r block e d) r := by
  cases d with
  | stop => exact absurd rfl hd
  | note => exact ⟨⟨_, _, _, _, _, _, rfl⟩, fun _ _ _ => rfl⟩
  | park =>
    rw [State.takeFault_park block e hh]
    obtain ⟨⟨_, _, _, _, _, hx⟩, hs⟩ := (State.withinSlot_updChain r (s.recordFault r block e .park) fun h => { h with stop := .parked }).trans
      (State.withinSlot_updSlot r _ fun x => { x with parking := true, inPlace := x.inPlace || false })
    exact ⟨⟨_, _, _, _, _, _, hx⟩, hs⟩
  | halt =>
    rw [State.takeFault_halt]
    obtain ⟨⟨_, _, _, _, _, hx⟩, hs⟩ := State.withinSlot_haltStops (s := s) (r := r) block e
    refine ⟨?_, fun t k hk => (State.slotAt_raiseHalt ..).trans (hs t k hk)⟩
    obtain ⟨h, -⟩ | ⟨-, th, h⟩ := (s.haltStops r block e).raiseHalt_eq (s.task (s.taskOf r)).pasid e.cause.code (s.task (s.taskOf r)).va <;> rw [h, hx] <;>
      exact ⟨_, _, _, _, _, _, rfl⟩

end

/-- What a record leaves: it stands in its place of the buffer, of device memory and of a queue, and all else is as before, in its cycle. -/
structure State.Records (s z : State) (die cluster : Nat) (u : FaultUnit) (f : FaultRec) (t : State) : Prop where
  unit : t.die die = FaultUnit.place { u with seq := u.seq + 1, last := (z.cycle, f.tile, f.eng) } f
  queue : t.faultQueues = Map.upd [] s.faultQueues cluster (· ++ [(die, u.tail)])
  cycle : t.cycle = z.cycle
  lpddr : t.lpddr = Memory.putNat s.lpddr (u.addrOf u.tail) 64 f.bytes
  mem : ∀ m, m ≠ .lpddr → t.tierMem m = s.tierMem m
  pools : t.clusterPool = s.clusterPool ∧ t.diePool = s.diePool ∧ t.supmem = s.supmem

theorem State.recordFault_records {s z : State} {r : EngRef} {u : FaultUnit} {f : FaultRec} {block : Nat} {e : BlockFault} {d : Disp}
    (hd : s.dies.rising) (hu : s.die (dieOf r.tile) = u) (hfull : u.tail < u.head + 4096) (hheld : u.held = [])
    (hz : s.inTurn (dieOf r.tile) (s.faultRecord r block e d) = z)
    (hf : f = { s.faultRecord r block e d with time := z.cycle, seq := u.seq % 2 ^ 32 }) :
    s.Records z (dieOf r.tile) (clusterOf r.tile) u f (s.recordFault r block e d) ∧ (s.recordFault r block e d).tasks = s.tasks ∧
      (s.recordFault r block e d).forks = s.forks ∧ (s.recordFault r block e d).pasids = s.pasids ∧ (s.recordFault r block e d).slots = z.slots := by
  obtain ⟨irqs, po, th, h⟩ := State.emitRecord_eq hd hu hfull hheld hz hf (clusterOf r.tile)
  have hr : s.recordFault r block e d = _ := h
  have htile : f.tile = (s.faultRecord r block e d).tile := by rw [hf]
  have heng : f.eng = (s.faultRecord r block e d).eng := by rw [hf]
  rw [hr]
  refine ⟨⟨?_, rfl, rfl, by dsimp only, fun m hm => ?_, rfl, rfl, rfl⟩, rfl, rfl, rfl, rfl⟩
  · rw [htile, heng]
    exact (Map.get_set _ (Map.rising_set _ hd _ _) _ _ _).trans (if_pos rfl)
  · cases m with
    | lpddr => exact absurd rfl hm
    | hbm => rfl
    | cxl => rfl
    | host => rfl

/-- What follows the record keeps it. -/
theorem State.Records.takeFault {s z : State} {r : EngRef} {die cluster : Nat} {u : FaultUnit} {f : FaultRec} {block : Nat} {e : BlockFault} {d : Disp}
    (h : s.Records z die cluster u f (s.recordFault r block e d)) (hh : s.wouldHold (dieOf r.tile) = false) (hd : d ≠ .stop) :
    s.Records z die cluster u f (s.takeFault r block e d) := by
  obtain ⟨⟨_, _, _, _, _, _, hx⟩, -⟩ := State.takeFault_keeps block e hh hd
  rw [hx]
  obtain ⟨hdie, hqueue, hcycle, hlpddr, hmem, hpools⟩ := h
  refine ⟨hdie, hqueue, hcycle, hlpddr, fun m hm => ?_, hpools⟩
  rw [← hmem m hm]
  cases m <;> rfl

/-! ### What each disposition does to the engine and the job -/

section
variable {s z : State} {r : EngRef} {block : Nat} {e : BlockFault}
variable (h : (s.slotAt r.tile r.slot).task ≠ none)
include h

theorem State.takeFault_parks (hh : s.wouldHold (dieOf r.tile) = false) :
    ((s.takeFault r block e .park).chain r).stop = .parked ∧ ((s.takeFault r block e .park).slotAt r.tile r.slot).parking = true := by
  refine ⟨?_, State.parking_takeFault hh _ _ _⟩
  have ht : ((s.recordFault r block e .park).slotAt r.tile r.slot).task ≠ none := by
    rw [State.recordFault, (s.emitRecord_slot _ _ _ _ _).1]
    exact h
  rw [State.takeFault_park block e hh]
  unfold State.chain State.ctx State.updSlot
  rw [State.slotAt_setSlot (.inl fun he => by cases congrArg Slot.parking he), State.slotAt_updChain_of_task ht]
  exact congrArg Chain.stop (Ctx.chain_setChain _ _ _)

/-- A halt leaves its engine halted, with the stop record that it had or one of its own. -/
theorem State.haltStops_stops : ((s.haltStops r block e).chain r).stop = .halted ∧
    ((s.chain r).stop = .halted → (((s.haltStops r block e).slotAt r.tile r.slot).lane r.eng).stop = ((s.slotAt r.tile r.slot).lane r.eng).stop) ∧
    ((s.chain r).stop ≠ .halted → (((s.haltStops r block e).slotAt r.tile r.slot).lane r.eng).stop =
      some ((s.recordFault r block e .halt).stopRecord r .halted e.cause.code .halt true e.acc 0 0)) := by
  obtain ⟨htask, hlane, -⟩ := s.emitRecord_slot (dieOf r.tile) (clusterOf r.tile) (s.faultRecord r block e .halt) r.tile r.slot
  have ht : ((s.recordFault r block e .halt).slotAt r.tile r.slot).task ≠ none := by
    rw [State.recordFault, htask]
    exact h
  unfold State.haltStops
  split
  · next hs =>
    refine ⟨?_, fun _ => congrArg Lane.stop (hlane r.eng), fun hn => absurd hs hn⟩
    rw [State.recordFault, State.chain_emitRecord]
    exact hs
  · next hs =>
    exact ⟨congrArg Chain.stop (State.chain_stopEngine _ _ _ _ _ _ _ ht), fun hn => absurd hn hs, fun _ => State.lane_stopEngine _ _ _ _ _ _ _ ht⟩

/-- A HALT leaves its engine halted and its job's halt line raised. -/
theorem State.takeFault_halts {t : State} {cycle : Nat} (ht : t = s.takeFault r block e .halt) (hpasids : (s.recordFault r block e .halt).pasids = s.pasids)
    (htasks : (s.recordFault r block e .halt).tasks = s.tasks) (hforks : (s.recordFault r block e .halt).forks = s.forks)
    (hcycle : (s.recordFault r block e .halt).cycle = cycle) :
    (t.chain r).stop = .halted ∧
    t.pasid (s.task (s.taskOf r)).pasid = { s.pasid (s.task (s.taskOf r)).pasid with
        halting := (t.pasid (s.task (s.taskOf r)).pasid).halting, haltBy := (t.pasid (s.task (s.taskOf r)).pasid).haltBy } ∧
    ((t.pasid (s.task (s.taskOf r)).pasid).halting = true ∨ (s.pasid (s.task (s.taskOf r)).pasid).halted = true) ∧
    ((s.chain r).stop = .halted → ((t.slotAt r.tile r.slot).lane r.eng).stop = ((s.slotAt r.tile r.slot).lane r.eng).stop) ∧
    ((s.chain r).stop ≠ .halted → ∀ blk ctr, (blk, ctr) = s.stopsAt r .halted →
      ((t.slotAt r.tile r.slot).lane r.eng).stop = some {
        pasid := (s.task (s.taskOf r)).pasid, acc := e.acc, tile := r.tile, slot := r.slot, eng := r.eng.num, orig := true, disp := .halt,
        cause := e.cause.code, task := (s.task (s.taskOf r)).va, block := blk, ctr := ctr,
        ret := (s.chain r).retired, endf := (s.chain r).endFlag, sbp := (s.chain r).sbp, tag := 0, forks := s.forkCount r,
        cursor := (s.chain r).cursor, time := cycle, skid := 0 }) := by
  obtain ⟨hc, hkeep, hown⟩ := State.haltStops_stops (block := block) (e := e) h
  obtain ⟨htask, -, hring⟩ := s.emitRecord_slot (dieOf r.tile) (clusterOf r.tile) (s.faultRecord r block e .halt) r.tile r.slot
  have hslot : t.slotAt r.tile r.slot = (s.haltStops r block e).slotAt r.tile r.slot := by
    rw [ht, State.takeFault_halt, State.slotAt_raiseHalt]
  have hpasid : (s.haltStops r block e).pasid (s.task (s.taskOf r)).pasid = s.pasid (s.task (s.taskOf r)).pasid := by
    obtain ⟨⟨_, _, _, _, _, hx⟩, -⟩ := State.withinSlot_haltStops (s := s) (r := r) block e
    rw [hx]
    exact congrArg (Map.get ({} : Pasid) · _) hpasids
  refine ⟨?_, ?_, ?_, fun hs => ?_, fun hs blk ctr hb => ?_⟩
  · rw [State.chain, State.ctx, hslot]
    exact hc
  · rw [ht, State.takeFault_halt]
    obtain ⟨hr, -⟩ | ⟨-, th, hr⟩ := (s.haltStops r block e).raiseHalt_eq (s.task (s.taskOf r)).pasid e.cause.code (s.task (s.taskOf r)).va
    · rw [hr, hpasid]
    · rw [State.pasid_of_raise hr, hpasid]
  · rw [ht, State.takeFault_halt]
    obtain ⟨hr, hp⟩ | ⟨-, th, hr⟩ := (s.haltStops r block e).raiseHalt_eq (s.task (s.taskOf r)).pasid e.cause.code (s.task (s.taskOf r)).va
    · rw [hr]
      rwa [hpasid] at hp ⊢
    · rw [State.pasid_of_raise hr]
      exact .inl rfl
  · rw [hslot]
    exact hkeep hs
  · rw [hslot, hown hs, State.stopRecord_congr (t := s.recordFault r block e .halt) (State.chain_emitRecord ..) htask htasks hforks hring]
    unfold State.stopRecord
    rw [← hb, hcycle]

/-- A STOP is one of the slot alone. -/
theorem State.takeFault_stops : s.WithinSlot r (s.takeFault r block e .stop) ∧
    (((s.takeFault r block e .stop).chain r).stop = .breakpoint ∨ ((s.takeFault r block e .stop).chain r).stop = .stepped) ∧
    ∃ y, (((s.takeFault r block e .stop).slotAt r.tile r.slot).lane r.eng).stop = some y ∧ y.cause = e.cause.code ∧ y.tag = e.remain ∧
      y.task = (s.task (s.taskOf r)).va := by
  have ht : s.takeFault r block e .stop =
      if e.cause = .singleStep then s.stopEngine r .stepped e.cause.code .stop true e.acc e.remain 0 else s.stopTask r e.cause.code e.remain := rfl
  rw [ht]
  split
  · exact ⟨s.withinSlot_stopEngine r _ _ _ _ _ _ _, .inr (congrArg Chain.stop (State.chain_stopEngine _ _ _ _ _ _ _ h)),
      _, State.lane_stopEngine _ _ _ _ _ _ _ h, rfl, rfl, rfl⟩
  · obtain ⟨hw, -, hc, hl⟩ := State.stopTask_stops h e.cause.code e.remain
    exact ⟨hw, .inl hc, _, hl, rfl, rfl, rfl⟩

end

end Sys2Proof.Machine

open Sys2Proof Sys2Proof.Machine

/-- Settles O45: a STOP changes its slot alone; of the others the record, then what each disposition stops. -/
theorem faultTaking : Obligations.FaultTaking := by
  intro s t z r block e d u f htask ht hu hfull hheld hslots hdies hrecs hz hf
  have hh : s.wouldHold (dieOf r.tile) = false := by
    rw [State.wouldHold, ← hu, hheld, FaultUnit.full, decide_eq_false (Nat.not_le.mpr hfull)]
    rfl
  by_cases hd : d = .stop
  · subst hd
    have hzs : z = s := hz.trans (if_neg fun hn => hn.1 rfl)
    obtain ⟨hw, hstop, hlane⟩ := State.takeFault_stops (block := block) (e := e) htask
    rw [← ht] at hw hstop hlane
    obtain ⟨hmem, hcl, hdi, hsup⟩ := hw.keepsMemory
    have hdies' : t.dies = s.dies := by
      obtain ⟨⟨_, _, _, _, _, rfl⟩, -⟩ := hw
      rfl
    have hpools : t.clusterPool = s.clusterPool ∧ t.diePool = s.diePool ∧ t.supmem = s.supmem := by
      obtain ⟨⟨_, _, _, _, _, rfl⟩, -⟩ := hw
      exact ⟨rfl, rfl, rfl⟩
    exact ⟨fun hn => absurd rfl hn, fun hn => Disp.noConfusion hn, fun hn => Disp.noConfusion hn, fun _ => ⟨hdies', hstop, hlane⟩,
      fun hn => Disp.noConfusion hn, fun hn => absurd rfl hn, fun m a _ => hmem m a, hpools.1, hpools.2.1, hpools.2.2, hzs ▸ hw.keepsOtherSlots⟩
  · have hturn : s.inTurn (dieOf r.tile) (s.faultRecord r block e d) = z := by
      rw [hz, State.inTurn, ← hu]
      exact if_congr (FaultUnit.passed_iff.trans ⟨fun h => ⟨hd, h⟩, And.right⟩) rfl rfl
    obtain ⟨hrec, htasks, hforks, hpasids, hslots'⟩ := State.recordFault_records hdies hu.symm hfull hheld hturn hf
    obtain ⟨⟨slots, tiles, forks, perc, thyme, pasids, hx⟩, hother⟩ := State.takeFault_keeps block e hh hd
    obtain ⟨hunit, hqueue, hcycle, hlpddr, hmem, hcl, hdi, hsup⟩ := hrec.takeFault hh hd
    rw [← ht] at hunit hqueue hcycle hlpddr hmem hcl hdi hsup hx hother
    have htasks' : t.tasks = s.tasks := by rw [hx]; exact htasks
    refine ⟨fun _ => ⟨?_, ?_, ?_, ?_, hcycle, ?_⟩, fun hp => ?park, fun hp => ?halt, fun hp => absurd hp hd, fun hp => ?note, fun _ hwf => ?_, fun m a ha => ?_,
      hcl, hdi, hsup, ?_⟩
    · rw [hunit]
      exact (Map.get_set _ hrecs _ _ _).trans (if_pos rfl)
    · intro k hk
      rw [hunit]
      exact Map.get_set_other _ hk _ _
    · rw [hunit]
      rfl
    · rw [hunit]
      rfl
    · rw [hqueue]
      exact Map.get_set_ne _ (by simp) _
    case park =>
      subst hp
      obtain ⟨hc, hk⟩ := State.takeFault_parks (block := block) (e := e) htask hh
      rw [← ht] at hc hk
      exact ⟨hc, hk, congrArg (Map.get ({} : Task) · (s.taskOf r)) htasks'.symm⟩
    case halt =>
      subst hp
      exact State.takeFault_halts htask ht hpasids htasks hforks hrec.cycle
    case note =>
      subst hp
      rw [State.takeFault_note] at ht
      exact ⟨ht ▸ hslots', ht ▸ hpasids, htasks'⟩
    · rw [hlpddr]
      exact Memory.nat_putNat _ _ _ hwf
    · obtain ha | ha | ha := ha
      · exact absurd ha hd
      · rw [hmem m ha]
      · by_cases hm : m = .lpddr
        · subst hm
          show t.lpddr.byte a = _
          rw [hlpddr]
          exact Memory.byte_putNat_other _ _ _ ha
        · rw [hmem m hm]
    · intro tile slot hk
      rw [hother tile slot hk, State.slotAt, hslots']
      rfl

end

section
/-! PROOFS. Budgets, watchdogs, halts, stopping engines and held records (R303, R308, R310, R329 to R333). -/

namespace Sys2Proof.Machine

variable {s : State}

section
variable {tile slot : Nat} (hok : unitsOk tile slot = true)
include hok

theorem exec_budgetExhausted : exec (.budgetExhausted tile slot) s =
    .next (if (s.slotAt tile slot).live && (s.slotAt tile slot).ctx.spent && (s.jobOf tile slot).runs then s.schedulerFault tile slot .budget 0 0 else s) :=
  if_neg (by simp [hok])

theorem exec_watchdog : exec (.watchdog tile slot) s =
    .next (if (s.slotAt tile slot).task.isSome && !(s.slotAt tile slot).inPlace && !(s.slotAt tile slot).cancelled &&
        decide ((s.slotAt tile slot).wdActive ≤ (s.slotAt tile slot).ctx.wdc) && (s.jobOf tile slot).runs then s.schedulerFault tile slot .watchdog 0 0 else s) :=
  if_neg (by simp [hok])

theorem exec_slotRelease : exec (.slotRelease tile slot) s =
    .next (if (s.slotAt tile slot).cancelled && (s.slotAt tile slot).ctx.allStopped && !(s.forks.any fun f => some f.task == (s.slotAt tile slot).task) then
      s.releaseSlot tile slot else s) := if_neg (by simp [hok])

end

/-! ### Stopping an engine -/

section
variable {r : EngRef}

/-- A slot that is not cancelled stops with its job's halt. -/
theorem State.stopReason_halted (ht : (s.slotAt r.tile r.slot).task.isSome = true) (hc : (s.slotAt r.tile r.slot).cancelled = false)
    (hp : (s.jobOf r.tile r.slot).halted = true) : s.stopReason r = some ((s.jobOf r.tile r.slot).haltBy, .halt) := by
  unfold State.stopReason
  dsimp only
  rw [if_neg (by simpa using Option.isSome_iff_ne_none.mp ht), if_neg (by simp [hc]), if_pos hp]

/-- A cancelled slot of a job that goes on stops with 0x2C4. -/
theorem State.stopReason_cancelled (ht : (s.slotAt r.tile r.slot).task.isSome = true) (hc : (s.slotAt r.tile r.slot).cancelled = true)
    (hp : (s.jobOf r.tile r.slot).halted = false) : s.stopReason r = some (0x2C4, .note) := by
  unfold State.stopReason
  dsimp only
  rw [if_neg (by simpa using Option.isSome_iff_ne_none.mp ht)]
  exact if_pos (by simp [hc, hp])

/-- The engines of another slot have no reason to stop. -/
theorem State.stopReason_none (hc : (s.slotAt r.tile r.slot).cancelled = false) (hp : (s.jobOf r.tile r.slot).halted = false) : s.stopReason r = none := by
  unfold State.stopReason
  dsimp only
  split
  · rfl
  · rw [if_neg (by simp [hc]), if_neg (by simp [hp])]

variable (hok : r.ok = true)
include hok

theorem exec_engineStop_none (h : s.stopReason r = none) : exec (.engineStop r) s = .next s := by
  show execEngineStop r s = _
  rw [execEngineStop, if_neg (by simp [hok]), h]

/-- An engine that has a reason, runs, and holds no block that the stop has to wait for. -/
theorem exec_engineStop_some {q : Nat} {d : Disp} (h : s.stopReason r = some (q, d)) (hpresent : (s.chain r).present = true)
    (hstop : (s.chain r).stop ≠ .halted) (hclear : ∀ f ∈ (s.chain r).inflight, classOf f.instr = 0 ∨ classOf f.instr = 3 → s.holdsSave r f = false)
    {s0 s1 : State} (h0 : s0 = s.finishBlocks r (s.chain r).inflight.length)
    (h1 : s1 = if (s0.chain r).stop = .halted then s0 else s0.stopEngine r .halted q d false 0 0 (s.free 1 % 65)) : exec (.engineStop r) s =
    .next ((((s1.partWrites r).dropWaiting r).updChain r fun h =>
      { h with inflight := [], queue := [], guard := none, refusal := none }).flushWhere fun w => w.task == s.taskOf r && w.ref.eng == r.eng) := by
  have hnone : ((s.chain r).inflight.any fun f => (classOf f.instr == 0 || classOf f.instr == 3) && s.holdsSave r f) = false := by
    simp only [List.any_eq_false, Bool.and_eq_true, Bool.or_eq_true, beq_iff_eq, not_and, Bool.not_eq_true]
    exact hclear
  show execEngineStop r s = _
  rw [execEngineStop, if_neg (by simp [hok]), h]
  dsimp only
  rw [if_neg (by simp [hpresent, hstop]), if_neg (by simp [hnone]), h1, h0]

end

/-! ### Held records -/

theorem exec_heldRecordWrite_full {die : Nat} (hd : die < 4) (h : (s.die die).full = true) : exec (.heldRecordWrite die) s = .next s :=
  (if_neg (Nat.not_le.mpr hd)).trans (if_pos h)

theorem exec_heldRecordWrite {die k cluster : Nat} {f : FaultRec} (hd : die < 4) (h : (s.die die).full = false)
    (ho : oldestHeld (s.die die).held 0 = some (k, cluster, f)) : exec (.heldRecordWrite die) s =
    .next (((s.setDie die { s.die die with held := (s.die die).held.eraseIdx k }).placeRecord die cluster { f with held := true }).unhold f) := by
  refine (if_neg (Nat.not_le.mpr hd)).trans ((if_neg (by simp [h])).trans ?_)
  rw [ho]

end Sys2Proof.Machine

open Sys2Proof Sys2Proof.Machine

/-- Settles O44: each event under its guard. -/
theorem haltEvents : Obligations.HaltEvents := by
  intro s tile slot pasid die k cluster x p r f
  refine ⟨?limits, ?line, ?stop, ?release, fun hd hf ho => exec_heldRecordWrite hd hf ho, fun hd hf => exec_heldRecordWrite_full hd hf⟩
  case limits =>
    rintro hok rfl hr
    rw [exec_budgetExhausted hok, exec_watchdog hok]
    refine ⟨fun hl hs => congrArg _ (if_pos (by simp [hl, hs, hr])), fun hb => congrArg _ (if_neg (by simp [Ctx.spent, hb])), fun ht hi hc => ⟨fun hw => ?_, fun hw => ?_⟩⟩
    · exact congrArg _ (if_pos (by simp [ht, hi, hc, hw, hr]))
    · exact congrArg _ (if_neg (by simp [Nat.not_le.mpr hw]))
  case line =>
    rintro rfl
    exact ⟨fun h => congrArg _ (if_pos h), fun h => congrArg _ (if_neg (by simp [h]))⟩
  case stop =>
    rintro hok rfl rfl hpresent hstop ht hclear
    refine ⟨?_, fun hc hp => exec_engineStop_none hok (State.stopReason_none hc hp)⟩
    rintro s0 q d z h0 (⟨hc, hp, rfl, rfl⟩ | ⟨hc, hp, rfl, rfl⟩) hz
    · exact exec_engineStop_some hok (State.stopReason_halted ht hc hp) hpresent hstop hclear h0 hz
    · exact exec_engineStop_some hok (State.stopReason_cancelled ht hc hp) hpresent hstop hclear h0 hz
  case release =>
    rintro hok rfl hc ha hf
    rw [exec_slotRelease hok]
    exact congrArg _ (if_pos (by simp [hc, ha, hf]))

end

section
/-! PROOFS. Dispatch, restore, save, park and completion of tasks (R304 to R306, R309, R315, R332, R105). -/

namespace Sys2Proof.Machine

variable {s : State} {n tile slot : Nat}

/-! ### Dispatch and restore -/

theorem State.dispatchOf_none (h : s.nextDispatch = none) (st : TState) : s.dispatchOf st = s := by
  rw [State.dispatchOf, h]

theorem State.dispatchOf_other {st : TState} (h : s.nextDispatch = some (n, tile, slot)) (hs : (s.task n).state ≠ st) : s.dispatchOf st = s := by
  rw [State.dispatchOf, h]
  exact if_neg hs

theorem State.dispatchOf_ready (h : s.nextDispatch = some (n, tile, slot)) (hs : (s.task n).state = .ready) :
    s.dispatchOf .ready = s.firstDispatch n tile slot := by
  rw [State.dispatchOf, h]
  exact (if_pos hs).trans (if_neg (by rw [hs]; exact TState.noConfusion))

theorem State.dispatchOf_saved (h : s.nextDispatch = some (n, tile, slot)) (hs : (s.task n).state = .saved) :
    s.dispatchOf .saved = s.restoreTask n tile slot := by
  rw [State.dispatchOf, h]
  exact (if_pos hs).trans (if_pos hs)

/-- A slot is prepared from the parameters, the relocation words and the set-up image of its task. -/
theorem State.prepare_ok {t : Task} {ps rb : List Nat} {c0 c : Ctx}
    (hp : if t.param = 0 then ps = [] else s.readTable t.pasid t.param t.paramLen = .ok ps)
    (hr : if t.reloc = 0 then rb = ({} : Ctx).rb else s.readTable t.pasid t.reloc 8 = .ok rb)
    (h0 : c0 = { lde := { present := t.headOf .lde != 0, cursor := t.headOf .lde }, mxe := { present := t.headOf .mxe != 0, cursor := t.headOf .mxe },
                 vxe := { present := t.headOf .vxe != 0, cursor := t.headOf .vxe }, ste := { present := t.headOf .ste != 0, cursor := t.headOf .ste },
                 tp := ((upto ps.length).zip ps).foldl (fun m (k, v) => Memory.putNat m (0x40 + 8 * k) 8 v) [], rb := rb,
                 budget := t.fullBudget, step := t.stepped, dirty := t.units.foldl (fun m u => Map.set false m u true) [] })
    (hi : if t.seminit = 0 then c = c0 else s.applyImage t.pasid t.seminit c0 = .ok c) : s.prepare t = .ok c := by
  have hparams : s.readTable t.pasid t.param (if t.param = 0 then 0 else t.paramLen) = .ok ps := by
    split at hp
    · next h => rw [if_pos h, hp, State.readTable]
    · next h => rw [if_neg h, hp]
  unfold State.prepare
  dsimp only
  rw [hparams]
  dsimp only
  by_cases hz : t.reloc = 0
  · rw [if_pos hz] at hr ⊢
    rw [State.readTable]
    dsimp only
    rw [if_pos hz]
    subst h0 hr
    split at hi
    · next h => exact (if_pos h).trans (congrArg Except.ok hi.symm)
    · next h => exact (if_neg h).trans hi
  · rw [if_neg hz] at hr ⊢
    rw [hr]
    dsimp only
    rw [if_neg hz]
    subst h0
    split at hi
    · next h => exact (if_pos h).trans (congrArg Except.ok hi.symm)
    · next h => exact (if_neg h).trans hi

theorem State.firstDispatch_ok {c : Ctx} (h : s.prepare (s.task n) = .ok c) : s.firstDispatch n tile slot =
    (((s.occupy n tile slot c).updTask n fun t => { t with fresh := false, budget := none }).setTaskState n .resident).stopForStep tile slot := by
  rw [State.firstDispatch, h]

theorem State.restoreTask_ok {c c1 : Ctx} (h : s.frameUnits (s.task n) ((s.task n).saved.getD {}) = .ok c)
    (h1 : c1 = (s.task n).remote.foldl (fun c (k, v) => (c.addSem k v).getD c) (c.holdStreams .opened)) : s.restoreTask n tile slot =
    ((s.occupy n tile slot { c1.updChains fun _ h => h.restored with dirty := [], wdc := 0 }).updTask n fun t =>
      { t with saved := none, remote := [] }).setTaskState n .resident := by
  subst h1
  obtain ⟨units, hu⟩ : ∃ f, f = @State.frameUnits := ⟨_, rfl⟩
  rw [State.restoreTask_unfold, ← hu]
  rw [← hu] at h
  dsimp only
  rw [h]

/-! ### Saves -/

section
variable (hok : unitsOk tile slot = true)
include hok

theorem exec_contextSave : exec (.contextSave tile slot) s = .next (if (s.slotAt tile slot).yielding && !(s.slotAt tile slot).parking &&
    !(s.slotAt tile slot).cancelled then s.saveTask tile slot .saved else s) := if_neg (by simp [hok])

theorem exec_taskPark : exec (.taskPark tile slot) s = .next (if (s.slotAt tile slot).parking && !(s.slotAt tile slot).inPlace &&
    !(s.slotAt tile slot).cancelled then s.saveTask tile slot .parked else s) := if_neg (by simp [hok])

end

/-- A save waits for a block that holds it up. -/
theorem State.saveTask_waits (h : s.saveWaits tile slot = true) (st : TState) : s.saveTask tile slot st = s := by
  unfold State.saveTask
  split
  · rfl
  · exact if_pos h

/-- A save whose engines come to rest writes the frame and frees the slot. -/
theorem State.saveTask_ok {s1 s2 u : State} {c : Ctx} {y : Slot} (ht : (s.slotAt tile slot).task = some n) (hw : s.saveWaits tile slot = false)
    (h1 : s1 = s.quiesce tile slot) (hy : y = s1.slotAt tile slot) (hcalm : s1.calm (engRef tile slot .lde) = true)
    (hr : (s1.pasid (s1.task n).pasid).runs = true) (hi : y.inPlace = false) (hc : c = y.ctx.holdStreams .held)
    (h2 : s1.writeChunks (s1.task n).pasid (s1.task n).frame (frameChunks s1 (s1.task n) c) = .ok s2)
    (hu : u = (((s2.updTask n fun t => { t with saved := some ((c.within t).updChains fun _ h => h.saved) }).releaseSlot tile slot).detach n).flushTask n)
    (st : TState) : s.saveTask tile slot st = u.setTaskState n (if y.parking then .parked else st) := by
  have hrun : ¬ ((s1.pasid (s1.task n).pasid).halting || (s1.pasid (s1.task n).pasid).halted || y.inPlace) = true := by
    simp only [Pasid.runs, Bool.and_eq_true, Bool.not_eq_true'] at hr
    simp [hr, hi]
  obtain ⟨write, hwr⟩ : ∃ f, f = @State.writeChunks := ⟨_, rfl⟩
  rw [State.saveTask_unfold, ← hwr]
  rw [← hwr] at h2
  dsimp only
  rw [ht]
  dsimp only
  rw [if_neg (by simp [hw]), ← h1, ← hy, if_neg hrun, Seen.delivers_calm (x := { s := s1, v := y.ctx }) hcalm]
  dsimp only
  rw [← hc, h2, hu]

/-! ### Completion (R104, R105) -/

theorem State.task_of_slotOf (h : s.slotOf n = some (tile, slot)) : (s.slotAt tile slot).task = some n := by
  unfold State.slotOf at h
  split at h
  · next k _ =>
    split at h
    · next ht => cases h; exact ht
    · cases h
  · cases h

theorem exec_taskComplete_waits (h : s.slotOf n = some (tile, slot)) (hm : s.mayComplete n tile slot = false) : exec (.taskComplete n) s = .next s := by
  show execTaskComplete n s = _
  rw [execTaskComplete, h]
  exact if_pos (by simp [hm])

theorem exec_taskComplete_refused {e : Engine} {v : SpawnRefusal} (h : s.slotOf n = some (tile, slot)) (hm : s.mayComplete n tile slot = true)
    (hv : (s.slotAt tile slot).ctx.refusedBy = some (e, v)) : exec (.taskComplete n) s = .next (s.raiseRefusal (engRef tile slot e) v) := by
  show execTaskComplete n s = _
  rw [execTaskComplete, h]
  refine (if_neg (by simp [hm])).trans ?_
  rw [hv]

theorem exec_taskComplete_finishes (h : s.slotOf n = some (tile, slot)) (hm : s.mayComplete n tile slot = true)
    (hv : (s.slotAt tile slot).ctx.refusedBy = none) : exec (.taskComplete n) s = .next (s.finishTask n tile slot) := by
  show execTaskComplete n s = _
  rw [execTaskComplete, h]
  refine (if_neg (by simp [hm])).trans ?_
  rw [hv]

theorem Ctx.refusedBy_none {c : Ctx} (h : ∀ e, (c.chain e).refusal = none) : c.refusedBy = none :=
  List.findSome?_eq_none_iff.mpr fun e _ => by rw [h e]; rfl

/-- A fork of the task keeps it from completing. -/
theorem State.mayComplete_forked (h : ∃ f ∈ s.forks, f.task = n ∧ f.keeps (s.slotAt tile slot).ctx = true) : s.mayComplete n tile slot = false := by
  obtain ⟨f, hf, ht, hk⟩ := h
  have hany : (s.forks.any fun f => f.task == n && f.keeps (s.slotAt tile slot).ctx) = true := List.any_eq_true.mpr ⟨f, hf, by simp [ht, hk]⟩
  unfold State.mayComplete
  dsimp only
  rw [hany]
  simp

/-- The conditions of R104. -/
theorem State.mayComplete_of {x : Slot} (hx : x = s.slotAt tile slot) (hst : (s.task n).state = .resident) (hlive : x.live = true)
    (hchains : ∀ h ∈ x.ctx.chains, (h.present = true → h.retired = true) ∧ h.inflight = [] ∧ h.stop ≠ .halted)
    (hforks : ∀ f ∈ s.forks, f.task = n → f.keeps x.ctx = false) (hrings : ∀ g ∈ x.ctx.ringList, g.2.sub = none ∧ g.2.pull = none)
    (hnote : s.heldNote (s.task n) = false) (hsucc : (s.task n).succ = 0 ∨ s.schedulerHeld tile < 64) : s.mayComplete n tile slot = true := by
  have h1 : x.ctx.allRetired = true := List.all_eq_true.mpr fun h hh => by
    cases hp : h.present
    · rfl
    · simp [(hchains h hh).1 hp]
  have h2 : (x.ctx.chains.all fun h => h.inflight.isEmpty && h.stop != .halted) = true := List.all_eq_true.mpr fun h hh => by
    simp [(hchains h hh).2.1, (hchains h hh).2.2]
  have h3 : (s.forks.any fun f => f.task == n && f.keeps x.ctx) = false := List.any_eq_false.mpr fun f hf => by
    by_cases hn : f.task = n
    · simp [hforks f hf hn]
    · simp [hn]
  have h4 : (x.ctx.ringList.all fun (_, g) => g.sub.isNone && g.pull.isNone) = true := List.all_eq_true.mpr fun g hg => by
    simp [(hrings g hg).1, (hrings g hg).2]
  have h5 : ((s.task n).succ == 0 || decide (s.schedulerHeld tile < 64)) = true := by simpa using hsucc
  subst hx
  unfold State.mayComplete
  dsimp only
  rw [hst, hlive, h1, h2, h3, h4, hnote, h5]
  rfl

end Sys2Proof.Machine

open Sys2Proof Sys2Proof.Machine

/-- Settles O43: the scheduler's choice, then the save, then completion. -/
theorem taskEvents : Obligations.TaskEvents := by
  rintro s n tile slot x t rfl rfl
  refine ⟨fun hd => ⟨fun hs => ?ready, fun hs => ?saved⟩, fun hd => ⟨?_, ?_⟩, fun hok hc => ⟨?yield, ?park, ?held, ?saves, ?waits⟩, ?completes, ?forked⟩
  case ready =>
    refine ⟨congrArg Host.Outcome.next (State.dispatchOf_ready hd hs), congrArg Host.Outcome.next (State.dispatchOf_other hd ?_), fun ps rb c0 c hp hr h0 hi => ?_⟩
    · rw [hs]
      exact TState.noConfusion
    · exact congrArg Host.Outcome.next ((State.dispatchOf_ready hd hs).trans (State.firstDispatch_ok (State.prepare_ok hp hr h0 hi)))
  case saved =>
    refine ⟨congrArg Host.Outcome.next (State.dispatchOf_saved hd hs), congrArg Host.Outcome.next (State.dispatchOf_other hd ?_), fun c c1 hc h1 => ?_⟩
    · rw [hs]
      exact TState.noConfusion
    · exact congrArg Host.Outcome.next ((State.dispatchOf_saved hd hs).trans (State.restoreTask_ok hc h1))
  · exact congrArg Host.Outcome.next (State.dispatchOf_none hd _)
  · exact congrArg Host.Outcome.next (State.dispatchOf_none hd _)
  case forked => exact fun hn hf => exec_taskComplete_waits hn (State.mayComplete_forked hf)
  case yield =>
    intro hy hp
    exact (exec_contextSave hok).trans (congrArg _ (if_pos (by simp [hy, hp, hc])))
  case park =>
    intro hp hi
    exact (exec_taskPark hok).trans (congrArg _ (if_pos (by simp [hp, hi, hc])))
  case held =>
    intro hi
    exact (exec_taskPark hok).trans (congrArg _ (if_neg (by simp [hi])))
  case saves =>
    intro s1 s2 c u y ht hw h1 hy hcalm hr hi hc' h2 hu
    have hs (st : TState) := State.saveTask_ok ht hw h1 hy hcalm hr hi hc' h2 hu st
    refine ⟨fun hy hp => ?_, fun hp hi => ?_⟩
    · rw [exec_contextSave hok, if_pos (by simp [hy, hp, hc]), hs]
    · rw [exec_taskPark hok, if_pos (by simp [hp, hi, hc]), hs, ite_self]
  case waits =>
    intro hw
    rw [exec_contextSave hok, exec_taskPark hok, State.saveTask_waits hw, State.saveTask_waits hw, ite_self, ite_self]
    exact ⟨rfl, rfl⟩
  case completes =>
    intro hn hst hp hi hcan hy hchains hforks hrings hnote hsucc
    have hlive : (s.slotAt tile slot).live = true := by simp [Slot.live, State.task_of_slotOf hn, hp, hi, hcan, hy]
    have hm := State.mayComplete_of rfl hst hlive hchains hforks hrings hnote hsucc
    exact ⟨fun hr => exec_taskComplete_finishes hn hm (Ctx.refusedBy_none hr), fun e v hv => exec_taskComplete_refused hn hm hv⟩

end

section
/-! PROOFS. The packets that the front end starts (R349 to R351, R185). -/

namespace Sys2Proof.Machine

variable {s : State} {q : Nat} {dws : List Nat}

/-! ### The step of a packet -/

/-- The walker starts the packet that the front end starts next. -/
theorem State.walkTo_of {ty : List Nat → Bool} (hn : s.nextQueue = some q) (hs : s.startable q = some dws) (ht : ty dws = true) :
    s.walkTo q ty = some (({ s with walkers := Map.set 0 s.walkers (s.queue q).prio (q + 1) } : State).startPacket q dws
      (packetOk q dws && packetType dws == 5), (s.queue q).head, dws) := by
  unfold State.walkTo
  rw [if_neg (not_not.mpr hn), hs]
  exact if_neg (by simp [ht])

/-- A packet that keeps R349 runs as its type does. -/
theorem packetStep_started {ty : List Nat → Bool} (run : State → Nat → List Nat → State) (h : s.Starts q dws) (ht : ty dws = true) :
    packetStep q s ty run = .next (run (s.started q dws) (s.queue q).head dws) := by
  obtain ⟨hq, hn, hs, hok⟩ := h
  unfold packetStep
  rw [if_neg (Nat.not_le.mpr hq), State.walkTo_of hn hs ht, hok]
  exact congrArg Host.Outcome.next (if_pos hok)

/-- One that does not completes with 0x341. -/
theorem packetStep_malformed {ty : List Nat → Bool} (run : State → Nat → List Nat → State) (hq : q < 4096) (hn : s.nextQueue = some q)
    (hs : s.startable q = some dws) (hok : packetOk q dws = false) (ht : ty dws = true) : packetStep q s ty run =
      .next ((({ s with walkers := Map.set 0 s.walkers (s.queue q).prio (q + 1) } : State).startPacket q dws false).failPacket
        q (s.queue q).head 0x341 dws) := by
  unfold packetStep
  rw [if_neg (Nat.not_le.mpr hq), State.walkTo_of hn hs ht, hok]
  exact congrArg Host.Outcome.next (if_neg (by simp [hok]))

/-! ### The packets -/

/-- The value that a SIGNAL leaves (R185). -/
theorem postOp_apply (op old v : Nat) :
    (postOp op).apply old v 0 = if op = 0 then (old + v) % 2 ^ 64 else if op = 1 then max old v else v := by
  rcases op with _ | _ | op
  · rfl
  · rfl
  · rfl

theorem runModel_absent {i : Nat} {m : Model} (hm : m = s.model (packetCmd dws)) (h : m.loaded = false ∨ m.version ≠ bits (pw dws 0) 32 32) :
    runModel q s i dws = s.failPacket q i 0x342 dws := by
  subst hm
  exact if_pos (by obtain h | h := h <;> simp [h])

section
variable {i pasid : Nat} {l : List Nat} (hp : pasid = (s.queue q).pasid)
include hp

theorem runLaunch_unreadable (h : s.recordList pasid (pw dws 1) = none) : runLaunch q s i dws = s.failPacket q i 0x341 dws := by
  subst hp
  unfold runLaunch
  dsimp only
  rw [h]
  rfl

theorem runLaunch_empty (h : s.recordList pasid (pw dws 1) = some []) : runLaunch q s i dws = s.endPacket q i (pw dws 2) dws := by
  subst hp
  unfold runLaunch
  dsimp only
  rw [h]

theorem runLaunch_records (h : s.recordList pasid (pw dws 1) = some l) (hl : l ≠ []) :
    runLaunch q s i dws = (s.launchRecords 0 pasid (packetCobj dws) (pw dws 2) 0 (some q) i l).1 := by
  subst hp
  unfold runLaunch
  dsimp only
  rw [h]
  cases l with
  | nil => exact absurd rfl hl
  | cons a l => rfl

theorem runGraph_created {g : List (List Nat)} {t : State} {gid : Nat} (h : s.graphList pasid (pw dws 1) = some g)
    (hn : s.newLaunch 0 { isGraph := true, pasid := pasid, count := g.length, cobj := packetCobj dws, val := pw dws 2, queue := some q, index := i } =
      some (t, gid)) :
    runGraph q s i dws = ((upto g.length).zip g).foldl (fun s (k, d) => graphLaunch pasid gid s (k + 1) d) t := by
  subst hp
  unfold runGraph
  dsimp only
  rw [h]
  dsimp only
  rw [hn]

theorem runModel_launches {m : Model} {args : List Nat} {t : State} (hm : m = s.model (packetCmd dws)) (hl : m.loaded = true)
    (hv : m.version = bits (pw dws 0) 32 32) (ha : s.readDws pasid (pw dws 1) 8 = some args) (hne : m.tasks ≠ [])
    (ht : m.tasks.foldl (fun o va => o.bind fun s => s.relocate pasid args va) (some s) = some t) :
    runModel q s i dws = (t.launchRecords 0 pasid (packetCobj dws) (pw dws 2) 0 (some q) i m.tasks).1.setModel (packetCmd dws)
      { m with inst := some (t.launchRecords 0 pasid (packetCobj dws) (pw dws 2) 0 (some q) i m.tasks).2 } := by
  subst hp hm
  refine (if_neg (by simp [hl, hv])).trans ?_
  rw [ha]
  dsimp only
  rw [ht]
  exact if_neg (by simpa using hne)

theorem runSignal_unreadable (h : s.readVa pasid (pw dws 1) 8 = none) : runSignal q s i dws = s.failPacket q i 0x341 dws := by
  subst hp
  unfold runSignal
  dsimp only
  rw [h]
  rfl

theorem runSignal_written {old v : Nat} {t : State} (h : s.readVa pasid (pw dws 1) 8 = some old)
    (hv : (postOp (bits (pw dws 0) 16 8)).apply old (pw dws 2) 0 = v) (hw : s.writeVa pasid (pw dws 1) 8 v = some t) :
    runSignal q s i dws = t.packetDone q i none true := by
  subst hp
  unfold runSignal State.putObject
  dsimp only
  rw [h]
  dsimp only
  rw [hv, hw]

theorem runSignal_unwritten {old v : Nat} (h : s.readVa pasid (pw dws 1) 8 = some old)
    (hv : (postOp (bits (pw dws 0) 16 8)).apply old (pw dws 2) 0 = v) (hw : s.writeVa pasid (pw dws 1) 8 v = none) : runSignal q s i dws =
      (s.noteRecord 0 { pasid := pasid, cause := 0x343, fva := pw dws 1, remain := v % 2 ^ 64 }).packetDone q i none false := by
  subst hp
  unfold runSignal State.putObject
  dsimp only
  rw [h]
  dsimp only
  rw [hv, hw]
  rfl

theorem runWait_watches {v : Nat} (h : s.readVa pasid (pw dws 1) 8 = some v) : runWait q s i dws = s := by
  subst hp
  unfold runWait
  rw [h]

end

/-! ### WAIT_PACKET_COMPLETE -/

theorem exec_waitPacketComplete_none (hq : q < 4096) (h : (s.queue q).started.find? (·.wait) = none) : exec (.waitPacketComplete q) s = .next s := by
  refine (if_neg (Nat.not_le.mpr hq)).trans ?_
  rw [h]

theorem exec_waitPacketComplete {p : Started} {v : Nat} (hq : q < 4096) (h : (s.queue q).started.find? (·.wait) = some p)
    (hv : s.readVa (s.queue q).pasid (p.dws.getD 1 0) 8 = some v) : exec (.waitPacketComplete q) s =
    .next (if p.dws.getD 2 0 ≤ v then s.packetDone q p.index none true else s) := by
  refine (if_neg (Nat.not_le.mpr hq)).trans ?_
  rw [h]
  dsimp only
  rw [show s.readVa (s.queue q).pasid (pw p.dws 1) 8 = some v from hv]
  rfl

end Sys2Proof.Machine

open Sys2Proof Sys2Proof.Machine

/-- Settles O49: each packet by its type, then the end of a WAIT and a malformed packet. -/
theorem packetEvents : Obligations.PacketEvents := by
  refine ⟨?_, ?_⟩
  · rintro s _ q _ pasid dws l h rfl rfl hp
    refine ⟨fun ht hl => ?launch, fun ht hl => ?unreadable, fun ht g t1 gid e hg he hn => ?graph, fun ht m hm => ?model, fun ht old v ho hv => ?signal,
      fun ht ho => ?unsigned, fun ht v hv => ?wait⟩
    case launch =>
      have hrun := packetStep_started (ty := fun d => !([2, 3, 4, 5, 8].contains (packetType d)) || (packetType d == 8 && q != 0)) (runLaunch q) h (by simp [ht])
      refine ⟨fun hn => hrun.trans (congrArg Host.Outcome.next ?_), fun hn => hrun.trans (congrArg Host.Outcome.next ?_)⟩
      · exact runLaunch_empty hp (hn ▸ hl)
      · exact runLaunch_records hp hl hn
    case unreadable =>
      exact (packetStep_started (runLaunch q) h (by simp [ht])).trans (congrArg Host.Outcome.next (runLaunch_unreadable hp hl))
    case graph =>
      subst he
      exact (packetStep_started (runGraph q) h (by simp [ht])).trans (congrArg Host.Outcome.next (runGraph_created hp hg hn))
    case model =>
      have hrun := packetStep_started (ty := fun d => packetType d == 3) (runModel q) h (by simp [ht])
      exact ⟨fun hx => hrun.trans (congrArg Host.Outcome.next (runModel_absent hm hx)),
        fun args t1 hl hv ha hne hr => hrun.trans (congrArg Host.Outcome.next (runModel_launches hp hm hl hv ha hne hr))⟩
    case signal =>
      have hrun := packetStep_started (ty := fun d => packetType d == 4) (runSignal q) h (by simp [ht])
      have hv' : (postOp (bits (pw dws 0) 16 8)).apply old (pw dws 2) 0 = v := by
        rw [hv, postOp_apply]
        rcases bits (pw dws 0) 16 8 with _ | _ | op
        · rfl
        · rfl
        · rfl
      exact ⟨fun t1 hw => hrun.trans (congrArg Host.Outcome.next (runSignal_written hp ho hv' hw)),
        fun hw => hrun.trans (congrArg Host.Outcome.next (runSignal_unwritten hp ho hv' hw))⟩
    case unsigned =>
      exact (packetStep_started (runSignal q) h (by simp [ht])).trans (congrArg Host.Outcome.next (runSignal_unreadable hp ho))
    case wait =>
      exact (packetStep_started (runWait q) h (by simp [ht])).trans (congrArg Host.Outcome.next (runWait_watches hp hv))
  · intro s q v p dws hq
    refine ⟨fun hw hv => ?_, fun hw => exec_waitPacketComplete_none hq hw, fun hn hs hok ht => packetStep_malformed _ hq hn hs hok (by simp [ht])⟩
    rw [exec_waitPacketComplete hq hw hv]
    exact ⟨fun h => congrArg Host.Outcome.next (if_pos h), fun h => congrArg Host.Outcome.next (if_neg (Nat.not_le.mpr h))⟩

end

section
/-! PROOFS. The commands of the administrative queue, and how PASDEL and WRESET end (R352 to R354, R340, R341). -/

namespace Sys2Proof.Machine

variable {s : State} {i : Nat} {dws : List Nat}

/-! ### The step of a command -/

/-- A command of which none of its kind is under way starts. -/
theorem adminStep_started {cmd : Nat} (run : State → Nat → List Nat → State) (finish : State → Nat → List Nat → Option State) (h : s.Commands cmd dws) :
    adminStep s (isCommand cmd) run finish = .next (run (s.started 0 dws) (s.queue 0).head dws) := by
  obtain ⟨hs, hc, hnone⟩ := h
  have hf : ((s.queue 0).started.filter fun p => isCommand cmd p.dws) = [] :=
    List.filter_eq_nil_iff.mpr fun p hp => by simpa using List.all_eq_true.mp hnone p hp
  unfold adminStep
  rw [hf]
  exact packetStep_started run hs hc

/-- A command that completes as it starts. -/
theorem adminStep_at_once {cmd : Nat} {ty : List Nat → Bool} (run : State → Nat → List Nat → State) (h : s.Commands cmd dws) (ht : ty dws = true) :
    adminStep s ty run = .next (run (s.started 0 dws) (s.queue 0).head dws) := by
  have hn : (((s.queue 0).started.filter fun p => ty p.dws).findSome? fun _ => (none : Option State)) = none :=
    List.findSome?_eq_none_iff.mpr fun _ _ => rfl
  unfold adminStep
  rw [hn]
  exact packetStep_started run h.1 ht

/-- The one command of its kind that is under way ends. -/
theorem adminStep_ends {cmd : Nat} {p : Started} {t : State} (run : State → Nat → List Nat → State) (finish : State → Nat → List Nat → Option State)
    (h : (s.queue 0).started.filter (fun x => isCommand cmd x.dws) = [p]) (hf : finish s p.index p.dws = some t) :
    adminStep s (isCommand cmd) run finish = .next t := by
  unfold adminStep
  rw [h]
  simp only [List.findSome?_cons, hf]

/-! ### PASIDs -/

theorem runPasnew_ok (hc : isCommand 1 dws = true) (h0 : pw dws 1 ≠ 0) (h20 : pw dws 1 < 2 ^ 20) (hv : (s.pasid (pw dws 1)).valid = false)
    (hr : rootOk (pw dws 2) = true) (ht : tableOk (pw dws 3) (pw dws 4) = true) : runPasnew s i dws =
    (s.setPasid (pw dws 1) { valid := true, root := pw dws 2, htable := pw dws 3, hcount := pw dws 4 }).endPacket 0 i 0 dws :=
  if_neg (by simpa [hc, hv, hr, ht, h0] using h20)

theorem exec_pasnew_started (h : s.Commands 1 dws) : exec .pasnew s = .next (runPasnew (s.started 0 dws) (s.queue 0).head dws) :=
  adminStep_at_once (ty := fun d => isCommand 1 d || (packetType d == 8 && (packetCmd d == 0 || decide (12 < packetCmd d)))) runPasnew h
    (by simp [h.2.1])

theorem runPasnew_taken (hv : (s.pasid (pw dws 1)).valid = true) : runPasnew s i dws = s.failPacket 0 i 0x341 dws :=
  if_pos (by simp [hv])

theorem runPasdel_ok (h0 : pw dws 1 ≠ 0) (hv : (s.pasid (pw dws 1)).valid = true) : runPasdel s i dws =
    ((((((s.queuesOf (pw dws 1)).foldl (fun s q => s.endQueue (pw dws 1) q) s).endMoves (pw dws 1)).cancelJob (pw dws 1)).dropForks
      (pw dws 1)).recount) := if_neg (by simp [hv, h0])

theorem runHset_ok (hv : (s.pasid (pw dws 1)).valid = true) (ht : tableOk (pw dws 2) (pw dws 3) = true) : runHset s i dws =
    (s.setPasid (pw dws 1) { s.pasid (pw dws 1) with hnext := some (pw dws 2, pw dws 3) }).endPacket 0 i 0 dws :=
  if_neg (by simp [hv, ht])

/-! ### Queues -/

theorem State.runLists_endSplice (s : State) (l : List Nat) : (s.endSplice l).runLists = s.runLists := by
  unfold State.endSplice
  split <;> rfl

theorem runQnew_waits (h : s.blockInUse dws = true) : runQnew s i dws = s := if_pos h

theorem runQnew_inserts {ws : List Nat} {x : Queue} {q : Nat} (h : s.blockInUse dws = false) (hr : s.readDws 0 (pw dws 1) 32 = some ws)
    (hq : queueOf (fun k => ws.getD k 0) = (x, q)) (hok : queueImageOk (fun k => ws.getD k 0) = true) (hp : x.pasid ≠ 0)
    (hv : (s.pasid x.pasid).valid = true) (ha : (s.queue q).present = false) (hn : (s.queue q).started = []) : runQnew s i dws =
    ({ (s.setQueue q x).endSplice (Map.get [] s.runLists x.prio) with
      runLists := Map.upd [] s.runLists x.prio (· ++ [q]) } : State).endPacket 0 i q dws := by
  refine (if_neg (by simp [h])).trans ?_
  unfold insertQueue
  rw [hr]
  dsimp only
  rw [hq]
  refine (if_neg (by rw [hok]; simp [hp, hv, ha, hn])).trans ?_
  rw [State.runLists_endSplice]
  rfl

/-- The packets of a queue from its head on, n of them; of one whose slot is not valid, none of its words. -/
theorem Queue.packets_eq (x : Queue) (l : List Nat) : ((l.map (x.head + ·)).filterMap fun i =>
    match x.packet i with | some d => some (i, d) | none => if true = true then some (i, []) else none) =
      l.map fun k => (x.head + k, (x.packet (x.head + k)).getD []) := by
  induction l with
  | nil => rfl
  | cons k l ih =>
    rw [List.map_cons, List.map_cons, List.filterMap_cons, ih]
    cases x.packet (x.head + k) <;> rfl

/-- A queue that a QDEL kills: its packets that have not started complete with 0x340. -/
theorem State.killQueue_deleted {u u1 : State} {x : Queue} {q : Nat} (hu : u = s.rereadQueue q) (hx : x = u.queue q)
    (h1 : u1 = ((upto (x.tail - x.head)).map fun k => (x.head + k, (x.packet (x.head + k)).getD [])).foldl
      (fun s p => s.endUnstarted q p.1 p.2) (u.setQueue q { x with live := false })) :
    s.killQueue q true = u1.setQueue q { u1.queue q with fetched := [] } := by
  have hk (v : State) (hv : v = (((upto (x.tail - x.head)).map (x.head + ·)).filterMap fun i =>
      match x.packet i with | some d => some (i, d) | none => if true = true then some (i, []) else none).foldl
        (fun s p => s.endUnstarted q p.1 p.2) (u.setQueue q { x with live := false })) :
      s.killQueue q true = v.setQueue q { v.queue q with fetched := [] } := by
    subst hu hx hv
    rfl
  exact hk u1 (by rw [Queue.packets_eq]; exact h1)

theorem runQdel_ok {l : List Nat} {u u1 t : State} {x : Queue} (h0 : pw dws 1 ≠ 0) (h12 : pw dws 1 < 4096) (hpr : (s.queue (pw dws 1)).present = true)
    (hl : l = Map.get [] s.runLists (s.queue (pw dws 1)).prio) (hu : u = s.rereadQueue (pw dws 1)) (hx : x = u.queue (pw dws 1))
    (h1 : u1 = ((upto (x.tail - x.head)).map fun k => (x.head + k, (x.packet (x.head + k)).getD [])).foldl
      (fun s p => s.endUnstarted (pw dws 1) p.1 p.2) (u.setQueue (pw dws 1) { x with live := false }))
    (ht : t = if (s.queue (pw dws 1)).live = true then u1.setQueue (pw dws 1) { u1.queue (pw dws 1) with fetched := [] } else s) : runQdel s i dws =
    ({ (t.setQueue (pw dws 1) { t.queue (pw dws 1) with
          present := false, removed := s.mgmt.walkerPass + 1,
          nextq := (match l.findIdx? (· == pw dws 1) with | some k => (l[k + 1]?).map (· + 1) | none => none).getD 0 }).endSplice
            (l.takeWhile (· != pw dws 1)) with
        runLists := Map.upd [] t.runLists (s.queue (pw dws 1)).prio (·.filter (· != pw dws 1)) } : State).endPacket 0 i 0 dws := by
  have hkill : (if (s.queue (pw dws 1)).live = true then s.killQueue (pw dws 1) true else s) = t := by
    rw [State.killQueue_deleted hu hx h1, ht]
  have hno : ¬ (pw dws 1 = 0 ∨ 4096 ≤ pw dws 1 ∨ (!(s.queue (pw dws 1)).present) = true) := by
    rintro (h | h | h)
    · exact h0 h
    · exact absurd h12 (Nat.not_lt.mpr h)
    · simp [hpr] at h
  refine (if_neg hno).trans ?_
  rw [hkill, State.runLists_endSplice, ← hl]
  rfl

/-! ### GRANT -/

theorem runGrant_ok {p : Place} {a n : Nat} (hr : grantRange dws = some (p, a, n))
    (ho : pw dws 5 = 0 ∨ ((s.pasid (pw dws 5)).valid = true ∧ ∀ k < n,
      Map.get false s.granulesOut (granuleKey p (a + k * granuleBytes)) = false ∨ Map.get 0 s.granuleFrom (granuleKey p (a + k * granuleBytes)) = pw dws 5)) :
    runGrant s i dws = ((upto n).foldl (fun s k => s.grantOne p (a + k * granuleBytes) (pw dws 5)) s.settlePools).endPacket 0 i 0 dws := by
  unfold runGrant
  rw [hr]
  refine if_neg ?_
  rintro ⟨hne, hbad⟩
  obtain h0 | ⟨hv, hk⟩ := ho
  · exact hne h0
  · obtain hbad | hbad := hbad
    · simp [hv] at hbad
    · obtain ⟨k, hmem, hheld⟩ := List.any_eq_true.mp hbad
      have hlt : k < n := List.mem_range.mp hmem
      simp only [Bool.and_eq_true, bne_iff_ne] at hheld
      obtain h | h := hk k hlt
      · exact Bool.false_ne_true (h.symm.trans hheld.1)
      · exact hheld.2 h

/-! ### Model slots -/

/-- An object in order is put in memory, its relocations applied for the place it is given (R61, R351). -/
theorem State.loadObject_ok {k v va n size : Nat} {l : List Section} {img img1 : List Nat} {part : Nat → List Nat} (hk : k < 256) (hn : n ≤ 4096)
    (h0 : s.readVa 0 va 8 = some (0x4C4E4D31 + 2 ^ 32 * v)) (h1 : s.readVa 0 (va + 8) 8 = some (n + 2 ^ 32 * k)) (hl : s.objectSections va n = some l)
    (hok : ∀ x ∈ l, x.ok = true) (hs : size = (l.map fun x => x.off + x.size).foldl max 0) (hle : size ≤ 2 ^ 26)
    (hi : s.readDws 0 va (size / 8) = some img) (hp : part = fun k => (l.filter fun x => x.kind == k).flatMap fun x => x.dws img)
    (hr : relocateAll (s.loadBase size) (secondOnes (part 8)) (part 7) img = some img1) :
    s.loadObject va k v = some (s.placeImage (s.loadFrame k size) img1, (l.filter (·.kind == 2)).flatMap fun x =>
      (upto (x.size / 128)).map fun j => s.loadBase size + x.off + 128 * j) := by
  have hcount : bits (n + 2 ^ 32 * k) 0 32 = n := by
    unfold bits
    omega
  have hslot : bits (n + 2 ^ 32 * k) 32 16 = k := by
    unfold bits
    omega
  have hhead : ¬ ((0x4C4E4D31 + 2 ^ 32 * v) % 2 ^ 32 ≠ objectMagic ∨ (0x4C4E4D31 + 2 ^ 32 * v) / 2 ^ 32 ≠ v ∨ k ≠ k ∨ k = 0xFFFF ∨ 4096 < n) := by
    unfold objectMagic
    omega
  have hall : l.all Section.ok = true := List.all_eq_true.mpr hok
  subst hp
  unfold State.loadObject
  rw [h0, h1]
  dsimp only
  rw [hcount, hslot, if_neg hhead, hl]
  dsimp only
  rw [← hs, if_neg (by rw [hall]; simp only [objectBytes]; simp; omega), hi]
  dsimp only
  rw [hr]
  rfl

theorem runMload_ok {t : State} {tasks : List Nat} (hk : pw dws 1 < 256) (hv : pw dws 3 < 2 ^ 32)
    (hl : s.loadObject (pw dws 2) (pw dws 1) (pw dws 3) = some (t, tasks)) (hb : s.modelBusy (s.model (pw dws 1)) = false) : runMload s i dws =
    (t.setModel (pw dws 1) { loaded := true, version := pw dws 3, object := pw dws 2, tasks := tasks }).endPacket 0 i 0 dws := by
  refine (if_neg (by omega)).trans ?_
  rw [hl]
  exact if_neg (by simp [hb])

theorem runMunld_idle (hk : pw dws 1 < 256) (hl : (s.model (pw dws 1)).loaded = true) (hb : s.modelBusy (s.model (pw dws 1)) = false) :
    runMunld s i dws = (s.setModel (pw dws 1) {}).endPacket 0 i 0 dws := by
  refine (if_neg (Nat.not_le.mpr hk)).trans ((if_neg (by simp [hl])).trans ?_)
  rw [finishMunld, if_neg (by simp [hb])]
  rfl

theorem runMunld_busy (hk : pw dws 1 < 256) (hl : (s.model (pw dws 1)).loaded = true) (hb : s.modelBusy (s.model (pw dws 1)) = true) :
    runMunld s i dws = s := by
  refine (if_neg (Nat.not_le.mpr hk)).trans ((if_neg (by simp [hl])).trans ?_)
  rw [finishMunld, if_pos hb]
  rfl

/-! ### The dump buffer, firmware, attestation -/

theorem runDumpreg_ok (h : pw dws 1 + pw dws 2 ≤ 2 ^ 48) : runDumpreg s i dws =
    ({ s with mgmt := { s.mgmt with dump := some (pw dws 1, pw dws 2) } } : State).endPacket 0 i 0 dws := if_neg (Nat.not_lt.mpr h)

theorem runFwupd_ok (hr : (s.readVa 0 (pw dws 1) 8).isSome = true) (ha : s.mgmt.accepts s.someImage = true) : runFwupd s i dws =
    ({ s with mgmt := { s.mgmt with nextImage := some s.someImage } } : State).endPacket 0 i 0 dws :=
  if_neg (by simp [Option.isSome_iff_ne_none.mp hr, ha])

theorem State.length_freeDws (s : State) (key n : Nat) : (s.freeDws key n).length = n := by
  simp [State.freeDws, upto]

theorem runAttest_ok {nonce : List Nat} {u : State} (hn : s.readDws 0 (pw dws 1) 4 = some nonce) (hw : s.writeDws 0 (pw dws 2) (s.report nonce) = some u) :
    runAttest s i dws = u.endPacket 0 i 0 dws := by
  unfold runAttest
  rw [hn]
  dsimp only
  rw [hw]
  rfl

/-! ### The ends of PASDEL and WRESET -/

theorem finishPasdel_live (h : s.liveOf (pw dws 1) ≠ []) : finishPasdel s i dws = some (s.cancelJob (pw dws 1)) :=
  if_pos (by simpa using h)

theorem finishPasdel_quiet (h : s.liveOf (pw dws 1) = []) (hq : s.quiet (pw dws 1) = true) :
    finishPasdel s i dws = some ((s.endPasid (pw dws 1)).endPacket 0 i 0 dws) := (if_neg (by simp [h])).trans (if_pos hq)

theorem finishWreset_live (h : (s.tasks.any fun x => x.2.state.live) = true) : finishWreset s i dws = some s.cancelAll := if_pos h

theorem finishWreset_idle (h : (s.tasks.any fun x => x.2.state.live) = false) (hi : s.idle = true) :
    finishWreset s i dws = some (s.endPacket 0 i 0 dws).warm := by
  have hno : ¬ (s.tasks.any fun x => x.2.state.live) = true := by simp [h]
  exact (if_neg hno).trans (if_pos hi)

end Sys2Proof.Machine

open Sys2Proof Sys2Proof.Machine

/-- Settles O50: each command from its start, then the ends of PASDEL and WRESET. -/
theorem adminEvents : Obligations.AdminEvents := by
  refine ⟨?_, ?_⟩
  · rintro s _ _ dws d cmd h rfl rfl hd
    obtain rfl : d = pw dws := funext hd
    refine ⟨?pasnew, ?taken, ?pasdel, ?qnew, ?qdel, ?hset, ?grant, ?mload, ?munld, ?dumpreg, ?fwupd, ?attest, ?wreset⟩
    case pasnew =>
      rintro rfl h0 h20 hv hr ht
      exact (exec_pasnew_started h).trans (congrArg Host.Outcome.next (runPasnew_ok h.2.1 h0 h20 hv hr ht))
    case taken =>
      rintro rfl hv
      exact (exec_pasnew_started h).trans (congrArg Host.Outcome.next (runPasnew_taken hv))
    case pasdel =>
      rintro rfl h0 hv
      exact (adminStep_started runPasdel finishPasdel h).trans (congrArg Host.Outcome.next (runPasdel_ok h0 hv))
    case qnew =>
      rintro rfl ws x q hr hq hok hp hv ha hn
      have hrun := adminStep_started runQnew finishQnew h
      exact ⟨fun hb => hrun.trans (congrArg Host.Outcome.next (runQnew_waits hb)),
        fun hb => hrun.trans (congrArg Host.Outcome.next (runQnew_inserts hb hr hq hok hp hv ha hn))⟩
    case qdel =>
      rintro rfl h0 h12 hpr l t1 u u1 x hl hu hx h1 ht
      exact (adminStep_at_once runQdel h h.2.1).trans (congrArg Host.Outcome.next (runQdel_ok h0 h12 hpr hl hu hx h1 ht))
    case hset =>
      rintro rfl hv ht
      exact (adminStep_at_once runHset h h.2.1).trans (congrArg Host.Outcome.next (runHset_ok hv ht))
    case grant =>
      rintro rfl p a n hr ho
      exact (adminStep_at_once runGrant h h.2.1).trans (congrArg Host.Outcome.next (runGrant_ok hr ho))
    case mload =>
      rintro rfl hk hv hb n size l img img1 part hn h0 h1 hl hok hs hle hi hp hr
      exact (adminStep_at_once runMload h h.2.1).trans (congrArg Host.Outcome.next
        (runMload_ok hk hv (State.loadObject_ok hk hn h0 h1 hl hok hs hle hi hp hr) hb))
    case munld =>
      rintro rfl hk hl
      have hrun := adminStep_started runMunld finishMunld h
      exact ⟨fun hb => hrun.trans (congrArg Host.Outcome.next (runMunld_idle hk hl hb)),
        fun hb => hrun.trans (congrArg Host.Outcome.next (runMunld_busy hk hl hb))⟩
    case dumpreg =>
      rintro rfl hle
      exact (adminStep_at_once runDumpreg h h.2.1).trans (congrArg Host.Outcome.next (runDumpreg_ok hle))
    case fwupd =>
      rintro rfl hr ha
      exact (adminStep_at_once runFwupd h h.2.1).trans (congrArg Host.Outcome.next (runFwupd_ok hr ha))
    case attest =>
      rintro rfl nonce _ hn rfl
      let t := s.started 0 dws
      refine ⟨t.freeDws (2 ^ 76) 4, t.freeDws (2 ^ 76 + 4) 4, t.freeDws (2 ^ 76 + 8) 302 ++ [t.free (2 ^ 76 + 310) % 2 ^ 32], ?_, ?_, ?_, fun u hw => ?_⟩
      · exact State.length_freeDws _ _ _
      · exact State.length_freeDws _ _ _
      · rw [List.length_append, State.length_freeDws]
        rfl
      · refine (adminStep_at_once runAttest h h.2.1).trans (congrArg Host.Outcome.next (runAttest_ok hn ?_))
        rw [← hw, State.report, List.append_assoc _ _ [_]]
        rfl
    case wreset =>
      rintro rfl
      exact adminStep_started _ finishWreset h
  · rintro s p v rfl
    refine ⟨fun hp => ⟨fun hl => ?_, fun hl hq => ?_⟩, fun hp => ⟨fun hl => ?_, fun hl hi => ?_⟩⟩
    · exact adminStep_ends runPasdel finishPasdel hp (finishPasdel_live hl)
    · exact adminStep_ends runPasdel finishPasdel hp (finishPasdel_quiet hl hq)
    · exact adminStep_ends _ finishWreset hp (finishWreset_live hl)
    · exact adminStep_ends _ finishWreset hp (finishWreset_idle hl hi)

end
